-- ==== Sys2Proof/Word.lean ====
section
/-!
DEFINITION. Word.lean: the word types of the device. Bit ranges are written [msb:lsb] with bit 0 the least
significant bit (R9); multi-byte fields are little-endian (R9).
-/
namespace Sys2Proof

/-- One byte. -/
abbrev Byte := BitVec 8
/-- A 16-bit word. -/
abbrev W16 := BitVec 16
/-- A 32-bit word: a 32-bit register, a binary32 pattern, one vector lane. -/
abbrev W32 := BitVec 32
/-- A 64-bit word: an x register, a 64-bit register, an internal address. -/
abbrev W64 := BitVec 64

end Sys2Proof
end

