-- ==== Sys2Proof/Syntax.lean ====
section
/-!
DEFINITION. Syntax.lean: the commands of the device, one constructor of `Instr` per row of spec/opcode_table.json.
A core instruction carries the core it issues on, its predicate field and the operand fields of Table 7-5 or Table 9-1;
an event or command carries what the outside world supplies with it. The spec's encodings of the core
instructions are read in Machine/CoreDecode.lean.
-/
namespace Sys2Proof

/-- A physical core SC0-SC17. -/
abbrev CoreN := Fin 18
/-- A PCIe function: 0 the PF, t the VF t; also the tenant it serves (R615). -/
abbrev Fn := Fin 128
/-- A field that names an x or an f register. -/
abbrev Reg := BitVec 5
/-- A field that names a v register (bit 4 is reserved, R288). -/
abbrev VReg := BitVec 4
/-- A field that names a p register (bits 4:3 are reserved, R288). -/
abbrev PReg := BitVec 3
/-- A handle number. -/
abbrev Handle := BitVec 6
/-- An element format code (Table 9-2). -/
abbrev Fmt := BitVec 4
/-- A job queue number. -/
abbrev QId := BitVec 16
/-- A key of the Stoker's job table. -/
abbrev JobId := BitVec 14
/-- A sync counter number. -/
abbrev CtrId := BitVec 17
/-- An arm slot number. -/
abbrev SlotId := BitVec 13
/-- An axis, and its encoder channel. -/
abbrev Axis := Fin 8
/-- A camera or an Ethernet port. -/
abbrev Port := Fin 2

/-- The predicate field of an instruction word (Table 7-3). -/
structure Pred where
  inv : Bool := false
  idx : PReg := 0
  deriving DecidableEq, Repr

/-- The rounding field AUX[1:0] (R324): the mode of `fpc`, to nearest even, toward zero. -/
inductive Rm where
  | dyn | rne | rtz
  deriving DecidableEq, Repr

/-- Handle, first row, row count minus 1, format and block size of a tile (Table 9-1). -/
structure Tile where
  h : Handle
  o : BitVec 10
  n : BitVec 10
  f : Fmt
  b : Bool
  deriving DecidableEq, Repr

/-- Which part of an 8-byte register a write covers. -/
inductive Part where
  | full | low | high
  deriving DecidableEq, Repr

/-- Who makes a register access: the Kiln, a function through its own BARs, or JTAG DBGACC. -/
inductive Agent where
  | kiln
  | fn (f : Fn)
  | jtag
  deriving DecidableEq, Repr

/-- Who waits for a read of host space: a core's DMA engine, the fetch from a queue, the load of a job. -/
inductive HostReader where
  | core (n : CoreN)
  | fetch (u : QId)
  | load (j : JobId)
  deriving DecidableEq, Repr

/-- Where a poisoned flit is consumed (Table 24-2: 0x31, 0x32, 0x33). -/
inductive PoisonUse where
  | icache | load | dma
  deriving DecidableEq, Repr

/-- What the fabric does to the flits that a command moves (R85): nothing, or flit `k` of them meets a single-bit error and is corrected, or an
uncorrectable one and is delivered poisoned. -/
inductive Fabric where
  | clean
  | corrected (k : BitVec 24)
  | lost (k : BitVec 24)
  deriving DecidableEq, Repr

/-- An operand, and what the fabric does to the read that the command makes. -/
structure Over (α : Type) where
  val : α
  fab : Fabric := .clean
  deriving DecidableEq, Repr

/-- The cause of a warm reset (GLB_RSTCAUSE). -/
inductive WarmCause where
  | perst | wdt | swrst | therm
  deriving DecidableEq, Repr

/-- A flit of device DRAM in which an ordinary read finds an error, and whether the code corrects it (R826). -/
structure FlitError where
  flit : BitVec 29
  corrected : Bool := false
  deriving DecidableEq, Repr

/-- What a patrol scrub read finds in its flit (R826, R827). -/
inductive ScrubResult where
  | clean | corrected | uncorrectable
  deriving DecidableEq, Repr

/-- Header of a CSI-2 packet: virtual channel; header ECC without error, corrected, uncorrectable. -/
structure CsiHdr where
  vc : BitVec 2
  ecc : Fin 3
  deriving DecidableEq, Repr

/-- The messages a gPTP port sends (R756). -/
inductive PtpMsg where
  | sync | followUp | announce | pdelayReq | pdelayResp | pdelayRespFollowUp
  deriving DecidableEq, Repr

/-- Configuration requests that act on state of the device (ch. 21). -/
inductive CfgReq where
  /-- read of the 4-byte word at an offset of configuration space -/
  | read (off : BitVec 12)
  /-- VF Enable and NumVFs of the PF's SR-IOV capability, when set (R791) -/
  | setVfs (num : BitVec 7)
  /-- MSI-X Enable and Function Mask (R801) -/
  | msix (enable mask : Bool)
  /-- Resizable BAR of the PF (log2 GiB) or of the VFs (log2 of 256 MiB) -/
  | bar4Size (log : Fin 6)
  | vfBar4Size (log : Fin 6)
  deriving DecidableEq, Repr

/-- A DBGACC access (R871): register space, or a register of a halted core. -/
inductive DbgAcc where
  | readReg (off : BitVec 26) (wide : Bool)
  | writeReg (off : BitVec 26) (wide : Bool) (data : W64)
  | readX (n : CoreN) (r : Reg)
  | readF (n : CoreN) (r : Reg)
  | readP (n : CoreN) (r : PReg)
  | readV (n : CoreN) (r : VReg) (lane : BitVec 7)
  deriving DecidableEq, Repr

/-- The commands, in the order of spec/opcode_table.json. -/
inductive Instr where
  /-- ADD (R315): Integer add of x[A] and x[B] modulo 2^64 into x[D]. -/
  | add (n : CoreN) (q : Pred) (d a b : Reg)
  /-- SUB (R315): Integer subtract of x[B] from x[A] into x[D]. -/
  | sub (n : CoreN) (q : Pred) (d a b : Reg)
  /-- AND (R315): Bitwise AND of two x registers. -/
  | and (n : CoreN) (q : Pred) (d a b : Reg)
  /-- OR (R315): Bitwise OR of two x registers. -/
  | or (n : CoreN) (q : Pred) (d a b : Reg)
  /-- XOR (R315): Bitwise XOR of two x registers. -/
  | xor (n : CoreN) (q : Pred) (d a b : Reg)
  /-- SHL (R315): Left shift of x[A] by x[B][5:0]. -/
  | shl (n : CoreN) (q : Pred) (d a b : Reg)
  /-- SHR (R315): Logical right shift of x[A] by x[B][5:0]. -/
  | shr (n : CoreN) (q : Pred) (d a b : Reg)
  /-- SRA (R315): Arithmetic right shift of x[A] by x[B][5:0]. -/
  | sra (n : CoreN) (q : Pred) (d a b : Reg)
  /-- MIN (R315): Signed minimum of two x registers. -/
  | min (n : CoreN) (q : Pred) (d a b : Reg)
  /-- MAX (R315): Signed maximum of two x registers. -/
  | max (n : CoreN) (q : Pred) (d a b : Reg)
  /-- MIN_U (R315): Unsigned minimum of two x registers. -/
  | minU (n : CoreN) (q : Pred) (d a b : Reg)
  /-- MAX_U (R315): Unsigned maximum of two x registers. -/
  | maxU (n : CoreN) (q : Pred) (d a b : Reg)
  /-- SEL (R315): Selects x[A] or x[B] into x[D] by predicate p[C]. -/
  | sel (n : CoreN) (q : Pred) (d a b : Reg) (c : PReg)
  /-- ADD_I (R315): Integer add with immediate. -/
  | addI (n : CoreN) (q : Pred) (d a : Reg) (imm : W64)
  /-- SUB_I (R315): Integer subtract of immediate. -/
  | subI (n : CoreN) (q : Pred) (d a : Reg) (imm : W64)
  /-- AND_I (R315): Bitwise AND with immediate. -/
  | andI (n : CoreN) (q : Pred) (d a : Reg) (imm : W64)
  /-- OR_I (R315): Bitwise OR with immediate. -/
  | orI (n : CoreN) (q : Pred) (d a : Reg) (imm : W64)
  /-- XOR_I (R315): Bitwise XOR with immediate. -/
  | xorI (n : CoreN) (q : Pred) (d a : Reg) (imm : W64)
  /-- SHL_I (R315): Left shift by IMM[5:0]. -/
  | shlI (n : CoreN) (q : Pred) (d a : Reg) (imm : BitVec 6)
  /-- SHR_I (R315): Logical right shift by IMM[5:0]. -/
  | shrI (n : CoreN) (q : Pred) (d a : Reg) (imm : BitVec 6)
  /-- SRA_I (R315): Arithmetic right shift by IMM[5:0]. -/
  | sraI (n : CoreN) (q : Pred) (d a : Reg) (imm : BitVec 6)
  /-- MIN_I (R315): Signed minimum with immediate. -/
  | minI (n : CoreN) (q : Pred) (d a : Reg) (imm : W64)
  /-- MAX_I (R315): Signed maximum with immediate. -/
  | maxI (n : CoreN) (q : Pred) (d a : Reg) (imm : W64)
  /-- MIN_U_I (R315): Unsigned minimum with immediate. -/
  | minUI (n : CoreN) (q : Pred) (d a : Reg) (imm : W64)
  /-- MAX_U_I (R315): Unsigned maximum with immediate. -/
  | maxUI (n : CoreN) (q : Pred) (d a : Reg) (imm : W64)
  /-- MUL_U (R317): Low 64 bits of the unsigned product on the iterative multiplier. -/
  | mulU (n : CoreN) (q : Pred) (d a b : Reg)
  /-- MUL_S (R317): Low 64 bits of the signed product on the iterative multiplier. -/
  | mulS (n : CoreN) (q : Pred) (d a b : Reg)
  /-- MULH_U (R317): High 64 bits of the unsigned 128-bit product. -/
  | mulhU (n : CoreN) (q : Pred) (d a b : Reg)
  /-- MULH_S (R317): High 64 bits of the signed 128-bit product. -/
  | mulhS (n : CoreN) (q : Pred) (d a b : Reg)
  /-- DIV_U (R318): Unsigned truncated quotient on the iterative divider, with divide-by-zero result. -/
  | divU (n : CoreN) (q : Pred) (d a b : Reg)
  /-- DIV_S (R318): Signed quotient truncated toward zero, with overflow and zero-divisor results. -/
  | divS (n : CoreN) (q : Pred) (d a b : Reg)
  /-- REM_U (R318): Unsigned remainder on the iterative divider. -/
  | remU (n : CoreN) (q : Pred) (d a b : Reg)
  /-- REM_S (R318): Signed remainder with the sign of the dividend. -/
  | remS (n : CoreN) (q : Pred) (d a b : Reg)
  /-- LD (R322): Narrow 8-byte scratchpad load through a handle into x[D]. -/
  | ld (n : CoreN) (q : Pred) (d a : Reg) (h : Handle) (imm : W64)
  /-- ST (R322): Narrow 8-byte scratchpad store of x[B] through a handle. -/
  | st (n : CoreN) (q : Pred) (a b : Reg) (h : Handle) (imm : W64)
  /-- LD_F (R322): Narrow 4-byte scratchpad load into f[D]. -/
  | ldF (n : CoreN) (q : Pred) (d a : Reg) (h : Handle) (imm : W64)
  /-- ST_F (R322): Narrow 4-byte scratchpad store of f[B], merged into its word. -/
  | stF (n : CoreN) (q : Pred) (a b : Reg) (h : Handle) (imm : W64)
  /-- FADD (R325): binary32 addition with selected rounding. -/
  | fadd (n : CoreN) (q : Pred) (d a b : Reg) (rm : Rm)
  /-- FSUB (R325): binary32 subtraction. -/
  | fsub (n : CoreN) (q : Pred) (d a b : Reg) (rm : Rm)
  /-- FMUL (R325): binary32 multiplication. -/
  | fmul (n : CoreN) (q : Pred) (d a b : Reg) (rm : Rm)
  /-- FMADD (R325): binary32 fused multiply-add with single rounding. -/
  | fmadd (n : CoreN) (q : Pred) (d a b c : Reg) (rm : Rm)
  /-- FMIN (R325): binary32 minimum, NaN if either operand is NaN. -/
  | fmin (n : CoreN) (q : Pred) (d a b : Reg)
  /-- FMAX (R325): binary32 maximum, NaN if either operand is NaN. -/
  | fmax (n : CoreN) (q : Pred) (d a b : Reg)
  /-- FABS (R327): Clears the sign bit as a bit copy. -/
  | fabs (n : CoreN) (q : Pred) (d a : Reg)
  /-- FNEG (R327): Inverts the sign bit as a bit copy. -/
  | fneg (n : CoreN) (q : Pred) (d a : Reg)
  /-- FDIV (R326): binary32 division on the shared iterative unit, 14 CCLK. -/
  | fdiv (n : CoreN) (q : Pred) (d a b : Reg) (rm : Rm)
  /-- FSQRT (R326): binary32 square root on the shared iterative unit, 16 CCLK. -/
  | fsqrt (n : CoreN) (q : Pred) (d a : Reg) (rm : Rm)
  /-- FMV_X (R327): Copies the bits of f[A] zero-extended into x[D]. -/
  | fmvX (n : CoreN) (q : Pred) (d a : Reg)
  /-- FMV_F (R327): Copies x[A][31:0] into f[D]. -/
  | fmvF (n : CoreN) (q : Pred) (d a : Reg)
  /-- FCVT_S_L (R325): Converts signed x[A] to binary32. -/
  | fcvtSL (n : CoreN) (q : Pred) (d a : Reg) (rm : Rm)
  /-- FCVT_S_LU (R325): Converts unsigned x[A] to binary32. -/
  | fcvtSLu (n : CoreN) (q : Pred) (d a : Reg) (rm : Rm)
  /-- FCVT_L_S (R328): Converts f[A] to a saturated signed integer. -/
  | fcvtLS (n : CoreN) (q : Pred) (d a : Reg) (rm : Rm)
  /-- FCVT_LU_S (R328): Converts f[A] to a saturated unsigned integer. -/
  | fcvtLuS (n : CoreN) (q : Pred) (d a : Reg) (rm : Rm)
  /-- FLI (R325): Loads IMM[31:0] into f[D]. -/
  | fli (n : CoreN) (q : Pred) (d : Reg) (imm : W32)
  /-- JMP (R329): Continues at this address plus IMM. -/
  | jmp (n : CoreN) (q : Pred) (imm : W64)
  /-- JMPR (R329): Continues at the address in x[A]. -/
  | jmpr (n : CoreN) (q : Pred) (a : Reg)
  /-- CALL (R329): Writes the return address to x[D] and continues at this address plus IMM. -/
  | call (n : CoreN) (q : Pred) (d : Reg) (imm : W64)
  /-- LOOP (R329): Decrements x[A] into x[D] and branches while non-zero. -/
  | loop (n : CoreN) (q : Pred) (d a : Reg) (imm : W64)
  /-- CMP_EQ (R332): Sets p[D] when x[A] equals x[B]. -/
  | cmpEq (n : CoreN) (q : Pred) (d : PReg) (a b : Reg)
  /-- CMP_NE (R332): Sets p[D] when x[A] differs from x[B]. -/
  | cmpNe (n : CoreN) (q : Pred) (d : PReg) (a b : Reg)
  /-- CMP_LT (R332): Signed less-than compare into p[D]. -/
  | cmpLt (n : CoreN) (q : Pred) (d : PReg) (a b : Reg)
  /-- CMP_GE (R332): Signed greater-or-equal compare into p[D]. -/
  | cmpGe (n : CoreN) (q : Pred) (d : PReg) (a b : Reg)
  /-- CMP_LTU (R332): Unsigned less-than compare into p[D]. -/
  | cmpLtu (n : CoreN) (q : Pred) (d : PReg) (a b : Reg)
  /-- CMP_GEU (R332): Unsigned greater-or-equal compare into p[D]. -/
  | cmpGeu (n : CoreN) (q : Pred) (d : PReg) (a b : Reg)
  /-- CMP_EQ_I (R332): Equality compare with immediate into p[D]. -/
  | cmpEqI (n : CoreN) (q : Pred) (d : PReg) (a : Reg) (imm : W64)
  /-- CMP_NE_I (R332): Inequality compare with immediate. -/
  | cmpNeI (n : CoreN) (q : Pred) (d : PReg) (a : Reg) (imm : W64)
  /-- CMP_LT_I (R332): Signed less-than compare with immediate. -/
  | cmpLtI (n : CoreN) (q : Pred) (d : PReg) (a : Reg) (imm : W64)
  /-- CMP_GE_I (R332): Signed greater-or-equal compare with immediate. -/
  | cmpGeI (n : CoreN) (q : Pred) (d : PReg) (a : Reg) (imm : W64)
  /-- CMP_LTU_I (R332): Unsigned less-than compare with immediate. -/
  | cmpLtuI (n : CoreN) (q : Pred) (d : PReg) (a : Reg) (imm : W64)
  /-- CMP_GEU_I (R332): Unsigned greater-or-equal compare with immediate. -/
  | cmpGeuI (n : CoreN) (q : Pred) (d : PReg) (a : Reg) (imm : W64)
  /-- FCMP_EQ (R333): binary32 equality compare, 0 on NaN. -/
  | fcmpEq (n : CoreN) (q : Pred) (d : PReg) (a b : Reg)
  /-- FCMP_LT (R333): binary32 less-than compare, 0 on NaN. -/
  | fcmpLt (n : CoreN) (q : Pred) (d : PReg) (a b : Reg)
  /-- FCMP_LE (R333): binary32 less-or-equal compare, 0 on NaN. -/
  | fcmpLe (n : CoreN) (q : Pred) (d : PReg) (a b : Reg)
  /-- FCMP_UN (R332): Sets p[D] when either operand is NaN. -/
  | fcmpUn (n : CoreN) (q : Pred) (d : PReg) (a b : Reg)
  /-- PAND (R332): Predicate AND. -/
  | pand (n : CoreN) (q : Pred) (d a b : PReg)
  /-- POR (R332): Predicate OR. -/
  | por (n : CoreN) (q : Pred) (d a b : PReg)
  /-- PXOR (R332): Predicate XOR. -/
  | pxor (n : CoreN) (q : Pred) (d a b : PReg)
  /-- PANDN (R332): Predicate AND NOT. -/
  | pandn (n : CoreN) (q : Pred) (d a b : PReg)
  /-- SR_READ (R334): Reads a special register zero-extended into x[D]. -/
  | srRead (n : CoreN) (q : Pred) (d : Reg) (sr : Fin 9)
  /-- SR_WRITE (R336): Writes fpc once no binary32, vector or matrix work is in flight, reseeding the generators. -/
  | srWrite (n : CoreN) (q : Pred) (a : Reg)
  /-- SYNC_ADD (R337): Core ADD of x[B][31:0] to a sync counter after earlier writes are visible. -/
  | syncAdd (n : CoreN) (q : Pred) (a b : Reg)
  /-- SYNC_ADD_I (R337): Core ADD of IMM[31:0] to a sync counter. -/
  | syncAddI (n : CoreN) (q : Pred) (a : Reg) (imm : W32)
  /-- SYNC_SET (R337): Core SET of a sync counter to x[B]. -/
  | syncSet (n : CoreN) (q : Pred) (a b : Reg)
  /-- SYNC_READ (R338): Core READ of a sync counter into x[D], pending until returned. -/
  | syncRead (n : CoreN) (q : Pred) (d a : Reg)
  /-- SYNC_WAIT (R339): Core WAIT_GE that holds issue until the counter reaches x[B]. -/
  | syncWait (n : CoreN) (q : Pred) (a b : Reg)
  /-- PHASE (R340): Phase marker loading the phase budget and token claim. -/
  | phase (n : CoreN) (q : Pred) (ph : BitVec 6)
  /-- EMBER_SAVE (R344): Starts saving an ember from lead-core rows with residual and iteration count. -/
  | emberSave (n : CoreN) (q : Pred) (a b : Reg) (h : Handle) (rows : Fin 9) (first : W16)
  /-- JOB_DONE (R348): Issues the end of the job with status, result rows, residual and count, holding later issue. -/
  | jobDone (n : CoreN) (q : Pred) (a b c : Reg) (h : Handle) (rows : Fin 9) (status : Byte) (first : W16)
  /-- SPEC_ACCEPT (R353): Pre-solve acceptance test that commits or squashes once the measurement is delivered. -/
  | specAccept (n : CoreN) (q : Pred) (a : PReg)
  /-- VLD (R367): Loads part of a scratchpad row into a v register, converted to binary32. -/
  | vld (n : CoreN) (q : Pred) (d : VReg) (a : Reg) (h : Handle) (fmt : Fmt) (b32 : Bool) (part : BitVec 2) (imm : W16)
  /-- VST (R369): Stores a v register into part of a row with conversion and scale selection. -/
  | vst (n : CoreN) (q : Pred) (a : Reg) (b : VReg) (c : Reg) (h : Handle) (fmt : Fmt) (b32 : Bool) (part : BitVec 2) (expl : Bool) (imm : W16)
  /-- VADD (R366): Lane-wise vector addition. -/
  | vadd (n : CoreN) (q : Pred) (d a b : VReg) (rm : Rm)
  /-- VSUB (R366): Lane-wise vector subtraction. -/
  | vsub (n : CoreN) (q : Pred) (d a b : VReg) (rm : Rm)
  /-- VMUL (R366): Lane-wise vector multiplication. -/
  | vmul (n : CoreN) (q : Pred) (d a b : VReg) (rm : Rm)
  /-- VFMA (R366): Lane-wise fused multiply-add. -/
  | vfma (n : CoreN) (q : Pred) (d a b c : VReg) (rm : Rm)
  /-- VMIN (R366): Lane-wise minimum. -/
  | vmin (n : CoreN) (q : Pred) (d a b : VReg)
  /-- VMAX (R366): Lane-wise maximum. -/
  | vmax (n : CoreN) (q : Pred) (d a b : VReg)
  /-- VABS (R943): Clears each lane's sign bit as a bit copy. -/
  | vabs (n : CoreN) (q : Pred) (d a : VReg)
  /-- VNEG (R943): Inverts each lane's sign bit as a bit copy. -/
  | vneg (n : CoreN) (q : Pred) (d a : VReg)
  /-- VBCAST (R943): Broadcasts f[A] to every lane. -/
  | vbcast (n : CoreN) (q : Pred) (d : VReg) (a : Reg)
  /-- VEXT (R943): Extracts one lane into an f register. -/
  | vext (n : CoreN) (q : Pred) (d : Reg) (a : VReg) (b : Reg)
  /-- VINS (R943): Inserts f[A] into one lane. -/
  | vins (n : CoreN) (q : Pred) (d : VReg) (a b : Reg)
  /-- VSUM (R370): Sums 128 lanes in a fixed binary tree. -/
  | vsum (n : CoreN) (q : Pred) (d : Reg) (a : VReg) (rm : Rm)
  /-- VDOT (R370): Sums 128 rounded lane products in a fixed tree. -/
  | vdot (n : CoreN) (q : Pred) (d : Reg) (a b : VReg) (rm : Rm)
  /-- VAMAX (R366): Largest lane magnitude into an f register. -/
  | vamax (n : CoreN) (q : Pred) (d : Reg) (a : VReg)
  /-- VRF_TSUM (R372): Two-part sum keeping the exact rounding error. -/
  | vrfTsum (n : CoreN) (q : Pred) (d c a b : VReg)
  /-- VRF_RES (R371): Residual formed exactly and rounded once. -/
  | vrfRes (n : CoreN) (q : Pred) (d a b c : VReg)
  /-- VRF_EXP (R373): Exponent of the largest lane magnitude into x[D]. -/
  | vrfExp (n : CoreN) (q : Pred) (d : Reg) (a : VReg)
  /-- MXE_MMA (R374): Matrix engine product of two tiles into a PSP tile. -/
  | mxeMma (n : CoreN) (q : Pred) (t0 t1 : Tile) (h2 : Handle) (o2 : BitVec 10) (xa xb xc : Reg) (acc : Bool) (kch : BitVec 4) (qq : BitVec 2)
  /-- DMA_RD (R381): Queues a local DMA read from memory into a scratchpad tile. -/
  | dmaRd (n : CoreN) (q : Pred) (t : Tile) (f1 : Fmt) (b1 : Bool) (xa xb xc : Reg) (async : Bool)
  /-- DMA_WR (R381): Queues a local DMA write from a scratchpad tile into memory. -/
  | dmaWr (n : CoreN) (q : Pred) (t : Tile) (f1 : Fmt) (b1 : Bool) (xa xb xc : Reg)
  /-- RW_PUT (R389): Queues a remote write of rows to another core of the set. -/
  | rwPut (n : CoreN) (q : Pred) (h0 : Handle) (o0 n0 : BitVec 10) (h1 : Handle) (o1 : BitVec 10) (xb xc : Reg)
  /-- RING_PUSH (R393): Appends rows to a ring on a core once the ring has room. -/
  | ringPush (n : CoreN) (q : Pred) (h0 : Handle) (o0 n0 : BitVec 10) (h1 : Handle) (xb : Reg)
  /-- RING_HEAD (R396): Reads the ring head row. -/
  | ringHead (n : CoreN) (q : Pred) (d : Reg) (h : Handle)
  /-- RING_AVAIL (R396): Reads the ring occupancy. -/
  | ringAvail (n : CoreN) (q : Pred) (d : Reg) (h : Handle)
  /-- RING_POP (R466): Advances the ring head count. -/
  | ringPop (n : CoreN) (q : Pred) (a : Reg) (h : Handle)
  /-- ARR_WAIT (R398): Holds issue until an arrival counter reaches x[B]. -/
  | arrWait (n : CoreN) (q : Pred) (b : Reg) (i : BitVec 6)
  /-- ARR_READ (R398): Reads an arrival counter into x[D]. -/
  | arrRead (n : CoreN) (q : Pred) (d : Reg) (i : BitVec 6)
  /-- ARR_SET (R399): Sets an arrival counter. -/
  | arrSet (n : CoreN) (q : Pred) (b : Reg) (i : BitVec 6)
  /-- XFER_FENCE (R400): Holds issue until every earlier transfer of the core is complete. -/
  | xferFence (n : CoreN) (q : Pred)
  /-- RCOUNT (R402): Counts row elements satisfying a compare mode against a threshold. -/
  | rcount (n : CoreN) (q : Pred) (d a b : Reg) (h : Handle) (rows : BitVec 5) (mode : BitVec 3) (fmt : Fmt) (imm : W16)
  /-- ILLEGAL_INSTRUCTION (R16): Committed-path decode of an undefined or reserved encoding raises syndrome 0x01. -/
  | illegalInstruction (n : CoreN) (w : BitVec 128)
  /-- CODE_END_FAULT (R950): Execution continuing past the last instruction raises syndrome 0x02. -/
  | codeEndFault (n : CoreN)
  /-- LONG_OP_COMPLETE (R291): A long operation finishes and clears its destination's pending bit. -/
  | longOpComplete (n : CoreN)
  /-- MXE_COMPLETE (R379): The matrix engine writes its result rows and releases its ranges. -/
  | mxeComplete (n : CoreN)
  /-- VST_WRITE_DONE (R942): A vst row write completes and its write range is released. -/
  | vstWriteDone (n : CoreN)
  /-- SCRATCHPAD_GRANT (R449): A bank grants a waiting port request under the cyclic and narrow-reservation order. -/
  | scratchpadGrant (n : CoreN) (mem : Fin 3) (bank : Fin 8) (upset : Bool) (row : BitVec 10) (word : Fin 64) (ue : Bool)
  /-- EMBER_REPLACE (R345): The ember save reaches its replacement cycle and becomes the recorded ember. -/
  | emberReplace (n : CoreN)
  /-- JOB_DONE_RETIRE (R349): job.done retires once earlier operations complete, ending the job. -/
  | jobDoneRetire (n : CoreN)
  /-- SYNC_READ_RETURN (R338): A core sync READ returns its value. -/
  | syncReadReturn (n : CoreN)
  /-- WAIT_GE_RESUME (R256): A satisfied core WAIT_GE resumes issue. -/
  | waitGeResume (n : CoreN)
  /-- ARR_WAIT_RESUME (R398): arr.wait resumes when its arrival counter reaches its value. -/
  | arrWaitResume (n : CoreN)
  /-- XFER_FENCE_RESUME (R400): xfer.fence resumes once earlier transfers are complete. -/
  | xferFenceResume (n : CoreN)
  /-- RING_PUSH_RESUME (R394): A waiting ring.push issues once the ring has enough free rows. -/
  | ringPushResume (n : CoreN)
  /-- HEAD_COUNT_REPORT (R394): A destination reports a changed ring head count to the pushing core. -/
  | headCountReport (n : CoreN) (h : Handle)
  /-- DMA_TRANSFER_COMPLETE (R388): A queued DMA transfer completes and the next queued one starts. -/
  | dmaTransferComplete (n : CoreN) (host : List Byte)
  /-- DMA_ROW_RESIDENT (R386): An ASYNC dma.rd row becomes resident and increments its arrival counter. -/
  | dmaRowResident (n : CoreN) (host : List Byte)
  /-- REMOTE_TRANSFER_COMPLETE (R397): A queued rw.put or ring.push transfer completes. -/
  | remoteTransferComplete (n : CoreN)
  /-- REMOTE_ROW_ARRIVE (R391): An arriving remote or ring row is written whole and counts on the arrival counter. -/
  | remoteRowArrive (n : CoreN) (fab : Fabric)
  /-- DMA_ERROR_RESPONSE (R308): An error response to a DMA access raises asynchronous syndrome 0x20. -/
  | dmaErrorResponse (n : CoreN)
  /-- ICACHE_MISS_FILL (R296): A demand instruction-cache miss line fill completes. -/
  | icacheMissFill (n : CoreN) (line : BitVec 26)
  /-- BRANCH_MISPREDICT (R330): A mispredicted branch resolves and redirects the committed path after 6 CCLK. -/
  | branchMispredict (n : CoreN) (fetched : Fin 6)
  /-- RUN_AHEAD_ENTER (R531): A wait held for 16 CCLK enters run-ahead with a shadow register copy. -/
  | runAheadEnter (n : CoreN)
  /-- RUN_AHEAD_ISSUE (R532): Run-ahead issues a following instruction into the shadow state. -/
  | runAheadIssue (n : CoreN) (w : BitVec 128)
  /-- LEASE_GRANT (R518): The Bellows arbiter grants a lease that becomes part of the core's cover. -/
  | leaseGrant (n : CoreN)
  /-- LEASE_RETURN (R515): A core returns a lease no longer needed. -/
  | leaseReturn (n : CoreN)
  /-- LEASE_JOIN_FLOAT (R518): A returned lease joins the float. -/
  | leaseJoinFloat (k : BitVec 6)
  /-- RESERVATION_RAISE (R507): A raise of a tenant's reservation level is granted from the float. -/
  | reservationRaise (n : CoreN)
  /-- BUDGET_EXPIRE (R60): A budget counter reaches 0, setting BUDGOVR and OVERRUN. -/
  | budgetExpire (n : CoreN)
  /-- EMBER_LATE_CHECK (R62): No ember by start plus TTFE sets EMBERLATE and EMBER_LATE. -/
  | emberLateCheck (j : JobId)
  /-- COMPARATOR_FIRE (R29): The deadline comparator fires and quenches the job. -/
  | comparatorFire (j : JobId)
  /-- RESULT_ROWS_WRITE (R46): After program writes drain, ember or result rows are written to the result pointer. -/
  | resultRowsWrite (j : JobId) (emberUe : Option (Fin 8))
  /-- COMPLETION_WRITE (R47): The completion entry is written once result writes are visible. -/
  | completionWrite (j : JobId)
  /-- MSIX_UNMASK (R801): Unmasking a vector with its pending bit set sends one message. -/
  | msixUnmask (f : Fn) (v : BitVec 11)
  /-- DOORBELL_SQ_TAIL (R215): A doorbell write sets a queue's submission tail. -/
  | doorbellSqTail (f : Fn) (off : BitVec 12) (data : W64)
  /-- DOORBELL_CQ_HEAD (R841): A doorbell write sets the completion head, releasing ring credits. -/
  | doorbellCqHead (f : Fn) (off : BitVec 12) (data : W64)
  /-- DOORBELL_OVFACK (R241): A doorbell write releases overflow slots. -/
  | doorbellOvfack (f : Fn) (off : BitVec 12) (data : W64)
  /-- STOKER_FETCH (R222): The Stoker fetches an entry, reserves its sink and admits or rejects it. -/
  | stokerFetch (u : QId) (entry : Over (BitVec 512))
  /-- STOKER_WATCH_REPORT (R269): A job's wait counter is reached and the job becomes READY. -/
  | stokerWatchReport (j : JobId)
  /-- DEADLINE_WAITING_EXPIRE (R270): A WAITING job reaches its deadline and ends EXPIRED_IN_QUEUE 0x01. -/
  | deadlineWaitingExpire (j : JobId)
  /-- DEADLINE_READY_EXPIRE (R231): A READY job reaches its deadline and ends EXPIRED_IN_QUEUE 0x02. -/
  | deadlineReadyExpire (j : JobId)
  /-- DISPATCH (R230): A core set is assigned to the highest-ranked READY job and the dispatch check runs. -/
  | dispatch (t : Fn)
  /-- OUTBOUND_SPACE_FREE (R840): Freed outbound buffer space goes to waiting completions, then dispatch reservations. -/
  | outboundSpaceFree (bytes : BitVec 18)
  /-- JOB_LOAD_COMPLETE (R234): All parameter and kindling rows are resident and the entry point starts. -/
  | jobLoadComplete (j : JobId) (host : List Byte)
  /-- FETCH_READ_FAILURE (R806): A failed host read of a submission or parameters stops fetch or faults the job. -/
  | fetchReadFailure (r : HostReader)
  /-- MEASUREMENT_DELIVER (R544): The measurement counter reaches MEASVAL for a pre-solving job. -/
  | measurementDeliver (j : JobId)
  /-- VERSIONED_FLIP (R472): After commit, each core flips SEL by SHD once no versioned write is in flight. -/
  | versionedFlip (n : CoreN)
  /-- RESTART_START (R551): After reload the restarted run issues its first instruction. -/
  | restartStart (j : JobId)
  /-- POISON_CONSUME (R850): A poisoned flit reaches a core and ends the job FAULT. -/
  | poisonConsume (n : CoreN) (k : PoisonUse) (flit : BitVec 58)
  /-- POISONED_WRITE_STORE (R852): A poisoned write flit is stored at a memory port and may fault its writer. -/
  | poisonedWriteStore (flit : Fin 40 × BitVec 29) (writer : Option JobId)
  /-- SCRATCHPAD_UE (R484): An uncorrectable scratchpad read ends the job FAULT and is recorded. -/
  | scratchpadUe (n : CoreN) (mem : Fin 3) (at_ : BitVec 10 × Fin 64) (spec : Bool)
  /-- FENCE_HW_TRIGGER (R584): A hardware fault trigger starts the fence sequence without the Kiln. -/
  | fenceHwTrigger (n : CoreN) (late : Bool)
  /-- PROMOTION (R592): After a fence the lowest BANKED core is tested, ashed and allocated. -/
  | promotion (pass store : Bool)
  /-- DRAIN_SWITCH_APPLY (R609): Once affected jobs are done, the change is applied, the epoch advances and dispatch resumes. -/
  | drainSwitchApply (ok store : Bool)
  /-- QUEUE_DESTROY_DONE (R172): A queue being destroyed completes when its last running job completes. -/
  | queueDestroyDone (u : QId)
  /-- ROW_REMAP_APPLY (R489): After the core's job completes, a spare row is assigned, zeroed and persisted. -/
  | rowRemapApply (n : CoreN) (store : Bool)
  /-- CORE_MAINT_TEST_END (R601): A self-test ends and the core returns to its prior state or is fenced. -/
  | coreMaintTestEnd (n : CoreN) (pass : Bool) (sig : W32) (store : Bool)
  /-- MBX_RING (R144): A RING submits the request in MBX_REQ if the mailbox is free. -/
  | mbxRing (f : Fn)
  /-- MBX_ACK (R148): An ACK releases the response area. -/
  | mbxAck (f : Fn)
  /-- ASYNC_RESPONSE_PLACE (R160): A waiting asynchronous response is placed in the free response area. -/
  | asyncResponsePlace (f : Fn)
  /-- DEFERRED_COMMAND_FINISH (R162): A deferred command's operation finishes and its asynchronous response is queued. -/
  | deferredCommandFinish (f : Fn) (opcode : W16) (seq : W32) (data : List Byte) (ok : Bool)
  /-- GET_INFO (R168): Returns device, tenant and firmware information. -/
  | getInfo (f : Fn)
  /-- CREATE_QUEUE (R203): Creates a job queue from a descriptor and allocates its overflow area. -/
  | createQueue (f : Fn)
  /-- DESTROY_QUEUE (R172): Stops fetch, expires admitted jobs and destroys the queue after running jobs end. -/
  | destroyQueue (f : Fn)
  /-- LOAD_PROGRAM (R561): Checks and loads a program image. -/
  | loadProgram (f : Fn)
  /-- BIND_PROGRAM (R505): Binds a program to a queue with a core count and reservation. -/
  | bindProgram (f : Fn)
  /-- UNBIND (R174): Unbinds a queue so fetch stops. -/
  | unbind (f : Fn)
  /-- TENANT_CREATE (R624): Creates a tenant with quotas, windows and cores moved from tenant 0. -/
  | tenantCreate (f : Fn)
  /-- TENANT_DESTROY (R625): Destroys a tenant and returns its resources to tenant 0. -/
  | tenantDestroy (f : Fn) (store : Bool)
  /-- SYNC_ALLOC_ALLOC (R176): Allocates contiguous sync blocks zeroed and disarmed. -/
  | syncAllocAlloc (f : Fn)
  /-- SYNC_ALLOC_FREE (R272): Frees sync blocks not in use. -/
  | syncAllocFree (f : Fn)
  /-- SET_CONFIG_TIME_SRC (R181): Sets the device time discipline source. -/
  | setConfigTimeSrc (f : Fn) (store : Bool)
  /-- SET_CONFIG_BACKSTEP_EN (R181): Sets whether negative time steps are permitted. -/
  | setConfigBackstepEn (f : Fn) (store : Bool)
  /-- SET_CONFIG_PERST_SCOPE (R181): Sets the scope of PERST_N for the next assertion. -/
  | setConfigPerstScope (f : Fn) (store : Bool)
  /-- SET_CONFIG_BELLOWS_POOL (R521): Drain-switch change of the half-token pool size. -/
  | setConfigBellowsPool (f : Fn)
  /-- SET_CONFIG_ACTIVE_CORES (R582): Drain-switch change of the ACTIVE core target. -/
  | setConfigActiveCores (f : Fn)
  /-- SET_CONFIG_MEM_ECC (R828): Drain-switch change switching inline ECC on or off. -/
  | setConfigMemEcc (f : Fn)
  /-- SET_CONFIG_QUEUE_PARAMS (R204): Shadow-swaps a queue descriptor at the queue's next job boundary. -/
  | setConfigQueueParams (f : Fn)
  /-- CONFIG_EPOCH_STATUS (R167): Returns the epoch and drain-switch progress. -/
  | configEpochStatus (f : Fn)
  /-- FENCE_CORE (R586): Fences a core by command, deferring until promotion completes. -/
  | fenceCore (f : Fn) (store : Bool)
  /-- CORE_MAINT (R599): Takes a test lease and runs a self-test on a BANKED or FENCED core. -/
  | coreMaint (f : Fn)
  /-- CORE_RETURN_ACTIVE (R603): Returns a core to ACTIVE through a drain-switch change. -/
  | coreReturnActive (f : Fn)
  /-- CORE_RETURN_BANKED (R603): Returns a FENCED core to BANKED. -/
  | coreReturnBanked (f : Fn) (store : Bool)
  /-- ROW_REMAP (R489): Requests remapping of a scratchpad row to a spare. -/
  | rowRemap (f : Fn)
  /-- SLE_CONFIG_LOOP (R669): Shadows the SLE loop block. -/
  | sleConfigLoop (f : Fn)
  /-- SLE_CONFIG_LINKS (R671): Shadows the SLE counter and DRAM links. -/
  | sleConfigLinks (f : Fn)
  /-- SLE_CONFIG_INMAP (R669): Shadows SLE input map entries. -/
  | sleConfigInmap (f : Fn)
  /-- SLE_CONFIG_OUTMAP (R669): Shadows SLE output map entries. -/
  | sleConfigOutmap (f : Fn)
  /-- SLE_CONFIG_LIMITS (R669): Shadows SLE output limits. -/
  | sleConfigLimits (f : Fn)
  /-- SLE_CONFIG_INTEG (R669): Shadows SLE integrator entries. -/
  | sleConfigInteg (f : Fn)
  /-- SLE_CONFIG_GAIN (R669): Shadows one SLE gain matrix row. -/
  | sleConfigGain (f : Fn)
  /-- SLE_CONFIG_APPLY (R670): Checks the SLE shadow set and installs it at the next boundary. -/
  | sleConfigApply (f : Fn) (store : Bool)
  /-- SLE_START (R709): Starts the SLE or refuses, catching a moving axis if permitted. -/
  | sleStart (f : Fn)
  /-- SLE_STOP (R640): Moves the SLE to STOPPED. -/
  | sleStop (f : Fn)
  /-- HOME_AXIS (R699): Starts a homing run of an axis. -/
  | homeAxis (f : Fn)
  /-- CAM_CONFIG_INPUT (R747): Shadows the camera input block. -/
  | camConfigInput (f : Fn)
  /-- CAM_CONFIG_NR (R747): Shadows the camera noise-reduction block. -/
  | camConfigNr (f : Fn)
  /-- CAM_CONFIG_COLOUR (R747): Shadows the camera colour block. -/
  | camConfigColour (f : Fn)
  /-- CAM_CONFIG_TABLES (R747): Shadows the camera table addresses. -/
  | camConfigTables (f : Fn)
  /-- CAM_CONFIG_OUTPUT (R747): Shadows the camera output block. -/
  | camConfigOutput (f : Fn)
  /-- CAM_CONFIG_LINKS (R251): Shadows the camera frame counter link. -/
  | camConfigLinks (f : Fn)
  /-- CAM_CONFIG_APPLY (R742): Checks the camera shadow set, copies tables and makes it pending. -/
  | camConfigApply (f : Fn)
  /-- ETH_CONFIG_PORT (R782): Shadows an Ethernet port block. -/
  | ethConfigPort (f : Fn)
  /-- ETH_CONFIG_IP (R782): Shadows an Ethernet IP block. -/
  | ethConfigIp (f : Fn)
  /-- ETH_CONFIG_QOS (R782): Shadows an Ethernet QoS block. -/
  | ethConfigQos (f : Fn)
  /-- ETH_CONFIG_GCL (R782): Shadows a gate control list header. -/
  | ethConfigGcl (f : Fn)
  /-- ETH_CONFIG_GCLENT (R782): Shadows gate control list entries. -/
  | ethConfigGclent (f : Fn)
  /-- ETH_CONFIG_CYCIN (R782): Shadows a cyclic input stream block. -/
  | ethConfigCycin (f : Fn)
  /-- ETH_CONFIG_CYCOUT (R782): Shadows a cyclic output stream block. -/
  | ethConfigCycout (f : Fn)
  /-- ETH_CONFIG_APPLY (R784): Checks and installs the Ethernet shadow set. -/
  | ethConfigApply (f : Fn) (store : Bool)
  /-- PST_SESSION_OPEN (R768): Opens a PST session mapping to queues. -/
  | pstSessionOpen (f : Fn) (store : Bool)
  /-- PST_SESSION_CLOSE (R770): Closes a PST session. -/
  | pstSessionClose (f : Fn) (store : Bool)
  /-- PST_SESSION_QUERY (R770): Returns a PST session's state and counts. -/
  | pstSessionQuery (f : Fn)
  /-- FW_STAGE (R188): Stages a firmware image into the other slot and validates it. -/
  | fwStage (f : Fn)
  /-- FW_ACTIVATE (R191): Sets the staged slot preferred on trial and restarts the Kiln or warm-resets. -/
  | fwActivate (f : Fn)
  /-- FW_COMMIT (R195): Clears TRIAL and optionally raises the OTP SVN. -/
  | fwCommit (f : Fn) (store : Bool)
  /-- FW_ROLLBACK (R196): Returns to the other slot or erases a staged image. -/
  | fwRollback (f : Fn) (store : Bool)
  /-- CFGSTORE_WRITE (R178): Writes a new configuration store bank with a record replaced, added or removed. -/
  | cfgstoreWrite (f : Fn)
  /-- CFGSTORE_READ (R179): Returns part of a record from the bank in use. -/
  | cfgstoreRead (f : Fn)
  /-- DEBUG_UNLOCK_CHALLENGE (R180): Returns a 32-byte nonce. -/
  | debugUnlockChallenge (f : Fn) (nonce : BitVec 256)
  /-- DEBUG_UNLOCK_ANSWER (R863): Verifies the signed answer and enters debug mode. -/
  | debugUnlockAnswer (f : Fn)
  /-- FWREADY_SET (R192): Firmware finishes starting and sets FWREADY on every mailbox. -/
  | fwreadySet
  /-- SYN_CTR_WRITE (R248): Host SET of a sync counter. -/
  | synCtrWrite (f : Fn) (c : CtrId) (narrow : Bool) (data : W64)
  /-- SYN_CTR_LOW_READ (R275): A 32-bit low-half counter read latches the high half for the same function. -/
  | synCtrLowRead (f : Fn) (c : CtrId)
  /-- SYN_ADD_WRITE (R248): Host ADD of DELTA to a sync counter. -/
  | synAddWrite (f : Fn) (c : CtrId) (delta : W32)
  /-- SYN_ARM_CTL_WRITE (R261): Arms an arm slot and evaluates it at once, or refuses the arming. -/
  | synArmCtlWrite (f : Fn) (a : SlotId) (data : W32)
  /-- COUNTER_APPLY (R252): The sync block applies operations on a counter in source order and evaluates watches. -/
  | counterApply (c : CtrId) (srcs : BitVec 24)
  /-- ARM_SLOT_FIRE (R262): A satisfied armed slot fires, performs its action and advances THRESH. -/
  | armSlotFire (a : SlotId)
  /-- ARM_RELEASE_TAIL (R267): A RELEASE fire advances its queue's submission tail or is discarded. -/
  | armReleaseTail (a : SlotId)
  /-- ARM_IRQ_MESSAGE (R268): An IRQ fire issues its MSI-X message, merging pending fires. -/
  | armIrqMessage (a : SlotId)
  /-- SYNC_COUNTER_UE (R848): An uncorrectable sync counter error marks the counter BAD. -/
  | syncCounterUe (c : CtrId)
  /-- GLB_TIMESTEP_WRITE (R109): A write of GLB_TIMESTEP makes or holds a pending time step. -/
  | glbTimestepWrite (kiln : Bool) (part : Part) (data : W64)
  /-- GLB_TIMEADJ_WRITE (R108): A write of the rate adjustment, clamped at ±500 ppm. -/
  | glbTimeadjWrite (kiln : Bool) (data : W32)
  /-- GLB_TIME_LOW_READ (R107): A 32-bit low-half read latches the high half in a per-function shadow. -/
  | glbTimeLowRead (f : Fn)
  /-- STK_VTIME_LOW_READ (R816): A 32-bit low-half read of STK_VTIME latches the high half. -/
  | stkVtimeLowRead (f : Fn)
  /-- TCLK_TICK (R101): Device time advances by the fractional accumulator or applies a pending step. -/
  | tclkTick
  /-- GLB_RSTCTL_WRITE (R113): Writing the key 0xC0DE starts a warm reset. -/
  | glbRstctlWrite (kiln : Bool) (data : W32)
  /-- BLW_POOL_WRITE (R945): A Kiln write of SIZE and LEASECAP with reserved-value handling. -/
  | blwPoolWrite (data : W32)
  /-- BLW_PEAK_READ (R946): Reading PEAK restarts it from the following cycle's INUSE. -/
  | blwPeakRead (f : Fn)
  /-- ERR_LOGPTR_TAIL_WRITE (R949): Writing TAIL sets the unread record count and ends the full state. -/
  | errLogptrTailWrite (tail : Byte)
  /-- REGISTER_WRITE (R11): A write to a register without a row of its own under the field access codes. -/
  | registerWrite (w : Agent) (off : BitVec 26) (wide : Bool) (data : W64)
  /-- DEVICE_FATAL_ERROR (R855): A device-fatal error makes outputs safe, stops dispatch and records ERR_FATAL. -/
  | deviceFatalError (unit : Fin 4)
  /-- FATAL_RESET_TIMER (R856): 10 ms after a fatal error the Kiln warm-resets unless FATALHOLD is set. -/
  | fatalResetTimer
  /-- KILN_SRAM_UE (R847): An uncorrectable Kiln SRAM error causes a Kiln restart. -/
  | kilnSramUe (addr : W32)
  /-- KILN_WATCHDOG_EXPIRE (R862): The watchdog expires 2 s after the last refresh and warm-resets the device. -/
  | kilnWatchdogExpire
  /-- POWER_ON_RESET (R113): Power-on causes a cold reset. -/
  | powerOnReset
  /-- RST_N_ASSERT (R915): RST_N driven low for long enough causes a cold reset. -/
  | rstNAssert (ns : Nat)
  /-- RST_N_RISE (R115): RST_N rises, straps are sampled and the reset sequence starts. -/
  | rstNRise (boot : BitVec 2) (refsel : Bool)
  /-- PLL_LOCK (R115): The root PLL locks and the domains are released, starting the Kiln. -/
  | pllLock (big : Bool) (trainFail : W16) (testFail : BitVec 18) (flash : Bool)
  /-- WARM_RESET (R113): A warm reset resets blocks while device time keeps counting. -/
  | warmReset (cause : WarmCause)
  /-- PERST_N_ASSERT (R814): PERST_N resets the endpoint only or the device according to PERST_SCOPE. -/
  | perstNAssert
  /-- CONFIG_REQUEST (R116): A configuration request is answered with retry status until FWREADY. -/
  | configRequest (f : Fn) (r : CfgReq)
  /-- FLR (R810): Function-level reset of a VF detaches its jobs and destroys its queues. -/
  | flr (f : Fn)
  /-- FLR_COMPLETE (R811): The FLR completes within 10 ms and the VF answers again. -/
  | flrComplete (f : Fn)
  /-- PF_FLR (R812): FLR of the PF applies to tenant 0 and clears VF Enable. -/
  | pfFlr
  /-- VF_ENABLE_CLEAR (R813): Clearing VF Enable or lowering NumVFs resets every removed VF. -/
  | vfEnableClear (en : Bool) (num : BitVec 7)
  /-- PCIE_LINK_DOWN (R815): While the data link is down, host writes are discarded and reads fail. -/
  | pcieLinkDown
  /-- BAR4_WRITE (R799): A host BAR4 write reaches device DRAM or is discarded. -/
  | bar4Write (f : Fn) (off : BitVec 35) (data : List Byte) (ep : Bool)
  /-- BAR4_READ (R799): A host BAR4 read returns DRAM data, EP data or Unsupported Request. -/
  | bar4Read (f : Fn) (off : BitVec 35) (len : Over (BitVec 13))
  /-- HOST_READ_ERROR (R806): A host-space read times out or fails and gets an error response. -/
  | hostReadError (r : HostReader) (ep : Bool)
  /-- THERMAL_READING (R931): Every 1 ms the Kiln reads Tj and adjusts the thermal cap. -/
  | thermalReading (tj : Int)
  /-- THERMAL_TRIP (R933): The hardware comparator trips: outputs safe, THERMTRIP_N, record, warm reset. -/
  | thermalTrip (sensor : Byte) (tj : Int)
  /-- THERMAL_HOLD_RELEASE (R934): After a trip the Kiln leaves reset once Tj has been low for 1 s. -/
  | thermalHoldRelease
  /-- DRAM_REFRESH (R830): A channel refreshes one bank. -/
  | dramRefresh (ch : Fin 16)
  /-- PATROL_SCRUB (R827): The patrol scrub reads data flits in maintenance slots. -/
  | patrolScrub (r : ScrubResult)
  /-- DRAM_READ_UE (R826): A DRAM read finding an uncorrectable error delivers the flit poisoned. -/
  | dramReadUe (e : FlitError)
  /-- PORT_SLOT_HOLD (R833): A full port write buffer holds the port's slots for the next frame. -/
  | portSlotHold (port : Fin 8)
  /-- SAMPLE_BOUNDARY (R646): An SLE sample boundary latches inputs, starts ADCs and swaps a pending trajectory. -/
  | sampleBoundary
  /-- INPUT_CHECK (R666): At INWIN the SLE checks inputs and computes or declares a miss. -/
  | inputCheck (late : Bool)
  /-- OUTPUT_INSTANT (R667): At OUTINST the SLE presents new or held outputs and may enter SAFE. -/
  | outputInstant
  /-- SAMPCTR_ADD (R665): The SLE adds 1 to SAMPCTR after the snapshot is visible. -/
  | sampctrAdd
  /-- COMMIT_SEEN (R655): The SLE sees CMTCTR change and starts loading a trajectory slot. -/
  | commitSeen
  /-- TRAJECTORY_LOAD_DONE (R658): A trajectory load ends and ACKCTR counts its commits. -/
  | trajectoryLoadDone (fab : Fabric)
  /-- QUADRATURE_EDGE (R679): A quadrature input change updates COUNT or sets ENCERR. -/
  | quadratureEdge (c : Axis) (a b : Bool)
  /-- INDEX_PULSE (R703): An ENC_Z edge captures COUNT for index latching. -/
  | indexPulse (c : Axis)
  /-- SSI_FRAME_START (R682): An SSI frame starts at a boundary or every 65,536 LCLK. -/
  | ssiFrameStart (c : Axis)
  /-- SSI_FRAME_END (R682): An SSI frame ends and COUNT takes its value. -/
  | ssiFrameEnd (c : Axis) (bits : W32)
  /-- ADC_RESULT (R684): ADC conversions complete and results are present. -/
  | adcResult (port : Fin 4) (l0 l1 l2 l3 : W16)
  /-- DAC_SEND (R686): DAC ports send mapped outputs at OUTINST + 4. -/
  | dacSend
  /-- PWM_PERIOD_START (R687): All PWM periods start and new duties take effect. -/
  | pwmPeriodStart
  /-- STEP_PULSE (R688): A step accumulator carry emits one STEP pulse. -/
  | stepPulse (a : Axis)
  /-- INPUT_RAW_EDGE (R692): A first raw edge captures the axis COUNT pending debounce. -/
  | inputRawEdge (i : Fin 25) (level : Bool)
  /-- DEBOUNCE_ACCEPT (R691): The debounce time elapses and the input's accepted level changes. -/
  | debounceAccept (i : Fin 25)
  /-- FRAME_START (R743): An accepted FS opens a frame and activates any pending camera set. -/
  | frameStart (p : Port) (h : CsiHdr) (num : W16)
  /-- FRAME_END (R718): An accepted FE closes the open frame. -/
  | frameEnd (p : Port) (h : CsiHdr) (num : Over W16)
  /-- CSI_LONG_PACKET (R715): A long packet is processed as a line or discarded. -/
  | csiLongPacket (p : Port) (h : CsiHdr) (dt : BitVec 6) (crcOk overrun : Bool) (pixels : List W16)
  /-- DESCRIPTOR_WRITE (R739): After frame outputs are visible the descriptor is written and FRAMECTR added. -/
  | descriptorWrite (p : Port)
  /-- ETH_FRAME_RECEIVE (R750): A received Ethernet frame is classified to its path. -/
  | ethFrameReceive (p : Port) (fcsOk : Bool) (bytes : List Byte)
  /-- PST_REQUEST_PROCESS (R772): The receive path checks a SOLVE_REQUEST and submits it or sends a NOTICE. -/
  | pstRequestProcess (p : Port)
  /-- SOLVE_RESPONSE_SENT (R777): A response's last byte is sent and its slot and completion entry are released. -/
  | solveResponseSent (p : Port)
  /-- ETH_LINK_DOWN (R778): A port link goes down and queued responses are discarded. -/
  | ethLinkDown (p : Port)
  /-- SAFE_CYCLIC_FRAME (R764): In STOPPED or SAFE each output stream sends a SAFE frame every 1 ms. -/
  | safeCyclicFrame
  /-- GATE_EVENT (R758): A gate control list event changes queue gates. -/
  | gateEvent (p : Port)
  /-- GCL_CONFIG_CHANGE (R758): A new gate control list becomes operational at its ConfigChangeTime. -/
  | gclConfigChange (p : Port)
  /-- TRANSMIT_SELECT (R759): A port starts the next frame from the highest open queue that fits. -/
  | transmitSelect (p : Port)
  /-- PTP_SYNC_PROCESS (R754): The Kiln servo processes a Sync and adjusts rate or re-anchors PTPOFS. -/
  | ptpSyncProcess (p : Port) (err : W64) (adj : W32)
  /-- PTP_LOCK_TIMEOUT (R755): No Sync for 3 intervals clears LOCKED. -/
  | ptpLockTimeout
  /-- PTP_MESSAGE_SEND (R756): A master port sends Sync and peer-delay messages at their intervals. -/
  | ptpMessageSend (p : Port) (kind : PtpMsg)
  /-- KILN_NEIGHBOUR_REPLY (R751): The Kiln answers ARP, neighbour solicitation or echo. -/
  | kilnNeighbourReply (p : Port)
  /-- BREAKPOINT_HALT (R866): A committed instruction at an enabled breakpoint halts its set. -/
  | breakpointHalt (n : CoreN)
  /-- DBG_RESUME (R867): RESUME completes a fault halt or resumes a breakpoint halt. -/
  | dbgResume (n : CoreN)
  /-- DBG_EXIT (R868): EXIT leaves debug mode and resumes halted sets. -/
  | dbgExit
  /-- BYPASS (R869): JTAG BYPASS instruction. -/
  | bypass (code : BitVec 6) (tdi : BitVec 64)
  /-- IDCODE (R869): JTAG IDCODE shifts out the revision's IDCODE. -/
  | idcode
  /-- SAMPLE_PRELOAD (R869): JTAG SAMPLE/PRELOAD boundary-scan instruction. -/
  | samplePreload (scan : BitVec 64)
  /-- EXTEST (R870): JTAG EXTEST, active only in reset or debug mode. -/
  | extest (scan : BitVec 64)
  /-- CLAMP (R870): JTAG CLAMP, active only in reset or debug mode. -/
  | clamp (tdi : BitVec 64)
  /-- HIGHZ (R870): JTAG HIGHZ, active only in reset or debug mode. -/
  | highz (tdi : BitVec 64)
  /-- DBGACC (R871): JTAG register access, only in debug mode. -/
  | dbgacc (r : DbgAcc)
  /-- READ_TEMPERATURE_1 (R918): SMBus read of the hottest sensor temperature. -/
  | readTemperature1
  /-- MFR_MODEL (R918): SMBus block read of the part number. -/
  | mfrModel
  /-- MFR_SERIAL (R918): SMBus block read of the device identifier. -/
  | mfrSerial
  /-- RC_FIELD_READ (R13): A register read returns its RC fields and then clears them, such as STK_REJCNT, SYN_ACCERR, SLE_MISSCNT or ERR_LOGPTR.LOST. -/
  | rcFieldRead (w : Agent) (off : BitVec 26) (wide : Bool)
  /-- PCIE_LINK_UP (R815): The PCIe data link comes up, DLUP and DLCHG are set, and host-space traffic resumes. -/
  | pcieLinkUp (speed : BitVec 4) (width : BitVec 4)
  /-- ETH_LINK_UP (R784): An Ethernet port's link comes up, setting LINK and LINKCHG. -/
  | ethLinkUp (p : Port)
  /-- PERST_N_DEASSERT (R116): PERST_N is released, and configuration requests get retry status until FWREADY. -/
  | perstNDeassert
  /-- POWER_LOSS (R896): A supply falls below its minimum: the 3.3 V outputs are held at their reset levels, inputs read low and device state is lost. -/
  | powerLoss (io : Bool)
  /-- DRAM_TEMPERATURE_CHANGE (R830): The DRAM reports a temperature crossing 85 °C, changing MEM_STAT.HOT and the refresh interval. -/
  | dramTemperatureChange (hot : Bool)
  /-- CAPTURE_DISCARD (R692): The raw input stays at the accepted level for DEB µs and the pending position capture is discarded. -/
  | captureDiscard (i : Fin 25)
  /-- PREEMPTION_VERIFY_SUCCESS (R760): Frame preemption verification with the link partner succeeds and preemption becomes active. -/
  | preemptionVerifySuccess (p : Port)
  /-- TAP_RESET (R920): TRST_N low resets the JTAG TAP asynchronously. -/
  | tapReset
  /-- CORE_VID_CHANGE (R910): The firmware steps the CORE_VID code by one, at most once per 1 ms, as the on-die delay monitors require. -/
  | coreVidChange (up : Bool)
  deriving DecidableEq, Repr

end Sys2Proof
end

