-- ==== Sys2Proof/Decode.lean ====
section
/-!
DEFINITION. Decode.lean: the command that a word of spec/opcode_table.json spells. No row of the table gives its command
bits, so no word spells one. The instruction words of the solver cores (Table 7-3) are read in Machine/CoreDecode.lean.
-/
namespace Sys2Proof

/-- The command that the `nbits` bits of `w` spell by the table: none of its rows has bits. -/
def decodeTableWord (_nbits _w : Nat) : Option Instr := none

end Sys2Proof
end

