-- ==== Sys2Proof/Machine/Map.lean ====
section
/-!
DEFINITION. Machine/Map.lean: sparse tables. A table is a list of (key, value) pairs in ONE canonical form: keys
strictly rising, and no entry equal to the default, which is what an unlisted key reads as. `Memory` is the table of
bytes (pairs of `Host.Cell`).
-/
namespace Sys2Proof.Machine

/-- A sparse table from natural-number keys to `α`. -/
abbrev SMap (α : Type) := List (Nat × α)

/-- Byte memory: a table of bytes. -/
abbrev Memory := List Host.Cell

/-- The value at key `k`; `d` where the key is not listed. -/
def SMap.get {α : Type} (d : α) : SMap α → Nat → α
  | [], _ => d
  | (a, v) :: m, k => if a = k then v else if k < a then d else SMap.get d m k

/-- The table from its first key above `k` on. In a table of the canonical form, whose first key is above `k`, all of it. -/
def SMap.above {α : Type} (k : Nat) (m : SMap α) : SMap α := m.dropWhile (fun e => decide (e.1 ≤ k))

/-- Put an entry in its place before the keys above `k` of `m`, unless it is the default. -/
def SMap.put {α : Type} [DecidableEq α] (d : α) (k : Nat) (v : α) (m : SMap α) : SMap α :=
  if v = d then SMap.above k m else (k, v) :: m

/-- The table with key `k` set to `v`, kept in the canonical form for default `d`. -/
def SMap.set {α : Type} [DecidableEq α] (d : α) : SMap α → Nat → α → SMap α
  | [], k, v => SMap.put d k v []
  | (a, w) :: m, k, v =>
    if k < a then SMap.put d k v ((a, w) :: m)
    else if a = k then SMap.put d k v m
    else (a, w) :: SMap.set d m k v

/-- The table with key `k` changed by `f`. -/
def SMap.upd {α : Type} [DecidableEq α] (d : α) (m : SMap α) (k : Nat) (f : α → α) : SMap α :=
  SMap.set d m k (f (SMap.get d m k))

/-- The canonical form: keys strictly rising, no entry equal to the default. -/
def SMap.wf {α : Type} [DecidableEq α] (d : α) : SMap α → Bool
  | [] => true
  | [(_, v)] => decide (v ≠ d)
  | (a, v) :: (b, w) :: m => decide (a < b) && decide (v ≠ d) && SMap.wf d ((b, w) :: m)

/-- The table with every listed value changed by `f`. -/
def SMap.mapV {α : Type} [DecidableEq α] (d : α) (f : Nat → α → α) : SMap α → SMap α
  | [] => []
  | (a, v) :: m => SMap.put d a (f a v) (SMap.mapV d f m)

/-- The lowest key from `k` on that is not listed. -/
def SMap.firstFree {α : Type} : SMap α → Nat → Nat
  | [], k => k
  | (a, _) :: m, k => if a < k then SMap.firstFree m k else if a = k then SMap.firstFree m (k + 1) else k

/-- Keep the entries whose key and value pass `p`. -/
def SMap.keep {α : Type} (p : Nat → α → Bool) : SMap α → SMap α
  | [] => []
  | (a, v) :: m => if p a v then (a, v) :: SMap.keep p m else SMap.above a (SMap.keep p m)

/-- One byte of a memory whose unlisted bytes read as `d`. -/
def Memory.read (d : Byte) (m : Memory) (a : Nat) : Byte := SMap.get d m a

/-- The memory with the byte at `a` set. -/
def Memory.write (d : Byte) (m : Memory) (a : Nat) (b : Byte) : Memory := SMap.set d m a b

/-- The canonical form of a memory whose unlisted bytes read as `d`. -/
def Memory.wf (d : Byte) (m : Memory) : Bool := SMap.wf d m

/-- `n` bytes from address `a` upward. -/
def Memory.readN (d : Byte) (m : Memory) (a : Nat) : Nat → List Byte
  | 0 => []
  | n + 1 => Memory.read d m a :: Memory.readN d m (a + 1) n

/-- Write the bytes from address `a` upward. -/
def Memory.writeL (d : Byte) (m : Memory) (a : Nat) : List Byte → Memory
  | [] => m
  | b :: bs => Memory.writeL d (Memory.write d m a b) (a + 1) bs

/-- Forget every byte from `a` up to but not including `a + n` (it then reads as the default). -/
def Memory.clear (m : Memory) (a n : Nat) : Memory :=
  SMap.keep (fun k _ => !(decide (a ≤ k) && decide (k < a + n))) m

end Sys2Proof.Machine
end

