-- ==== Sys2Proof/Machine/Bits.lean ====
section
/-!
DEFINITION. Machine/Bits.lean: bit fields of natural numbers and of byte lists. Bit ranges are [msb:lsb] (R9), multi-byte fields are
little-endian (R9).
-/
namespace Sys2Proof.Machine

/-- Field of `w` bits of `n` that starts at bit `lo`. -/
def bits (n lo w : Nat) : Nat := (n >>> lo) % 2 ^ w

/-- Bit `i` of `n`. -/
def bit1 (n i : Nat) : Bool := n.testBit i

/-- A truth value as a bit. -/
def b2n (b : Bool) : Nat := if b then 1 else 0

/-- The field value `v` of `w` bits placed at bit `lo`. -/
def place (v lo w : Nat) : Nat := (v % 2 ^ w) <<< lo

/-- A natural number in little-endian bytes. -/
def toBytes (v : Nat) : Nat → List Byte
  | 0 => []
  | n + 1 => BitVec.ofNat 8 v :: toBytes (v / 256) n

/-- The natural number that little-endian bytes spell. -/
def ofBytes : List Byte → Nat
  | [] => 0
  | b :: bs => b.toNat + 256 * ofBytes bs

/-- The natural number that big-endian bytes spell (network fields, ch. 20). -/
def ofBytesBE (bs : List Byte) : Nat := ofBytes bs.reverse

/-- A natural number in big-endian bytes. -/
def toBytesBE (v n : Nat) : List Byte := (toBytes v n).reverse

/-- The little-endian field of `n` bytes at offset `ofs` of a byte list; missing bytes read 0. -/
def fieldAt (bs : List Byte) (ofs n : Nat) : Nat := ofBytes ((bs.drop ofs).take n)

/-- A byte list cut or filled with zeros to `n` bytes. -/
def fitTo (n : Nat) (bs : List Byte) : List Byte := (bs ++ List.replicate (n - bs.length) 0).take n

/-- `w`-bit two's complement value of `n`. -/
def sx (n w : Nat) : Int := (BitVec.ofNat w n).toInt

/-- A counter of `w` bits that stays at its largest value. -/
def satInc {w : Nat} (v : BitVec w) : BitVec w := if v = BitVec.allOnes w then v else v + 1

/-- A counter of `w` bits that stays at its largest value, advanced by `n`. -/
def satAdd {w : Nat} (v : BitVec w) (n : Nat) : BitVec w :=
  if v.toNat + n < 2 ^ w then v + BitVec.ofNat w n else BitVec.allOnes w

/-- The entry of a list, or a default. -/
def nth {α : Type} (d : α) (l : List α) (i : Nat) : α := l.getD i d

/-- Cut a list into pieces of `k`; `n` bounds their number. -/
def chunks {α : Type} (k : Nat) : Nat → List α → List (List α)
  | 0, _ => []
  | _ + 1, [] => []
  | n + 1, l => l.take k :: chunks k n (l.drop k)

/-- `[lo, lo+1, …]`, `n` of them. -/
def span (lo n : Nat) : List Nat := (List.range n).map (lo + ·)

/-- The smallest element that passes, or none. -/
def firstWith (p : Nat → Bool) (n : Nat) : Option Nat := (List.range n).find? p

/-- The table of the values of `f` below `n`, in the canonical form for default `d`. -/
def tabulate {α : Type} [DecidableEq α] (d : α) (n : Nat) (f : Nat → α) : SMap α :=
  (List.range n).filterMap (fun i => let v := f i; if v = d then none else some (i, v))

/-- Round up a quotient. -/
def cdiv (a b : Nat) : Nat := (a + b - 1) / b

end Sys2Proof.Machine
end

