-- ==== Sys2Proof/Machine/Float.lean ====
section
/-!
DEFINITION. Machine/Float.lean: the number formats and their arithmetic (10). A value is exact until it is rounded once onto the
grid of its destination (R412).
-/
namespace Sys2Proof.Machine

/-- A value as the arithmetic sees it: NaN, an infinity, or (−1)^neg × m × 2^e. A zero keeps its sign. -/
inductive FVal where
  | nan
  | inf (neg : Bool)
  | fin (neg : Bool) (m : Nat) (e : Int)
  deriving DecidableEq, Repr

/-- A rounding mode: nearest even, toward zero, stochastic with the generator's low 8 bits (R412, R414). -/
inductive RMode where
  | rne | rtz
  | stoch (q : Nat)
  deriving DecidableEq, Repr

/-- Whether a magnitude `lo` + rem/2^k moves up to `lo` + 1 (R412, R414). -/
def roundsUp (mode : RMode) (lo rem k : Nat) : Bool :=
  match mode with
  | .rne => decide (2 ^ k < 2 * rem) || (decide (2 * rem = 2 ^ k) && lo % 2 == 1)
  | .rtz => false
  | .stoch q => decide (q * 2 ^ k < rem * 256)

/-- Exponent of the last place of the grid at m × 2^e, for `p` significant bits and the subnormal spacing 2^emin (R412). -/
def gridExp (p : Nat) (emin : Int) (m : Nat) (e : Int) : Int :=
  let t := e + (Nat.log2 m + 1 : Nat) - (p : Int)
  if t < emin then emin else t

/-- m × 2^e rounded once onto the grid: magnitude and exponent of the result. -/
def roundGrid (p : Nat) (emin : Int) (mode : RMode) (m : Nat) (e : Int) : Nat × Int :=
  if m = 0 then (0, emin) else
  let t := gridExp p emin m e
  if t ≤ e then (m * 2 ^ (e - t).toNat, t) else
  let k := (t - e).toNat
  let lo := m / 2 ^ k
  (lo + b2n (roundsUp mode lo (m % 2 ^ k) k), t)

/-- Whether m × 2^e lies strictly between two grid points. -/
def inexact (p : Nat) (emin : Int) (m : Nat) (e : Int) : Bool :=
  let t := gridExp p emin m e
  m != 0 && decide (e < t) && m % 2 ^ (t - e).toNat != 0

/-- Decode an IEEE 754 binary pattern with `mb` mantissa and `eb` exponent bits (R405). -/
def decodeIeee (eb mb w : Nat) : FVal :=
  let neg := bit1 w (eb + mb)
  let ex := bits w mb eb
  let m := bits w 0 mb
  let bias : Int := 2 ^ (eb - 1) - 1
  if ex = 2 ^ eb - 1 then (if m = 0 then .inf neg else .nan)
  else if ex = 0 then .fin neg m (1 - bias - mb)
  else .fin neg (2 ^ mb + m) (ex - bias - mb)

/-- Encode a value in an IEEE 754 format: rounding (R412), overflow (R427), canonical NaN (R419). -/
def encodeIeee (eb mb : Nat) (mode : RMode) (v : FVal) : Nat :=
  let sgn (neg : Bool) := b2n neg <<< (eb + mb)
  let bias : Int := 2 ^ (eb - 1) - 1
  let infP := (2 ^ eb - 1) <<< mb
  match v with
  | .nan => infP + 2 ^ (mb - 1)
  | .inf neg => sgn neg + infP
  | .fin neg m e =>
    let r := roundGrid (mb + 1) (1 - bias - mb) mode m e
    if r.1 = 0 then sgn neg else
    let top : Int := r.2 + (Nat.log2 r.1 : Nat)
    if bias < top then (if mode = .rtz then sgn neg + (infP - 1) else sgn neg + infP)
    else if top < 1 - bias then sgn neg + r.1 * 2 ^ (r.2 - (1 - bias - mb)).toNat
    else
      let l := Nat.log2 r.1
      let m' := if l ≤ mb then r.1 * 2 ^ (mb - l) else r.1 / 2 ^ (l - mb)
      sgn neg + ((top + bias).toNat <<< mb) + m' % 2 ^ mb

/-- binary16 pattern to value. -/
def decode16 (w : W16) : FVal := decodeIeee 5 10 w.toNat

/-- binary32 pattern to value; SUBN = 1 reads a subnormal as a zero of its sign (R429). -/
def decode32 (subn : Bool) (w : W32) : FVal :=
  match decodeIeee 8 23 w.toNat with
  | .fin neg m e => if subn && decide (m < 2 ^ 23) then .fin neg 0 e else .fin neg m e
  | v => v

/-- Value to binary16. -/
def encode16 (mode : RMode) (v : FVal) : W16 := BitVec.ofNat 16 (encodeIeee 5 10 mode v)

/-- Value to binary32; SUBN = 1 flushes a result below 2^−126 to a zero of its sign (R429). -/
def encode32 (subn : Bool) (mode : RMode) (v : FVal) : W32 :=
  let w := encodeIeee 8 23 mode v
  if subn && bits w 23 8 = 0 then BitVec.ofNat 32 (w / 2 ^ 31 * 2 ^ 31) else BitVec.ofNat 32 w

/-- CF8 code to value (R403). -/
def decodeCf8 (c : Byte) : FVal :=
  let n := c.toNat
  if n = 0x80 then .nan
  else if bits n 3 4 = 0 then .fin (bit1 n 7) (bits n 0 3) (-9)
  else .fin (bit1 n 7) (8 + bits n 0 3) ((bits n 3 4 : Nat) - 10)

/-- A value times 2^k, exactly. -/
def FVal.scale (k : Int) : FVal → FVal
  | .fin neg m e => .fin neg m (e + k)
  | v => v

/-- Value to CF8 at scale byte `s` (R425, R426, R434, R422); `ovf` is FPC.OVF. -/
def encodeCf8 (ovf : Bool) (s : Nat) (mode : RMode) (v : FVal) : Byte :=
  let sat (neg : Bool) : Byte := if ovf then 0x80 else if neg then 0xFF else 0x7F
  match v with
  | .nan => 0x80
  | .inf neg => sat neg
  | .fin neg m e =>
    let r := roundGrid 4 (-9) mode m (e - ((s : Int) - 127))
    if r.1 = 0 then 0 else
    let top : Int := r.2 + (Nat.log2 r.1 : Nat)
    let l := Nat.log2 r.1
    if top < -6 then BitVec.ofNat 8 (b2n neg <<< 7 + r.1)
    else
      let m3 := (if l ≤ 3 then r.1 * 2 ^ (3 - l) else r.1 / 2 ^ (l - 3)) % 8
      if 8 < top then sat neg
      else BitVec.ofNat 8 (b2n neg <<< 7 + ((top + 7).toNat <<< 3) + m3)

/-- Block-scaled CF8 element: code, scale byte (R407, R408). -/
def decodeScaled (c : Byte) (s : Byte) : FVal :=
  if s = 0xFF then .nan else (decodeCf8 c).scale ((s.toNat : Int) - 127)

/-- An integer as a value. A zero is +0. -/
def FVal.ofInt (i : Int) : FVal := .fin (decide (i < 0)) i.natAbs 0

/-- The signed magnitude of (neg, m, e) in units of 2^t, for t ≤ e. -/
def signedAt (t : Int) (neg : Bool) (m : Nat) (e : Int) : Int :=
  let u : Int := m * 2 ^ (e - t).toNat
  if neg then -u else u

/-- The sign changed. -/
def FVal.neg : FVal → FVal
  | .nan => .nan
  | .inf n => .inf (!n)
  | .fin n m e => .fin (!n) m e

/-- The magnitude. -/
def FVal.abs : FVal → FVal
  | .nan => .nan
  | .inf _ => .inf false
  | .fin _ m e => .fin false m e

/-- Exact sum (R421). -/
def FVal.add : FVal → FVal → FVal
  | .nan, _ => .nan
  | _, .nan => .nan
  | .inf a, .inf b => if a = b then .inf a else .nan
  | .inf a, _ => .inf a
  | _, .inf b => .inf b
  | .fin a m e, .fin b n f =>
    let t := if e < f then e else f
    let s := signedAt t a m e + signedAt t b n f
    if s = 0 then .fin (decide (m = 0) && decide (n = 0) && a && b) 0 t
    else .fin (decide (s < 0)) s.natAbs t

/-- Exact product (R421). -/
def FVal.mul : FVal → FVal → FVal
  | .nan, _ => .nan
  | _, .nan => .nan
  | .inf a, .inf b => .inf (a != b)
  | .inf a, .fin b n _ => if n = 0 then .nan else .inf (a != b)
  | .fin a m _, .inf b => if m = 0 then .nan else .inf (a != b)
  | .fin a m e, .fin b n f => .fin (a != b) (m * n) (e + f)

/-- Quotient with a sticky last bit: exact enough for one rounding to 24 bits (IEEE 754, R421). -/
def FVal.div : FVal → FVal → FVal
  | .nan, _ => .nan
  | _, .nan => .nan
  | .inf _, .inf _ => .nan
  | .inf a, .fin b _ _ => .inf (a != b)
  | .fin a _ _, .inf b => .fin (a != b) 0 0
  | .fin a m e, .fin b n f =>
    if n = 0 then (if m = 0 then .nan else .inf (a != b))
    else
      let w := m * 2 ^ 64
      .fin (a != b) (2 * (w / n) + b2n (w % n != 0)) (e - f - 65)

/-- Largest r with r × r ≤ n, from bit `k` − 1 down. -/
def isqrt (n : Nat) : Nat → Nat → Nat
  | 0, r => r
  | k + 1, r => if (r + 2 ^ k) * (r + 2 ^ k) ≤ n then isqrt n k (r + 2 ^ k) else isqrt n k r

/-- Square root with a sticky last bit (IEEE 754). -/
def FVal.sqrt : FVal → FVal
  | .nan => .nan
  | .inf neg => if neg then .nan else .inf false
  | .fin neg m e =>
    if m = 0 then .fin neg 0 0
    else if neg then .nan
    else
      let par : Nat := (e % 2).toNat
      let w := m * 2 ^ (64 + par)
      let r := isqrt w 48 0
      .fin false (2 * r + b2n (r * r != w)) ((e - 64 - par) / 2 - 1)

/-- a < b, for values that are not NaN; `z` orders −0 below +0 (R420). -/
def FVal.ltZ (z : Bool) : FVal → FVal → Bool
  | .inf a, .inf b => a && !b
  | .inf a, .fin _ _ _ => a
  | .fin _ _ _, .inf b => !b
  | .fin a m e, .fin b n f =>
    let t := if e < f then e else f
    let x := signedAt t a m e
    let y := signedAt t b n f
    decide (x < y) || (z && m == 0 && n == 0 && a && !b)
  | _, _ => false

/-- a < b. -/
def FVal.lt (a b : FVal) : Bool := FVal.ltZ false a b

/-- NaN test. -/
def FVal.isNan (v : FVal) : Bool := decide (v = .nan)

/-- a = b as numbers: false on NaN; +0 equals −0. -/
def FVal.eqv (a b : FVal) : Bool := !a.isNan && !b.isNan && !FVal.lt a b && !FVal.lt b a

/-- a ≤ b: false on NaN. -/
def FVal.le (a b : FVal) : Bool := !a.isNan && !b.isNan && !FVal.lt b a

/-- Minimum (R420). -/
def FVal.min (a b : FVal) : FVal :=
  if a.isNan || b.isNan then .nan else if FVal.ltZ true b a then b else a

/-- Maximum (R420). -/
def FVal.max (a b : FVal) : FVal :=
  if a.isNan || b.isNan then .nan else if FVal.ltZ true a b then b else a

/-- A finite value rounded to an integer. -/
def roundInt (mode : RMode) (neg : Bool) (m : Nat) (e : Int) : Int :=
  let u : Nat :=
    if 0 ≤ e then m * 2 ^ e.toNat
    else
      let k := (-e).toNat
      m / 2 ^ k + b2n (roundsUp mode (m / 2 ^ k) (m % 2 ^ k) k)
  if neg then -(u : Int) else u

/-- A value rounded to an integer in [lo, hi]: 0 for NaN, saturated outside (R328). -/
def FVal.toIntSat (mode : RMode) (lo hi : Int) : FVal → Int
  | .nan => 0
  | .inf neg => if neg then lo else hi
  | .fin neg m e =>
    let i := roundInt mode neg m e
    if i < lo then lo else if hi < i then hi else i

/-! ### fpc (10) -/

/-- Arithmetic rounding RM. -/
def fpcRm (fpc : W32) : RMode := if bits fpc.toNat 0 2 = 1 then .rtz else .rne
/-- Conversion rounding CRM. -/
def fpcCrm (fpc : W32) : Nat := bits fpc.toNat 2 2
/-- CF8 overflow OVF. -/
def fpcOvf (fpc : W32) : Bool := bit1 fpc.toNat 4
/-- Subnormal mode SUBN. -/
def fpcSubn (fpc : W32) : Bool := bit1 fpc.toNat 5
/-- SEED. -/
def fpcSeed (fpc : W32) : Nat := bits fpc.toNat 16 16

/-- Conversion rounding where stochastic is read as nearest (R413). -/
def fpcConv (fpc : W32) : RMode := if fpcCrm fpc = 1 then .rtz else .rne

/-- One advance of a generator (R415). -/
def genStep (g : W32) : W32 := if g.getLsbD 0 then (g >>> 1) ^^^ 0x80200003 else g >>> 1

/-- `n` advances. -/
def genSteps : Nat → W32 → W32
  | 0, g => g
  | n + 1, g => genSteps n (genStep g)

/-- GV at the start of a run (R416). -/
def seedGv (fpc : W32) (idx : Nat) : W32 := BitVec.ofNat 32 (0x80000000 ||| (fpcSeed fpc <<< 8) ||| idx)
/-- GD at the start of a run (R416). -/
def seedGd (fpc : W32) (idx : Nat) : W32 := BitVec.ofNat 32 (0x40000000 ||| (fpcSeed fpc <<< 8) ||| idx)

/-- A narrowing conversion of one element: the generator advances 8 times for each element rounded stochastically
(R414, R415), one that is exact or not finite among them (log 9), and its low 8 bits decide. -/
def convElem {α : Type} (fpc g : W32) (enc : RMode → FVal → α) (v : FVal) : α × W32 :=
  if fpcCrm fpc = 2 then
    let g' := genSteps 8 g
    (enc (.stoch (bits g'.toNat 0 8)) v, g')
  else (enc (fpcConv fpc) v, g)

/-- Convert the elements in ascending order (R418). -/
def convElems {α : Type} (fpc : W32) (enc : RMode → FVal → α) : W32 → List FVal → List α × W32
  | g, [] => ([], g)
  | g, v :: vs =>
    let r := convElem fpc g enc v
    let rs := convElems fpc enc r.2 vs
    (r.1 :: rs.1, rs.2)

/-- floor(log2 m×2^e) of the largest finite magnitude, as a magnitude; none when every one is 0 or there is none. -/
def maxMag (vs : List FVal) : Option (Nat × Int) :=
  vs.foldl (fun acc v => match v with
    | .fin _ m e =>
      if m = 0 then acc else
      match acc with
      | none => some (m, e)
      | some (m', e') => if FVal.lt (.fin false m' e') (.fin false m e) then some (m, e) else acc
    | _ => acc) none

/-- Scale selection on store (R435). -/
def pickScale (vs : List FVal) : Nat :=
  match maxMag vs with
  | none => 127
  | some (m, e) =>
    let fl : Int := e + (Nat.log2 m : Nat)
    let s := fl + 119
    let s := if FVal.lt (.fin false 480 0) (.fin false m (e + (127 - s))) then s + 1 else s
    if s < 0 then 0 else s.toNat

/-! ### binary32 operations on patterns -/

/-- Round an exact result to a binary32 pattern under `fpc` and the mode of the instruction. -/
def f32 (fpc : W32) (mode : RMode) (v : FVal) : W32 := encode32 (fpcSubn fpc) mode v

/-- Read a binary32 operand. -/
def rd32 (fpc : W32) (w : W32) : FVal := decode32 (fpcSubn fpc) w

/-- a + b. -/
def f32Add (fpc : W32) (mode : RMode) (a b : W32) : W32 := f32 fpc mode ((rd32 fpc a).add (rd32 fpc b))
/-- a − b. -/
def f32Sub (fpc : W32) (mode : RMode) (a b : W32) : W32 := f32 fpc mode ((rd32 fpc a).add (rd32 fpc b).neg)
/-- a × b. -/
def f32Mul (fpc : W32) (mode : RMode) (a b : W32) : W32 := f32 fpc mode ((rd32 fpc a).mul (rd32 fpc b))
/-- a × b + c, rounded once. -/
def f32Fma (fpc : W32) (mode : RMode) (a b c : W32) : W32 :=
  f32 fpc mode (((rd32 fpc a).mul (rd32 fpc b)).add (rd32 fpc c))
/-- a / b. -/
def f32Div (fpc : W32) (mode : RMode) (a b : W32) : W32 := f32 fpc mode ((rd32 fpc a).div (rd32 fpc b))
/-- Square root. -/
def f32Sqrt (fpc : W32) (mode : RMode) (a : W32) : W32 := f32 fpc mode (rd32 fpc a).sqrt
/-- Minimum. -/
def f32Min (fpc : W32) (a b : W32) : W32 := f32 fpc .rne ((rd32 fpc a).min (rd32 fpc b))
/-- Maximum. -/
def f32Max (fpc : W32) (a b : W32) : W32 := f32 fpc .rne ((rd32 fpc a).max (rd32 fpc b))

/-- Pairwise sums of neighbours, one level of the tree of R370. -/
def treeLevel (fpc : W32) (mode : RMode) : List W32 → List W32
  | a :: b :: r => f32Add fpc mode a b :: treeLevel fpc mode r
  | l => l

/-- `n` levels of the tree. -/
def treeSum (fpc : W32) (mode : RMode) : Nat → List W32 → List W32
  | 0, l => l
  | n + 1, l => treeSum fpc mode n (treeLevel fpc mode l)

end Sys2Proof.Machine
end

