-- ==== Sys2Proof/Config.lean ====
section
/-!
DEFINITION. Config.lean: what the spec leaves open, as constants without a body (log 1): a claim holds whatever they are. Where a
value is drawn afresh each time it is applied to the counter `Dev.free`.
-/
namespace Sys2Proof

/-- What a byte of device DRAM reads as after a warm reset: draw and address ("Undefined", Table 3-3). -/
opaque Config.dramByte : Nat → Nat → Byte

/-- Whether a low pulse on RST_N, longer than 1 µs and shorter than 10 µs, resets the device: draw, length in ns (R915). -/
opaque Config.pulseResets : Nat → Nat → Bool

/-- The requester ID that the host's enumeration gives a function: function (R854). -/
opaque Config.requesterId : Nat → BitVec 16

/-- Whether the flash on the board has SFDP tables (R916). -/
opaque Config.sfdp : Bool

/-- Delay between the start-of-frame delimiter and the point at which a port takes an uncorrected timestamp, in 1/65,536 tick: SPEED, FEC, on
sending (R752: fixed for a speed and FEC setting). -/
opaque Config.stampDelay : Nat → Nat → Bool → Nat

/-- Whether COUNT rises when A leads B, with DIRINV = 0 (ch. 18 states the direction no further). -/
opaque Config.countsUp : Bool

/-- A value that the spec does not state: draw. -/
opaque Config.freeWord : Nat → W64

end Sys2Proof
end

