-- ==== Sys2Proof/Machine/StateCore.lean ====
section
/-!
DEFINITION. Machine/StateCore.lean: the state of one solver core. A field's docstring reads
`meaning | width | rule and file | value at reset`.
-/
namespace Sys2Proof.Machine

/-- The state of a physical core (Table 15-1). -/
inductive CoreState where
  | active | banked | maint | fenced
  deriving DecidableEq, Repr

/-- A register of a core (Table 7-1), by file and number. -/
inductive RegId where
  | x (i : Nat) | f (i : Nat) | p (i : Nat) | v (i : Nat)
  deriving DecidableEq, Repr

/-- A register write that an operation makes when it finishes (R293). -/
inductive RegWrite where
  | x (i : Nat) (w : W64)
  | f (i : Nat) (w : W32)
  | p (i : Nat) (b : Bool)
  | v (i : Nat) (lanes : List W32)
  deriving DecidableEq, Repr

/-- A range held in the range scoreboard (R454, R456): the rows still to be touched and the range's highest row. -/
structure Hold where
  /-- write range (true) or read range -/
  wr : Bool
  /-- memory code (Table 11-1) -/
  mem : Nat
  /-- highest logical row of the range -/
  hi : Nat
  /-- logical rows not yet read or written -/
  left : List Nat
  deriving DecidableEq, Repr

/-- The matrix product in flight (R374-R380). -/
structure MmaOp where
  /-- element format (0x0, 0x1, 0x2 or 0x3) of tile 0 -/
  fmtA : Nat
  /-- element format of tile 1 -/
  fmtB : Nat
  /-- block size of the scales -/
  bs : Nat
  /-- reduction length K -/
  k : Nat
  /-- Q, the placement offset of R377 -/
  q : Nat
  /-- ACC -/
  acc : Bool
  /-- data rows of A, in order: (memory, row, scale row, place in the group) -/
  aRows : List (Nat × Nat × Option Nat × Nat)
  /-- data rows of B, in order -/
  bRows : List (Nat × Nat × Option Nat × Nat)
  /-- logical PSP rows of the result, in order -/
  cRows : List Nat
  /-- logical PSP rows that the accumulator starts from, in order; none where ACC = 0 (R471, R944) -/
  cSrc : List Nat
  /-- fpc in force at issue -/
  fpc : W32
  deriving DecidableEq, Repr

/-- What an in-flight operation does when its unit goes on. -/
inductive OpKind where
  /-- the results are formed and wait for their latency (R291) -/
  | regs (ws : List RegWrite)
  /-- ld, ld.f before its grant: destination, memory, row, byte in the row, 8 or 4 bytes -/
  | load (d mem row off size : Nat)
  /-- st, st.f before its grant -/
  | store (mem row off : Nat) (bytes : List Byte)
  /-- vld before its last grant: destination, memory, row, scale row, place in the group, format, block size, part; `got` once the
  data row is read and the scale row is not -/
  | vload (d mem row : Nat) (srow : Option Nat) (grp fmt bs part : Nat) (fpc : W32) (got : Option (List Byte))
  /-- vst: memory, row, byte in the row, data; scale row, byte in it, scale bytes; what has been written: 0 nothing, 1 the data,
  2 everything -/
  | vstore (mem row off : Nat) (bytes : List Byte) (srow soff : Nat) (scales : List Byte) (stage : Nat)
  /-- rcount: destination, mode, format, threshold, memory, rows still to read, count so far -/
  | count (d mode fmt : Nat) (thr : W32) (fpc : W32) (mem : Nat) (rows : List Nat) (n : Nat)
  /-- mxe.mma: rows still to read, rows read; how many rows the accumulator starts from have been read, and those rows; how many
  result rows have been written -/
  | mma (m : MmaOp) (todo : List (Nat × Nat)) (got : List ((Nat × Nat) × List Byte)) (cgot : List (List Byte)) (wdone : Nat)
  /-- ember.save: rows still to copy, bytes copied, residual, count -/
  | ember (todo : List (Nat × Nat)) (got : List Byte) (resid : W32) (iter : W64)
  /-- sync.read: destination and counter -/
  | syncRead (d ctr : Nat)
  deriving DecidableEq, Repr

/-- The unit that an in-flight operation occupies (R292, R326, R363). -/
inductive OpUnit where
  | mul | div | fdiv | vu | mxe | narrow | vmem | rcount | ember | scalar | sync
  deriving DecidableEq, Repr

/-- An operation in flight. -/
structure Op where
  /-- issue order on its core -/
  seq : Nat
  unit : OpUnit
  kind : OpKind
  /-- registers it keeps pending (R290) -/
  dst : List RegId
  /-- CCLK until its latency is over -/
  left : Nat
  /-- CCLK of occupancy or of the active interval still to run (R363, R380, R498) -/
  occ : Nat
  /-- half-tokens claimed while `occ` runs (Table 12-1) -/
  cost : Nat
  /-- half-tokens of the instruction lease that is returned when its active interval ends (R514) -/
  ilease : Nat
  /-- binary32, vector or matrix work (R336) -/
  fp : Bool
  /-- writes a versioned row (R472) -/
  versioned : Bool
  holds : List Hold
  deriving DecidableEq, Repr

/-- A local DMA transfer queued on a core (R381-R388). -/
structure Dma where
  /-- memory to scratchpad (dma.rd) or scratchpad to memory -/
  rd : Bool
  /-- counts on an arrival counter and holds no write range (R386) -/
  async : Bool
  /-- scratchpad memory code -/
  mem : Nat
  /-- scratchpad format and memory format (Table 9-2) -/
  f0 : Nat
  f1 : Nat
  /-- block size of the scratchpad tile -/
  bs : Nat
  /-- rows in order: (logical row, scale row, place in the group) -/
  rows : List (Nat × Option Nat × Nat)
  /-- rows already moved -/
  moved : Nat
  /-- dma.wr: the data row read whose scale row is not yet read (R441) -/
  data : Option (List Byte)
  /-- internal memory address and stride -/
  addr : Nat
  stride : Nat
  /-- bytes of memory per row -/
  rowLen : Nat
  /-- arrival counter named by the handle -/
  actr : Option Nat
  fpc : W32
  /-- reseed of GD due before this transfer (R417) -/
  reseed : Option W32
  versioned : Bool
  holds : List Hold
  deriving DecidableEq, Repr

/-- A remote transfer queued on a core: rw.put or ring.push (R389-R397). -/
structure Remote where
  ring : Bool
  /-- source memory and the rows still to read and send, in order -/
  mem : Nat
  rows : List Nat
  /-- rows read and on their way, in order (R944) -/
  sent : List (List Byte)
  /-- destination `coreidx`, handle and next handle row -/
  dst : Nat
  handle : Nat
  row : Nat
  holds : List Hold
  deriving DecidableEq, Repr

/-- A row that has arrived at a core and is not yet written (R391, R392). -/
structure Inbound where
  /-- FCLK cycle in which it arrived, and `coreidx` of its source -/
  fclk : Nat
  src : Nat
  ring : Bool
  /-- destination handle and handle row -/
  handle : Nat
  row : Nat
  bytes : List Byte
  deriving DecidableEq, Repr

/-- A wait that holds issue of a core. -/
inductive Wait where
  | none
  /-- WAIT_GE on a counter (R339); `sat` once the sync block has satisfied the wake arm -/
  | sync (ctr : Nat) (thr : W64) (sat : Bool)
  /-- arr.wait (R398); `sat` once the counter has reached its value -/
  | arr (ctr : Nat) (thr : W32) (sat : Bool)
  /-- xfer.fence (R400) -/
  | fence
  /-- ring.push held for room (R394), and since when it has been registered with the detector -/
  | ring (t : Remote) (need : Nat)
  /-- job.done before its retire (R348): status, register fields A, B, C, handle, rows, first, the range of its result rows -/
  | done (status a b c handle rows first : Nat) (holds : List Hold)
  deriving DecidableEq, Repr

/-- The shadow state of a run-ahead window (R532, R534). -/
structure RunAhead where
  x : SMap W64
  f : SMap W32
  p : SMap Bool
  /-- registers whose shadow value is invalid -/
  bad : List RegId
  pc : W64
  issued : Nat
  fills : Nat
  hints : Nat
  stopped : Bool
  /-- scratchpad rows (memory, row) that an instruction of the window would write: what they hold is invalid -/
  dirty : List (Nat × Nat)
  /-- an instruction of the window would write rows that are not known -/
  dirtyAll : Bool
  deriving DecidableEq, Repr

/-- The recorded ember (R34). -/
structure Ember where
  rows : Nat
  resid : W32
  iter : Nat
  time : W64
  deriving DecidableEq, Repr

/-- Grant state of one scratchpad bank (R449-R451). -/
structure Bank where
  /-- wide port granted last: 0 MXE, 1 VU, 2 DMA, 3 INBOUND -/
  last : Nat := 3
  /-- consecutive cycles in which a narrow request waited and a wide access was granted -/
  starve : Nat := 0
  /-- an access has been granted in this CCLK (R446) -/
  used : Bool := false
  deriving DecidableEq, Repr

/-- COR_EVT (07, R310). -/
structure CorEvt where
  budgOvr : Bool := false
  emberLate : Bool := false
  tokStall : Bool := false
  fault : Bool := false
  quench : Bool := false
  ovrPhase : BitVec 6 := 0
  deriving DecidableEq, Repr

/-- The token state of a core (12). -/
structure CoreTok where
  /-- reserved half-tokens of the core | 2 bits | R504 12, BLW_CORE.RHO | 0 -/
  rho : Nat := 0
  /-- raise not yet granted: the level asked for | 2 bits | R507 12 | none -/
  raise : Option Nat := none
  /-- lower level that takes effect when the running job completes | 2 bits | R508 12 | none -/
  lower : Option Nat := none
  /-- current phase claim | 2 bits | R511 R516 12, BLW_CORE.CLAIM | 0 -/
  claim : Nat := 0
  /-- phase lease in the cover | 2 bits | R512 12, BLW_CORE.LEASE | 0 -/
  please : Nat := 0
  /-- phase lease requested and not granted, with the FCLK cycle of the request | 2 bits | R512 R517 12, BLW_CORE.PEND | none -/
  preq : Option (Nat × Nat) := none
  /-- instruction lease in the cover, held for the instruction that waits | 2 bits | R514 12 | 0 -/
  ilease : Nat := 0
  /-- instruction lease requested and not granted, with the FCLK cycle of the request | 2 bits | R514 R517 12 | none -/
  ireq : Option (Nat × Nat) := none
  /-- instruction leases whose active interval has ended and that D still needs | 2 bits | R503 R514 12 | 0 -/
  iend : Nat := 0
  /-- the core has joined its tenant and has not yet received ρ_T | 1 bit | R509 12 | false -/
  fresh : Bool := false
  /-- CCLK in which R513 held a heavy instruction | 32 bits | R519 12, BLW_STALL | 0 -/
  stall : W32 := 0
  /-- R513 held the instruction that issues next in the last CCLK | 1 bit | R872 24, trace event 0x08 | false -/
  held : Bool := false
  deriving DecidableEq, Repr

/-- The hazard detector of a core (14). -/
structure Haz where
  /-- COR_HAZCTL.MODE as written | 2 bits | R572 14 | 0 -/
  ctl : BitVec 2 := 0
  /-- mode in force since the last dispatch | 2 bits | R572 14 | 0 -/
  mode : BitVec 2 := 0
  /-- COR_HAZINFO | 64 bits | R574 14 | 0 -/
  info : W64 := 0
  /-- PENDING rows: key memory*1024+row, value the pending writes of kind 1 and of kind 2 | - | R567 14 | none -/
  pend : SMap (Nat × Nat) := []
  /-- writes done in this CCLK (row key, kind): their rows stay PENDING to its end | - | R567 14 | none -/
  fall : List (Nat × Nat) := []
  /-- cores that have pushed to each ring this run, by handle | - | R569 14 | none -/
  producer : SMap (List Nat) := []
  /-- FCLK cycle in which the remote write or push that waits to issue registered with its destination | - | R568 14 | none -/
  regAt : Option Nat := none
  deriving DecidableEq, Repr

/-- The registers a program sees on a core (Table 7-1, Table 7-2). -/
structure CoreRegs where
  /-- x1-x31 by number; x0 is never listed | 64 bits each | R276 07 | 0 (R277) -/
  x : SMap W64 := []
  /-- f0-f31 | 32 bits each | R276 07 | 0 (R277) -/
  f : SMap W32 := []
  /-- p1-p7; p0 is never listed | 1 bit each | R276 07 | 0 (R277) -/
  p : SMap Bool := []
  /-- v0-v15, key v*128+lane | 512 bytes each | R276 07 | 0 (R277) -/
  v : SMap W32 := []
  /-- address of the next instruction to issue, in 16-byte units | 64 bits | R282 R329 07, 08 | 0 -/
  pc : W64 := 0
  /-- fpc, special register 8 | 32 bits | R280 R409 10 | declared by the image; DESIGN CHOICE 0 before a run (log 5) -/
  fpc : W32 := 0
  /-- special register phase | 8 bits | R280 07 | 0 -/
  phase : Nat := 0
  /-- budget counter, special register budget | 32 bits | R58 R59 01 | 0 -/
  budget : W32 := 0
  /-- the budget check of the phase is enabled and has not expired | 1 bit | R60 R61 01 | false -/
  budgOn : Bool := false
  /-- the budget counter has reached 0 and the event is not yet recorded | 1 bit | R60 01 | false -/
  budgDue : Bool := false
  deriving DecidableEq, Repr

/-- Rings, arrival counters and versioned selection of a core (11). -/
structure CoreRows where
  /-- handle table, descriptors of Table 11-5 by number | 64 x 64 bits | R459 R461 11 | all unbound -/
  handles : SMap W64 := []
  /-- arrival counters | 64 x 32 bits | R398 R468 09, 11 | 0 -/
  arr : SMap W32 := []
  /-- head counts HC of RING handles | modulo 2 x COUNT | R465 11 | 0 -/
  hc : SMap Nat := []
  /-- tail counts TC of RING handles | modulo 2 x COUNT | R465 11 | 0 -/
  tc : SMap Nat := []
  /-- tail counts as this core's own pushes have advanced them, key coreidx*64+handle | - | R394 09 | 0 -/
  tcOut : SMap Nat := []
  /-- head counts last reported by the destination, key coreidx*64+handle | - | R394 09 | 0 -/
  hcSeen : SMap Nat := []
  /-- SEL bits, key memory*1024+row | 1 bit per row of ASP and PSP | R475 11 | 0 -/
  sel : SMap Bool := []
  /-- arrivals of this FCLK on each counter: an arr.set of the same FCLK comes before them | - | R399 09 | 0 -/
  arrNow : SMap W32 := []
  /-- SHD bits, key memory*1024+row | 1 bit per row | R471 11 | 0 -/
  shd : SMap Bool := []
  /-- a commit has been decided and the flip has not happened | 1 bit | R472 11 | false -/
  flip : Bool := false
  /-- a squash has been decided and SHD is not yet cleared | 1 bit | R473 11 | false -/
  drop : Bool := false
  deriving DecidableEq, Repr

/-- Caches and predictors of a core, through which only timing is seen (07, 13). -/
structure CoreSpec where
  /-- instruction cache: per set the tags, most recently used first | 128 sets x 4 ways | R295 07 | empty -/
  icache : SMap (List Nat) := []
  /-- two-bit counters | 1,024 x 2 bits | R525 R528 13 | 0b10 -/
  bht : SMap (BitVec 2) := []
  /-- return stack, top first | 16 x 64 bits | R526 R528 13 | empty -/
  ras : List W64 := []
  /-- run-ahead read store partition: flit numbers per port, newest first | 8 flits per port | R538 13 | empty -/
  hints : SMap (List Nat) := []
  /-- tenant of the job dispatched last | 7 bits | R297 R528 R541 | none -/
  lastTenant : Option Nat := none
  /-- COR_SPECCTL as written: RAEN, RAHINT | 2 bits | R556 13 | 3 -/
  ctl : BitVec 2 := 3
  /-- COR_SPECCTL in force since the last dispatch | 2 bits | R556 13 | 3 -/
  eff : BitVec 2 := 3
  /-- CCLK for which a wait has held issue | - | R531 13 | 0 -/
  waitCyc : Nat := 0
  /-- CCLK before which no committed instruction issues after a misprediction | 3 bits | R330 08 | 0 -/
  redirect : Nat := 0
  /-- the last branch was mispredicted and has not resolved | 1 bit | R529 13 | false -/
  wrong : Bool := false
  /-- where fetch went on after the mispredicted branch | 64 bits | R529 13 | 0 -/
  wrongPc : W64 := 0
  /-- instruction-cache line that run-ahead is filling | - | R534 R536 13 | none -/
  raFill : Option Nat := none
  /-- run-ahead window | - | R531 13 | none -/
  ra : Option RunAhead := none
  deriving DecidableEq, Repr

/-- Debug state of a core (24). -/
structure CoreDbg where
  /-- the set is halted at a breakpoint, watch or fault | 1 bit | R866 24 | false -/
  halted : Bool := false
  /-- the next instruction issues although a breakpoint matches (it resumes there) | 1 bit | R867 24 | false -/
  skip : Bool := false
  /-- DBG_PMCSEL: event of each counter | 8 bits each | R874 24 | 0 -/
  pmcSel : SMap W32 := []
  /-- DBG_PMC: counters | 48 bits each | R874 24 | 0 -/
  pmc : SMap W64 := []
  deriving DecidableEq, Repr

/-- One physical core SC0-SC17. -/
structure Core where
  /-- COR_STATE.STATE | 2 bits | R578 15 | per boot; DESIGN CHOICE banked before boot (log 5) -/
  st : CoreState := .banked
  /-- state before a self-test | 2 bits | R601 15 | banked -/
  prior : CoreState := .banked
  /-- tenant the core is allocated to (COR_STATE.TENANT, ALLOC) | 7 bits + 1 | R619 16 | none -/
  alloc : Option Nat := none
  /-- the fence sequence of Table 15-4 runs on the core | 1 bit | R588 15 | false -/
  fencing : Bool := false
  /-- COR_STATE.CAUSE | 3 bits | R584 15 | 0 -/
  cause : BitVec 3 := 0
  /-- COR_STATE.PERSIST | 1 bit | R587 15 | 0 -/
  persist : Bool := false
  /-- COR_STATE.TESTOK | 1 bit | R602 15 | 0 -/
  testOk : Bool := false
  /-- job of the run on the core, as its key in the job table | 14 bits | R228 05 | none -/
  job : Option Nat := none
  /-- special register coreidx | 8 bits | R298 07 | 0 -/
  idx : Nat := 0
  /-- the entry point has started and issue has not been stopped | 1 bit | R234 05, Table 1-2 | false -/
  run : Bool := false
  regs : CoreRegs := {}
  rows : CoreRows := {}
  spec : CoreSpec := {}
  tok : CoreTok := {}
  haz : Haz := {}
  dbg : CoreDbg := {}
  /-- operations in flight, oldest first | - | R290 R291 07 | none -/
  ops : List Op := []
  /-- issue number of the next operation | - | model's own | 0 -/
  nextSeq : Nat := 0
  /-- what holds issue | - | R294 07 | nothing -/
  wait : Wait := .none
  /-- local DMA queue, oldest first | 16 transfers | R387 09 | empty -/
  dmaq : List Dma := []
  /-- remote write and ring push queue, oldest first | 8 transfers | R397 09 | empty -/
  rq : List Remote := []
  /-- scratchpad bytes, key memory*524288 + row*512 + byte | 896 KiB | R439 11 | 0 (ashed, R633) -/
  sp : Memory := []
  /-- words whose check bits show an error, key (memory*1024+row)*64+word: 1 corrected, 2 uncorrectable | - | R482 R483 11 | none -/
  ecc : SMap Nat := []
  /-- ember store | 4 KiB | 01 R30 | 0 (ashed, R633) -/
  estore : Memory := []
  /-- recorded ember | - | R34 R36 01 | none -/
  ember : Option Ember := none
  /-- generator of vst | 32 bits | R415 R416 10 | DESIGN CHOICE 0 before a run (log 5) -/
  gv : W32 := 0
  /-- generator of the DMA engine | 32 bits | R415 R416 10 | DESIGN CHOICE 0 before a run (log 5) -/
  gd : W32 := 0
  /-- reseed of GD due before the next transfer issued | 32 bits | R417 10 | none -/
  gdNext : Option W32 := none
  /-- bank grant state, key memory*8+bank | - | R449 R451 11 | INBOUND granted last -/
  banks : SMap Bank := []
  /-- ports granted in this CCLK: (port, memory) | - | R448 11 | none -/
  ported : List (Nat × Nat) := []
  /-- rows that have arrived and are not yet written, in the order of R392 | - | R392 09 | none -/
  inb : List Inbound := []
  /-- field and OTP remaps: key memory*1024+row, value spare index k plus 1 | - | R487 R488 11 | none (log 5: no OTP remap) -/
  remaps : SMap Nat := []
  /-- spares in use or retired, key memory*64+bank*8+k | 1 bit each | R489 R492 11 | unused -/
  spares : SMap Bool := []
  /-- COR_EVT | 32 bits | R310 07 | 0 -/
  evt : CorEvt := {}
  /-- COR_FAULT | 64 bits | R311 07 | 0 -/
  fault : W64 := 0
  /-- COR_SPERR | 64 bits | R483 R497 11 | 0 -/
  sperr : W64 := 0
  /-- residency tag: tenant, PROG, N (COR_SPRES) | 64 bits | R479 11 | invalid -/
  tag : Option (Nat × W32 × Nat) := none
  /-- dispatch to the core is stopped for a remap | 1 bit | R489 11 | false -/
  held : Bool := false
  /-- DMA transfers issued, and completed or dropped, in this run | - | R255 06 | 0 -/
  dmaIss : Nat := 0
  dmaDone : Nat := 0
  /-- number of the dma.wr issued last, from 1 | - | R255 06 | 0 -/
  dmaLastWr : Nat := 0
  /-- remote transfers issued, and completed or dropped, in this run | - | R255 06 | 0 -/
  remIss : Nat := 0
  remDone : Nat := 0
  deriving DecidableEq, Repr

end Sys2Proof.Machine
end

