-- ==== Sys2Proof/Machine/StateDev.lean ====
section
/-!
DEFINITION. Machine/StateDev.lean: the state of the shared blocks: device time and boot, the Kiln and its mailboxes,
tenants, programs, queues and jobs, the sync block, the Bellows, PCIe, the memory controller, error records and
debug. A field's docstring reads `meaning | width | rule and file | value at reset`.
-/
namespace Sys2Proof.Machine

/-- The grade of the part (Table 0-2, GLB_CAP.GRADE). -/
inductive Grade where
  | a1618 | b1618 | a1212
  deriving DecidableEq, Repr

/-- What is fused in the part. -/
structure Fuses where
  /-- grade | 2 bits | R1 00, GLB_CAP 25 | DESIGN CHOICE PVC-1618-A (log 6) -/
  grade : Grade := .a1618
  /-- temperature suffix E | 1 bit | R6 00, GLB_CAP.TEMP 25 | DESIGN CHOICE I (log 6) -/
  tempE : Bool := false
  /-- revision B0 | 1 bit | GLB_CAP.REV 25 | DESIGN CHOICE B0 (log 6) -/
  revB0 : Bool := true
  /-- DEBUG_DISABLE | 1 bit | R863 24 | DESIGN CHOICE 0 (log 6) -/
  debugDis : Bool := false
  /-- GLB_DEVID | 64 bits | R889 25 | DESIGN CHOICE 1 (log 6) -/
  devid : W64 := 1
  /-- hashes of two firmware public keys: SHA-384, and whether it is revoked | 2 × (384 + 1) bits | R122 03 | DESIGN CHOICE of the P-384 base
  point, and a revoked 0 (log 6) -/
  keyHash0 : BitVec 384 := 0x8c4f262412b7f9ed867606705a130de5212fd048fbaf8c3842f4a240f4b45ba0c90f82194ccdda3ed89c96b0afe1d51d
  revoked0 : Bool := false
  keyHash1 : BitVec 384 := 0
  revoked1 : Bool := true
  /-- debug public key, uncompressed P-384 point | 776 bits | R863 24 | DESIGN CHOICE the P-384 base point (log 6) -/
  debugKey : BitVec 776 := 0x04aa87ca22be8b05378eb1c71ef320ad746e1d3b628ba79b9859f741e082542a385502f25dbf55296c3a545e3872760ab73617de4a96262c6f5d9e98bf9292dc29f8f41dbd289a147ce9da3113b5f0b8c00a60b1ce1d7e819d7a431d7c90ea0e5f
  /-- OTP security-version counter | 32 bits | R122 03, R195 04 | DESIGN CHOICE 0 (log 6) -/
  svn : W32 := 0
  /-- test-time row remaps: (core, memory, row, spare index) | - | R488 11 | DESIGN CHOICE none (log 6) -/
  remaps : List (Nat × Nat × Nat × Nat) := []
  /-- fused CORE_VID code | 6 bits | R910 26 | DESIGN CHOICE 0 (log 6) -/
  vid : BitVec 6 := 0
  deriving DecidableEq, Repr

/-- The cause of a device reset (GLB_RSTCAUSE). -/
inductive RstCause where
  | por | pin | perst | wdt | swrst | therm
  deriving DecidableEq, Repr

/-- Where the device is in its reset sequence (Table 3-4). -/
inductive BootPhase where
  /-- RST_N is low, or the supplies are off -/
  | held
  /-- RST_N has risen, the straps are sampled, the PLL locks -/
  | pll
  /-- a warm reset: the PLL stays locked and device time keeps counting (Table 3-3) -/
  | warm
  /-- the domains are released and the boot ROM or the firmware is starting -/
  | boot
  /-- FWREADY has been set -/
  | ready
  deriving DecidableEq, Repr

/-- Device time, straps, reset causes and boot status (03, 25). -/
structure Glb where
  phase : BootPhase := .held
  /-- GLB_TIME | 64 bits | R101 R106 03 | 0 -/
  time : W64 := 0
  /-- fraction held alongside GLB_TIME | 32 bits | R101 03 | DESIGN CHOICE 0 (log 5) -/
  frac : W32 := 0
  /-- ticks of TCLK since the device reset | - | R691 R693 18, R764 20 | 0 -/
  ticks : Nat := 0
  /-- GLB_TIMEADJ | 32 bits | R108 03 | 0 -/
  adj : W32 := 0
  /-- pending step | 64 bits | R103 03 | none -/
  step : Option W64 := none
  /-- held low half of GLB_TIMESTEP of the Kiln and of the PF | 32 bits each | R109 03 | none -/
  lowKiln : Option W32 := none
  lowPf : Option W32 := none
  /-- GLB_TIMECTL.SRC | 2 bits | 03 | 0 -/
  src : BitVec 2 := 0
  /-- GLB_TIMECTL.BACKSTEP_EN | 1 bit | R105 03 | 0 -/
  backstep : Bool := false
  /-- GLB_TIMECTL.STEPREJ | 1 bit | R105 03 | 0 -/
  stepRej : Bool := false
  /-- GLB_TIMECTL.ADJCLAMP | 1 bit | R108 03 | 0 -/
  adjClamp : Bool := false
  /-- high halves latched by low-half reads of GLB_TIME, by function | 32 bits each | R107 03 | none -/
  shadow : SMap W32 := []
  /-- high halves latched by low-half reads of STK_VTIME, by function | 32 bits each | R816 21 | none -/
  vshadow : SMap W32 := []
  /-- GLB_STRAP.BOOT_MODE and REFSEL | 3 bits | R111 03 | straps; DESIGN CHOICE 0 before the first sampling (log 5) -/
  bootMode : BitVec 2 := 0
  refsel : Bool := false
  /-- GLB_RSTCAUSE cause bits 5:0 | 6 bits | R113 03 | POR set -/
  cause : BitVec 6 := 1
  /-- GLB_RSTCAUSE.LAST | 3 bits | R113 03 | 0 POR -/
  last : BitVec 3 := 0
  /-- GLB_BOOTSTAT.MODE | 2 bits | 25 | boot; 0 before -/
  mode : BitVec 2 := 0
  /-- GLB_BOOTSTAT.IMG_SLOT | 1 bit | 25 | 0 -/
  slot : Bool := false
  /-- GLB_BOOTSTAT.FALLBACK | 1 bit | R124 R125 03 | 0 -/
  fallback : Bool := false
  /-- GLB_BOOTSTAT.RECOVERY | 1 bit | R124 R128 03 | 0 -/
  recovery : Bool := false
  /-- GLB_BOOTSTAT.TRIAL | 1 bit | R890 25 | 0 -/
  trial : Bool := false
  /-- GLB_BOOTSTAT.CFG_BANK | 2 bits | R136 03, R890 25 | DESIGN CHOICE 2, defaults, before boot (log 5) -/
  cfgBank : BitVec 2 := 2
  /-- GLB_BOOTSTAT.CFG_DEFAULT | 1 bit | R137 03 | 0 -/
  cfgDefault : Bool := false
  /-- GLB_BOOTSTAT.CFGSEQ | 32 bits | 25 | 0 -/
  cfgSeq : W32 := 0
  deriving DecidableEq, Repr

/-- The image the Kiln runs or has staged. -/
structure Image where
  build : W32 := 0
  svn : W32 := 0
  abiMinor : W16 := 0
  deriving DecidableEq, Repr

/-- What a boot finds outside the device and on its cores: the channel density, the channels that fail training, the cores that fail
TEST 0, whether the flash answers (R129, R607, R818, R821). -/
structure BootFacts where
  /-- 16 Gb channels, else 8 Gb -/
  big : Bool := true
  trainFail : W16 := 0
  testFail : BitVec 18 := 0
  flash : Bool := true
  deriving DecidableEq, Repr

/-- Who answers the mailboxes. -/
inductive FwMode where
  /-- nobody: in reset, or the Kiln restarts -/
  | none
  /-- the boot ROM in host load mode or in recovery (R126) -/
  | rom
  /-- firmware -/
  | fw
  deriving DecidableEq, Repr

/-- A queue descriptor (Table 5-1). -/
structure Desc where
  sqBase : Nat := 0
  cqBase : Nat := 0
  headWb : Nat := 0
  kBase : Nat := 0
  sqLog : Nat := 0
  cqLog : Nat := 0
  cls : Nat := 0
  presolve : Bool := false
  strict : Bool := false
  irq : Bool := false
  vector : Nat := 0
  maxInfl : Nat := 0
  kRows : Nat := 0
  prRows : Nat := 0
  kCount : Nat := 0
  deriving DecidableEq, Repr

/-- A drain-switch change (Table 15-7). -/
inductive Change where
  | pool (n : Nat)
  | activeCores (n : Nat)
  | memEcc (on : Bool)
  | coreReturn (core : Nat)
  | tenantCreate (t cores tokens queues blocks sessions : Nat) (b0 s0 b1 s1 : Nat)
  | tenantDestroy (t : Nat)
  /-- only rebinds under R596 -/
  | rebind
  deriving DecidableEq, Repr

/-- A drain-switch change in progress (R609). -/
structure Drain where
  change : Change
  /-- opcode and tag shown by CONFIG_EPOCH_STATUS; 0 when firmware-initiated -/
  opcode : Nat
  seq : W32
  /-- function that gets the asynchronous response, and whether the store is to be written (PERSIST) -/
  fn : Option Nat
  persist : Bool
  /-- queues held -/
  queues : List Nat
  /-- STATE 2 (applying) -/
  applying : Bool
  deriving DecidableEq, Repr

/-- What a deferred command waits for (R162). -/
inductive DefOp where
  | destroyQueue (q : Nat)
  | loadProgram (addr len tenant : Nat)
  | drain
  | tenantDestroy (t : Nat)
  | fence (core : Nat) (persist : Bool)
  | maint (core test : Nat)
  | remap (core mem row : Nat) (persist : Bool)
  | home (axis : Nat)
  | fwStage (addr len : Nat)
  | cfgWrite (type : Nat) (delete : Bool) (data : List Byte)
  deriving DecidableEq, Repr

/-- A deferred command whose operation has not finished (R157). -/
structure Deferred where
  fn : Nat
  opcode : Nat
  seq : W32
  op : DefOp
  /-- its function was reset: the response is discarded (R810) -/
  lost : Bool := false
  deriving DecidableEq, Repr

/-- One mailbox (04). -/
structure Mbx where
  /-- MBX_REQ | 2,048 bits | 04 | 0 -/
  req : Memory := []
  /-- MBX_RESP | 2,048 bits | 04 | 0 -/
  resp : Memory := []
  /-- MBX_STATUS.FWREADY | 1 bit | 04 | 0 -/
  ready : Bool := false
  /-- MBX_STATUS.CMDBUSY | 1 bit | R144 04 | 0 -/
  busy : Bool := false
  /-- MBX_STATUS.RESPVALID | 1 bit | R147 R148 04 | 0 -/
  valid : Bool := false
  /-- MBX_STATUS.RESPASYNC | 1 bit | R160 04 | 0 -/
  async : Bool := false
  /-- MBX_STATUS.RINGREJ | 1 bit | R145 04 | 0 -/
  ringRej : Bool := false
  /-- MBX_CTL.IE | 1 bit | R150 04 | 0 -/
  ie : Bool := false
  /-- asynchronous responses that wait for the response area, oldest first (QASYNC) | 0-4 | R160 R161 04 | none -/
  queue : List (List Byte) := []
  deriving DecidableEq, Repr

/-- The Kiln and its firmware (03, 04, 15). -/
structure Kiln where
  /-- who answers | - | R126 03 | nobody -/
  fw : FwMode := .none
  /-- the image that runs | - | R124 03 | none -/
  img : Image := {}
  /-- image staged: in the other slot (flash boot) or in Kiln SRAM (ROM) | - | R188 04, R126 03 | none -/
  staged : Option Image := none
  /-- an image started from Kiln SRAM runs | 1 bit | R126 03 | false -/
  sram : Bool := false
  /-- PERST_SCOPE in force | 1 bit | R184 04 | 0 -/
  perstScope : Bool := false
  /-- configuration epoch | 32 bits | R185 04 | 0 -/
  epoch : W32 := 0
  /-- target A* of ACTIVE cores | 5 bits | R582 15 | boot; DESIGN CHOICE 16 before boot (log 5) -/
  target : Nat := 16
  /-- drain-switch change in progress | - | R609 15 | none -/
  drain : Option Drain := none
  /-- queues whose binding is to be rebound when a change in STATE 2 ends | - | R614 15 | none -/
  rebinds : List Nat := []
  /-- deferred commands, oldest first | at most 4 per function | R157 04 | none -/
  deferred : List Deferred := []
  /-- nonce of DEBUG_UNLOCK still to be answered | 256 bits | R180 04 | none -/
  nonce : Option (List Byte) := none
  /-- PROG number of the next loaded program | 32 bits | model's own, DESIGN CHOICE (log 5) | 0 -/
  nextProg : Nat := 0
  /-- who is starting: firmware, or the boot ROM's own service | - | R116 R124 R127 03 | nobody -/
  next : FwMode := .none
  /-- firmware has come up since the device reset | 1 bit | R890 25 | false -/
  booted : Bool := false
  /-- what the start of the Kiln was given to find | - | model's own (log 14) | nothing fails, 16 Gb channels -/
  facts : BootFacts := {}
  /-- cores whose fence promotion is owed, oldest first: (fenced core, its tenant) | - | R585 R592 15 | none -/
  promote : List (Nat × Option Nat) := []
  /-- tenants of fenced cores that found no spare, oldest first | - | R582 R592 15 | none -/
  owed : List Nat := []
  /-- record types written since a boot on defaults | - | model's own, R184 04 | none -/
  wrote : List Nat := []
  /-- rows to be remapped after an uncorrectable error: (core, memory, row) | - | R493 11 | none -/
  remap : List (Nat × Nat × Nat) := []
  /-- SPI NOR contents; an unlisted byte reads 0xFF | 16 MiB or more | R118 03 | erased -/
  flash : Memory := []
  deriving DecidableEq, Repr

/-- A tenant in 1-127, or the caps of tenant 0 (16). -/
structure Tenant where
  /-- GLB_TNT_ALLOC.EXISTS | 1 bit | R616 R617 16 | 1 for tenant 0 -/
  exist : Bool := false
  /-- TOKENS, the reservation cap | 6 bits | R620 16 | grade pool for tenant 0 -/
  tokens : Nat := 0
  /-- quotas: queues, sync blocks, sessions | 17, 10, 13 bits | R620 R622 16 | device totals for tenant 0 -/
  queues : Nat := 0
  blocks : Nat := 0
  sessions : Nat := 0
  /-- windows: base and size | 64 bits each | R620 16 | none; tenant 0 by R627 -/
  base0 : Nat := 0
  size0 : Nat := 0
  base1 : Nat := 0
  size1 : Nat := 0
  /-- later dispatches of the tenant are detached | 1 bit | R810 21 | false -/
  detach : Bool := false
  deriving DecidableEq, Repr

/-- A loaded program (14). -/
structure Prog where
  tenant : Nat := 0
  /-- address of the image in the firmware region, and its length -/
  base : Nat := 0
  len : Nat := 0
  isa : Nat := 1
  nMin : Nat := 1
  nMax : Nat := 1
  nPhase : Nat := 1
  /-- RSV -/
  rsv : Nat := 0
  paramH : Nat := 0
  kindH : Option Nat := none
  /-- time-to-first-ember in force (R560) -/
  ttfe : Nat := 1
  fpc : W32 := 0
  codeOfs : Nat := 0
  codeLen : Nat := 0
  entry : Nat := 0
  claims : List Nat := []
  handles : List W64 := []
  budgets : List W32 := []
  /-- unloaded by a function reset once no job runs it (R810) -/
  dying : Bool := false
  deriving DecidableEq, Repr

/-- A binding of a program to a queue (BIND_PROGRAM). -/
structure Binding where
  prog : Nat
  /-- NREQ as requested (R595) and the N chosen (R563) -/
  nreq : Nat
  n : Nat
  deriving DecidableEq, Repr

/-- A job queue (05). -/
structure Queue where
  tenant : Nat := 0
  desc : Desc := {}
  /-- descriptor that takes effect at the next job boundary | 512 bits | R204 05 | none -/
  next : Option Desc := none
  /-- binding in force for the next dispatch | - | R173 04 | none -/
  bind : Option Binding := none
  /-- submission head and tail | 16 bits each | R215 05, STK_QINFO | 0 -/
  head : Nat := 0
  tail : Nat := 0
  /-- next completion slot to write, counted from creation; its ring index and PHASE follow | - | R211 05 | 0 -/
  cqWritten : Nat := 0
  /-- completion slots released by the completion head, counted from creation | - | R220 05 | 0 -/
  cqFreed : Nat := 0
  /-- credits reserved | - | R220 05 | 0 -/
  credits : Nat := 0
  /-- OVFMASK: overflow slots that hold an unreleased entry | 4 bits | R218 05 | 0 -/
  ovfMask : BitVec 4 := 0
  /-- overflow slots reserved by jobs | 4 bits | R220 05 | 0 -/
  ovfRes : BitVec 4 := 0
  /-- internal address of the overflow area | - | R205 05 | set at creation -/
  ovfl : Nat := 0
  /-- doorbell offset DBOFS | 12 bits | 05 | set at creation -/
  dbofs : Nat := 0
  /-- INFL: fetched jobs held | 11 bits | R219 05, STK_QINFO | 0 -/
  infl : Nat := 0
  /-- being destroyed (R172) -/
  dying : Bool := false
  /-- fetch stopped by a failed fetch until the next doorbell (R806) -/
  stopped : Bool := false
  /-- head write-back word written last (R218) -/
  wb : W64 := 0
  /-- session of a PST queue (R769) -/
  pst : Option Nat := none
  /-- destroyed by a function reset: what it still writes to host space is discarded (R810) -/
  detach : Bool := false
  deriving DecidableEq, Repr

/-- The state of a job from fetch on (Table 1-4). SUBMITTED is an entry of a ring; DONE has left the table. -/
inductive JobState where
  | waiting | ready | presolving | running
  /-- the end is fixed; Table 1-2 runs -/
  | ending
  deriving DecidableEq, Repr

/-- How a job ended and what Table 1-2 has done since. -/
structure JobEnd where
  /-- outcome: FINAL of Table 1-3 -/
  final : BitVec 8
  detail : W32
  /-- end instant -/
  time : W64
  resid : W32
  iter : Nat
  /-- result rows: none, from the ember (count), or the lead core's logical rows of job.done -/
  ember : Nat
  rows : List (Nat × Nat)
  /-- step 5 has been done (or has nothing to do) -/
  written : Bool
  /-- fenced with RETRY and slack: back to READY in place of a completion (R238) -/
  retry : Bool
  /-- save time of the ember, for EMBER_OFS -/
  emberTime : Option W64
  /-- FCLK cycle in which the end was fixed (`Dev.fno`), and `coreidx` of the core whose fault or job.done fixed it (R306, R307) -/
  fclk : Nat
  idx : Nat
  deriving DecidableEq, Repr

/-- A job in the Stoker's job table (05). -/
structure Job where
  queue : Nat
  tenant : Nat
  /-- the submission entry as fetched (Table 5-2) -/
  entry : BitVec 512
  st : JobState
  /-- fetch order (R226) -/
  seq : Nat
  /-- overflow slot reserved, or a credit -/
  ovf : Option Nat
  /-- first failing code of rows 0x10-0x14 of Table 5-6, or 0 -/
  code : Nat
  /-- the wait counter, the measurement counter has been seen at its value (R254) -/
  watchSat : Bool
  measSat : Bool
  /-- in force since dispatch (R229): program, N, epoch, cores ascending -/
  prog : Nat
  n : Nat
  epoch : W32
  cores : List Nat
  /-- loaded with predicted parameters -/
  predicted : Bool
  /-- the loads are outstanding; the entry point has not started -/
  loading : Bool
  /-- a squash has been decided and the restart has not started (R551) -/
  squashing : Bool
  /-- the measurement has been delivered (R544) -/
  delivered : Bool
  /-- the lead core has executed its first spec.accept (R356) -/
  accepted : Bool
  /-- GLB_TIME at which the entry point issued its first instruction -/
  start : Option W64
  /-- GLB_TIME from which R62 is evaluated, while it is still to be checked -/
  emberFrom : Option W64
  /-- the comparator has fired (R30) -/
  fired : Bool
  /-- issue has stopped on the whole set and what was in flight is cancelled (Table 1-2, steps 2 and 3) -/
  stopped : Bool
  squashed : Bool
  retried : Bool
  /-- dispatched again after a fence (Table 1-3, status 0x07) -/
  again : Bool
  overrun : Bool
  emberLate : Bool
  /-- host-space sinks hold an outbound reservation (R807) -/
  outRsv : Bool
  /-- detached by a reset of its function (R809) -/
  detached : Bool
  fin : Option JobEnd
  /-- session and slot of the PST request that submitted it (R774, R776) -/
  pst : Option (Nat × Nat)
  /-- descriptor of its queue in force at dispatch, which gives its kindling rows (R229, R233) -/
  desc : Desc
  /-- the set is halted in debug mode: by a fault (true) or a breakpoint (false) (R866) -/
  halt : Option Bool
  deriving DecidableEq, Repr

/-- The Stoker (05, 23). -/
structure Stk where
  /-- created queues by number | up to 65,536 | R203 05 | none -/
  queues : SMap (Option Queue) := []
  /-- job table by key | 16,384 entries | 05 | empty -/
  jobs : SMap (Option Job) := []
  /-- fetch number of the next job | - | R226 05 | 0 -/
  seq : Nat := 0
  /-- queue served last, per class, and entries taken in the visit | - | 05 Fetch | none -/
  rr : SMap Nat := []
  visit : Option (Nat × Nat) := none
  /-- STK_QSEL by function | 16 bits each | R795 21 | 0 -/
  qsel : SMap W16 := []
  /-- STK_REJCNT, STK_EXPCNT, STK_DBERR | 32 bits each | 05 | 0 -/
  rejCnt : W32 := 0
  expCnt : W32 := 0
  dbErr : W32 := 0
  /-- fetch and dispatch are stopped by a device-fatal error | 1 bit | R855 24 | false -/
  fatal : Bool := false
  /-- the device holds its state under FATALHOLD, and the mailboxes answer two commands only | 1 bit | R856 24 | false -/
  hold : Bool := false
  /-- tick at which the device-fatal error was detected whose 10 ms run | - | R856 24 | none -/
  fatalAt : Option Nat := none
  deriving DecidableEq, Repr

/-- An operation on a counter (R248). -/
inductive SynOp where
  | add (d : W32) | set (v : W64) | read (core seq : Nat)
  deriving DecidableEq, Repr

/-- An operation that the sync block has not applied. -/
structure SynPend where
  ctr : Nat
  op : SynOp
  /-- source in the order of R252: 0 PCIe, 1 Kiln, 2 Stoker, 3 SLE, 4 CAM0, 5 CAM1, 6 + n SCn -/
  src : Nat
  /-- DMA writes and remote transfers of the core that must be visible first (R255) -/
  needDma : Nat
  needRem : Nat
  /-- function of the host access, or tenant of the core's job (R250) -/
  fn : Nat
  /-- its place in the order of receipt -/
  id : Nat := 0
  deriving DecidableEq, Repr

/-- A host read that waits for the operations of its function received before it (R939). -/
structure HeldRead where
  fn : Nat
  off : Nat
  wide : Bool
  /-- operations with a lower place come first -/
  upto : Nat
  deriving DecidableEq, Repr

/-- An arm slot (06). -/
structure Arm where
  /-- SYN_ARM_THRESH | 64 bits | 06 | 0 -/
  thresh : W64 := 0
  /-- SYN_ARM_CTL.COUNTER, ACTION, ARM | 17, 2, 1 bits | 06 | 0 -/
  ctr : BitVec 17 := 0
  action : BitVec 2 := 0
  armed : Bool := false
  /-- SYN_ARM_STEP | 32 bits | 06 | 0 -/
  step : W32 := 0
  /-- SYN_ARM_TARGET | 16 bits | 06 | 0 -/
  target : W16 := 0
  /-- SYN_ARM_STAT: FIRES, SKIP, RELFULL, INVTGT | 16, 1, 1, 1 bits | 06 | 0 -/
  fires : W16 := 0
  skip : Bool := false
  relFull : Bool := false
  invTgt : Bool := false
  /-- satisfied and the fire not yet performed; whether THRESH is already set by R264 -/
  due : Bool := false
  rebased : Bool := false
  /-- FCLK cycle of its last fire, plus 1 (R263) -/
  firedAt : Nat := 0
  deriving DecidableEq, Repr

/-- The sync block (06). -/
structure Syn where
  /-- counters | 131,072 x 64 bits | R245 06 | 0 -/
  ctr : SMap W64 := []
  /-- counters marked BAD | 1 bit each | R848 24 | none -/
  bad : SMap Bool := []
  /-- owner of each block, tenant plus 1 | 512 | R245 06 | unallocated -/
  owner : SMap Nat := []
  /-- arm slots | 8,192 | R246 06 | reset values -/
  arms : SMap Arm := []
  /-- operations not yet applied, oldest first | - | R252 R253 06 | none -/
  pend : List SynPend := []
  /-- place of the next operation in the order of receipt | - | model's own | 0 -/
  nextId : Nat := 0
  /-- host reads not yet answered, oldest first | - | R939 06 | none -/
  reads : List HeldRead := []
  /-- RELEASE fires whose tail is not yet advanced: (slot, queue) | - | R246 R267 06 | none -/
  rel : List (Nat × Nat) := []
  /-- IRQ messages not yet issued: (slot, function, vector) | - | R268 06 | none -/
  irq : List (Nat × Nat × Nat) := []
  /-- SYN_STATUS.WRAP | 1 bit | R260 06 | 0 -/
  wrap : Bool := false
  /-- SYN_ACCERR | 32 bits | R250 06 | 0 -/
  accErr : W32 := 0
  /-- SYN_ERRINFO | 32 bits | R250 06 | 0 -/
  errInfo : W32 := 0
  /-- high halves latched by low-half reads, by function | 32 bits each | R275 06 | none -/
  shadow : SMap W32 := []
  deriving DecidableEq, Repr

/-- The Bellows (12). The tokens of a core stand in `Core.tok`. -/
structure Blw where
  /-- BLW_POOL.SIZE | 6 bits | R501 12 | grade pool -/
  size : Nat := 24
  /-- BLW_POOL.LEASECAP | 6 bits | R522 12 | grade pool -/
  leaseCap : Nat := 24
  /-- returned leases not yet in the float | 6 bits | R518 12 | 0 -/
  returning : Nat := 0
  /-- test leases held by CORE_MAINT | 6 bits | R599 15 | 0 -/
  test : Nat := 0
  /-- BLW_PEAK | 6 bits | R946 12 | 0 -/
  peak : Nat := 0
  /-- PEAK restarts from the INUSE of the next FCLK | 1 bit | R946 12 | false -/
  restart : Bool := false
  /-- BLW_GRANTS | 32 bits | 12 | 0 -/
  grants : W32 := 0
  /-- reservations given up and not yet in the float | 6 bits | R508 12 | 0 -/
  rsvBack : Nat := 0
  deriving DecidableEq, Repr

/-- One MSI-X vector of a function (21). -/
structure Vec where
  /-- address and data of the message | 64, 32 bits | 21 | 0 -/
  addr : W64 := 0
  data : W32 := 0
  /-- mask bit | 1 bit | 21, 25 | 1 -/
  masked : Bool := true
  /-- pending bit | 1 bit | R801 21 | 0 -/
  pend : Bool := false
  deriving DecidableEq, Repr

/-- The PCIe endpoint (21). -/
structure Pcie where
  /-- PERST_N is asserted | 1 bit | R814 21 | DESIGN CHOICE asserted at power-on (log 5) -/
  perst : Bool := true
  /-- configuration requests get retry status | 1 bit | R116 03 | 1 -/
  crs : Bool := true
  /-- GLB_PCIESTAT.SPEED, WIDTH, DLUP, DLCHG | 4, 4, 1, 1 bits | 21 | 0 -/
  speed : BitVec 4 := 0
  width : BitVec 4 := 0
  dlup : Bool := false
  dlchg : Bool := false
  /-- GLB_PCIECNT.DISCARD, RDERR, INDROP | 32, 16, 16 bits | 21 | 0 -/
  discard : W32 := 0
  rdErr : W16 := 0
  inDrop : W16 := 0
  /-- GLB_BAR4BASE.BASE | 5 bits | 21 | 0 -/
  bar4 : BitVec 5 := 0
  /-- log2 of the PF BAR4 size in GiB (Resizable BAR) | 3 bits | Table 21-1 | 2 (4 GiB) -/
  bar4Log : Nat := 2
  /-- log2 of the VF BAR4 size in 256 MiB | 3 bits | Table 21-1 | 3 (2 GiB) -/
  vbar4Log : Nat := 3
  /-- VF Enable and NumVFs | 1, 7 bits | R791 21 | 0 -/
  vfEn : Bool := false
  numVfs : Nat := 0
  /-- MSI-X Enable and Function Mask, by function | 1 bit each | R801 21 | 0 -/
  msixEn : SMap Bool := []
  fnMask : SMap Bool := []
  /-- MSI-X tables, key function*2048+vector | 2,048 and 64 vectors | R800 21 | masked -/
  vecs : SMap Vec := []
  /-- outbound buffer reserved or occupied, in bytes | 128 KiB | R807 21 | 0 -/
  outRsv : Nat := 0
  /-- FLR in progress, by function | 1 bit each | R810 21 | none -/
  flr : SMap Bool := []
  deriving DecidableEq, Repr

/-- One memory port's counters (22). -/
structure PortCnt where
  rd : W32 := 0
  wr : W32 := 0
  fill : W16 := 0
  wb : W16 := 0
  press : W16 := 0
  hold : W16 := 0
  deriving DecidableEq, Repr

/-- The memory controller (22). -/
structure Mem where
  /-- device DRAM bytes; an unlisted byte reads 0 | up to 32 GiB | R87 02 | log 4 -/
  dram : Memory := []
  /-- free value drawn at the last warm reset plus 1: bytes not written since then are undefined | - | R113 03 (log 1) | 0 -/
  gen : Nat := 0
  /-- bytes written since the last warm reset, or since ECC last went off, by address | - | R113 03 (log 1) | none -/
  known : SMap Bool := []
  /-- the DRAM from byte `top` on came back when ECC went off: with `topGen` ≠ 0, a free value drawn then plus 1, its bytes not written since
  are undefined | - | R828 22 (log 1) | 0 -/
  top : Nat := 0
  topGen : Nat := 0
  /-- MEM_CFG.DENSITY | 2 bits | 22 | 0 before training -/
  density : BitVec 2 := 0
  /-- MEM_CFG.ECC | 1 bit | 22 | 0 -/
  ecc : Bool := false
  /-- MEM_CFG.USABLE in MiB | 20 bits | R823 22 | 0 before training -/
  usable : Nat := 0
  /-- MEM_STAT.TRAINFAIL | 16 bits | R821 22 | 0 -/
  trainFail : W16 := 0
  /-- MEM_STAT.HOT, PRESS | 1 bit each | 22 | 0 -/
  hot : Bool := false
  press : Bool := false
  /-- MEM_ECCCNT.CE, UE | 32, 16 bits | R826 22 | 0 -/
  ce : W32 := 0
  ue : W16 := 0
  /-- MEM_ERRADDR | 64 bits | R834 22 | 0 -/
  errAddr : W64 := 0
  /-- MEM_PORTCNT, MEM_PORTEXT by port | 8 x 128 bits | 22 | 0 -/
  ports : SMap PortCnt := []
  /-- flits stored with the poison pattern, by flit number | 1 bit each | R852 24, R947 22 | none -/
  poison : SMap Bool := []
  /-- ECC flit cache: per channel (flit group, modified), most recently used first | 16 x 32 | R824 22 | empty -/
  eccCache : SMap (List (Nat × Bool)) := []
  /-- next bank to refresh, per channel | 4 bits each | R830 22 | 0 -/
  refresh : SMap Nat := []
  /-- next data flit the patrol scrub reads | - | R827 22 | 0 -/
  scrub : Nat := 0
  deriving DecidableEq, Repr

/-- An error record (R859, ERR_LOG). -/
structure ErrRec where
  seq : W32 := 0
  time : W64 := 0
  cls : Nat := 0
  source : Nat := 0
  index : Nat := 0
  tenant : Nat := 0xFF
  code : Nat := 0
  queue : Nat := 0xFFFF
  tag : W32 := 0
  info : W64 := 0
  deriving DecidableEq, Repr

/-- Error records and registers (24). They are cleared by a cold reset only (R860). -/
structure Err where
  /-- ERR_LOG by index | 256 x 256 bits | R858 24 | 0 -/
  log : SMap (Option ErrRec) := []
  /-- ERR_LOGPTR.HEAD, TAIL, LOST | 8, 8, 16 bits | R949 24 | 0 -/
  head : Nat := 0
  tail : Nat := 0
  lost : W16 := 0
  /-- unread records, 0-256 (LOGFULL at 256) | 9 bits | R949 24 | 0 -/
  unread : Nat := 0
  /-- SEQ of the next record | 32 bits | 24 | 0 -/
  seq : W32 := 0
  /-- ERR_FATAL | 256 bits | R855 24 | 0 -/
  fatal : Option ErrRec := none
  /-- ERR_STAT bits 6:0 | 7 bits | 24 | 0 -/
  stat : BitVec 7 := 0
  /-- ERR_CTL.IE, LOGCE, FATALHOLD | 7, 1, 1 bits | 24 | 0 -/
  ie : BitVec 7 := 0
  logCe : Bool := false
  hold : Bool := false
  /-- ERR_CFGWARN | 64 bits | R861 24 | 0 -/
  warn : W64 := 0
  deriving DecidableEq, Repr

/-- A trace entry (R872). -/
structure TraceEnt where
  time : W64 := 0
  agent : Nat := 0
  event : Nat := 0
  data : W64 := 0
  deriving DecidableEq, Repr

/-- Debug, JTAG and trace (24). -/
structure Dbg where
  /-- DBG_STAT.DEBUG | 1 bit | R864 24 | 0 -/
  on : Bool := false
  /-- DBG_CTL.HALTFAULT | 1 bit | R866 24 | 0 -/
  haltFault : Bool := false
  /-- DBG_CTL.RCORE | 5 bits | R867 24 | 0 -/
  rcore : BitVec 5 := 0
  /-- DBG_BRK[n], the breakpoint of core SCn: EN and ADDR | 25 bits each | R866 24 | 0 -/
  brk : SMap W32 := []
  /-- DBG_TRCCTL.EN, WRAP, EVMASK | 1, 1, 13 bits | 24 | 0 -/
  trcEn : Bool := false
  trcWrap : Bool := false
  evMask : BitVec 13 := 0
  /-- DBG_TRCPTR.WPTR, FULL, DROPS | 12, 1, 16 bits | R873 24 | 0 -/
  wptr : Nat := 0
  full : Bool := false
  drops : W16 := 0
  /-- trace entries by index | 4,096 x 128 bits | R872 24 | 0 -/
  trace : SMap (Option TraceEnt) := []
  /-- entries accepted in this FCLK | 0-4 | R873 24 | 0 -/
  accepted : Nat := 0
  deriving DecidableEq, Repr

end Sys2Proof.Machine
end

