-- ==== Sys2Proof/Machine/StateIo.lean ====
section
/-!
DEFINITION. Machine/StateIo.lean: the state of the servo loop engine, Motion I/O, the cameras, the Ethernet ports,
the test access port and the thermal and supply pins. A field's docstring reads
`meaning | width | rule and file | value at reset`.
-/
namespace Sys2Proof.Machine

/-- An INMAP entry (Table 17-5). -/
structure InEnt where
  src : Nat := 0
  ch : Nat := 0
  fresh : Bool := false
  scale : W32 := 0
  offset : W32 := 0
  deriving DecidableEq, Repr

/-- An OUTMAP entry (Table 17-5). -/
structure OutEnt where
  dst : Nat := 0
  ch : Nat := 0
  scale : W32 := 0
  offset : W32 := 0
  safeVal : W32 := 0
  deriving DecidableEq, Repr

/-- Limits of an output (Table 17-5). -/
structure LimEnt where
  umin : W32 := 0
  umax : W32 := 0
  dumax : W32 := 0
  deriving DecidableEq, Repr

/-- An integrator (Table 17-5). -/
structure IntEnt where
  sel : Nat := 0
  out : Nat := 0
  ki : W32 := 0
  zlim : W32 := 0
  deriving DecidableEq, Repr

/-- A set of SLE parameters (Table 17-5): the shadow set, the set that waits for its boundary, or the set in force. -/
structure SleCfg where
  /-- LOOP has been written -/
  loop : Bool := false
  period : Nat := 0
  inwin : Nat := 0
  outinst : Nat := 0
  nx : Nat := 0
  nu : Nat := 0
  ni : Nat := 0
  missLim : Nat := 0
  tlock : Bool := false
  fly : Bool := false
  persist : Bool := false
  sampDiv : Nat := 0
  alignOfs : W32 := 0
  vtol : W32 := 0
  stageBase : Nat := 0
  snapBase : Nat := 0
  /-- LINKS has been written -/
  links : Bool := false
  /-- CMTCTR, ACKCTR, SAMPCTR; none where VALID = 0 -/
  cmt : Option Nat := none
  ack : Option Nat := none
  samp : Option Nat := none
  inmap : SMap InEnt := []
  outmap : SMap OutEnt := []
  limits : SMap LimEnt := []
  integ : SMap IntEnt := []
  /-- gain matrix of the GAIN blocks, key row*32+column, and whether a GAIN block has come since the last apply -/
  gain : SMap W32 := []
  gainNew : Bool := false
  deriving DecidableEq, Repr

/-- A trajectory in one internal half (17). -/
structure Traj where
  count : Nat := 1
  div : Nat := 1
  interp : Bool := false
  source : W32 := 0
  /-- key point*64 + e: e 0-31 is r_x, 32-47 is u_ff -/
  pts : SMap W32 := []
  /-- gain matrix, when KINCL = 1 -/
  gain : Option (SMap W32) := none
  deriving DecidableEq, Repr

inductive SleState where
  | stopped | running | safe
  deriving DecidableEq, Repr

/-- Where the SLE is in the current sample (Table 17-1). -/
inductive SlePhase where
  /-- before the boundary, or after the output instant -/
  | idle
  /-- inputs latched -/
  | latched
  /-- the input check is over; the outputs wait for OUTINST -/
  | checked
  deriving DecidableEq, Repr

/-- The servo loop engine (17). -/
structure Sle where
  /-- SLE_STAT.STATE | 2 bits | R637 17 | 0 STOPPED -/
  st : SleState := .stopped
  /-- SLE_STAT.MISS, STALE, SAFEENT, REJECT, OVERTAKEN | 1 bit each | 17 | 0 -/
  miss : Bool := false
  stale : Bool := false
  safeEnt : Bool := false
  reject : Bool := false
  overtaken : Bool := false
  /-- SLE_STAT.SAFECAUSE | 2 bits | 17 | 0 -/
  safeCause : BitVec 2 := 0
  /-- SLE_STAT.CONSEC | 8 bits | R667 17 | 0 -/
  consec : Nat := 0
  /-- SLE_STAT.MISSCAUSE | 3 bits | R666 17 | 0 -/
  missCause : BitVec 3 := 0
  /-- SLE_CTL.IE | 1 bit | 17 | 0 -/
  ie : Bool := false
  /-- SLE_MISSCNT | 32 bits | 17 | 0 -/
  missCnt : W32 := 0
  /-- parameter sets: shadow, waiting for its boundary, in force; an APPLY has succeeded since reset | - | R669 17 | empty -/
  shadow : SleCfg := {}
  pend : Option SleCfg := none
  cfg : SleCfg := {}
  applied : Bool := false
  /-- whether the flash will take the store write of the set that waits (PERSIST) -/
  pendStore : Bool := false
  /-- device time of the next boundary; it is the first one while `first` | 64 bits | R642 R644 17 | 0 -/
  tnext : W64 := 0
  first : Bool := false
  /-- LCLK of the current boundary | - | R646 17 | 0 -/
  lbound : Nat := 0
  /-- a catch is to be seeded at the first boundary (R710) -/
  catching : Bool := false
  /-- SLE_SAMPLE.K: number of the current sample | 64 bits | R644 17 | 0 -/
  k : W64 := 0
  /-- device time of the current boundary -/
  tbound : W64 := 0
  phase : SlePhase := .idle
  /-- the current sample is a miss -/
  missNow : Bool := false
  /-- latched inputs: raw values by state element; velocity and count per encoder channel | - | R646 17 | 0 -/
  counts : SMap W32 := []
  vels : SMap W32 := []
  /-- ADC results present in this sample, by channel | 16 bits each | R684 18 | none -/
  adc : SMap (Option W16) := []
  /-- TSN input fields: last value, float flag; received since the previous INWIN | 64 fields | R647 17 | 0 -/
  tsn : SMap (W32 × Bool) := []
  tsnNew : SMap Bool := []
  /-- state x, output u, previous output, integrators | binary32 each | R649 R650 17 | 0 -/
  x : SMap W32 := []
  u : SMap W32 := []
  uprev : SMap W32 := []
  z : SMap W32 := []
  /-- output clamped at UMAX (true) or UMIN in the previous sample | - | R651 17 | none -/
  clamp : SMap (Option Bool) := []
  /-- raw outputs held at their destinations, by OUTMAP entry | integers | R653 17 | 0 -/
  raw : SMap Int := []
  /-- gain matrix in force | 16 x 32 binary32 | R673 17 | 0 -/
  gain : SMap W32 := []
  /-- active trajectory, pending one, point, step | - | R660 R661 17 | empty -/
  traj : Traj := {}
  next : Option Traj := none
  /-- LCLK in which the load of the pending trajectory completed | - | R660 17 | 0 -/
  nextAt : Nat := 0
  p : Nat := 0
  q : Nat := 0
  /-- SLE_TRAJ.HALF, SWAPS | 1, 16 bits | 17 | 0 -/
  half : Bool := false
  swaps : W16 := 0
  /-- LASTCMT | 64 bits | R655 17 | 0 -/
  lastCmt : W64 := 0
  /-- changes of CMTCTR that the SLE has not learned of yet, oldest first: the new values | 64 bits each | R655 17 | none -/
  commits : List W64 := []
  /-- load in progress: commit value that started it and LASTCMT before | - | R655 R658 17 | none -/
  load : Option (W64 × W64) := none
  /-- snapshots that are written and whose ADD is due, oldest first: the SAMPCTR of each | 17 bits each | R665 17 | none -/
  sampDue : List Nat := []
  /-- DAC codes are to be sent from this LCLK on (OUTINST + 4) | - | R686 18 | none -/
  dacDue : Option Nat := none
  deriving DecidableEq, Repr

/-- An encoder channel (18). -/
structure Enc where
  /-- MIO_ENC_CFG: MODE, DIRINV, GRAY, VELLOG2, SSIBITS, SSIDIV | 2, 1, 1, 4, 5, 8 bits | 18 | 0 -/
  mode : BitVec 2 := 0
  dirInv : Bool := false
  gray : Bool := false
  velLog2 : BitVec 4 := 0
  ssiBits : BitVec 5 := 0
  ssiDiv : BitVec 8 := 0
  /-- COUNT | 32 bits | R679 18 | 0 -/
  count : W32 := 0
  /-- sampled levels of ENC_A and ENC_B | 1 bit each | R679 18 | DESIGN CHOICE low (log 5) -/
  a : Bool := false
  b : Bool := false
  /-- changes of COUNT, newest first: (LCLK, COUNT) | - | R683 18 | none -/
  hist : List (Nat × W32) := []
  /-- SSI frame running since this LCLK | - | R682 18 | none -/
  ssi : Option Nat := none
  /-- LCLK in which the last SSI frame started | - | R682 18 | none -/
  ssiAt : Option Nat := none
  /-- last two SSI frames, newest first: (LCLK of end, value) | - | R683 18 | none -/
  frames : List (Nat × W32) := []
  deriving DecidableEq, Repr

/-- A debounced input (18). -/
structure Inp where
  /-- MIO_IN_CFG: DEB, POL, LIMSTO, CHATTER_N, CHATTER_WIN | 10, 1, 1, 8, 16 bits | 18 | 0 -/
  deb : BitVec 10 := 0
  pol : Bool := false
  limSto : Bool := false
  chN : BitVec 8 := 0
  chWin : W16 := 0
  /-- level at the ball | 1 bit | R691 18 | DESIGN CHOICE low (log 5) -/
  raw : Bool := false
  /-- tick and LCLK since which the level, after POL, stands | - | R691 R692 18 | 0 -/
  edgeT : Nat := 0
  edgeL : Nat := 0
  /-- accepted level | 1 bit | R691 18 | 0 -/
  lvl : Bool := false
  /-- COUNT captured at the first raw edge away from the accepted level | 32 bits | R692 18 | none -/
  cap : Option W32 := none
  /-- latch of the last accepted transition | 32 bits | R692 18 | 0 -/
  latch : W32 := 0
  /-- ticks of the accepted transitions, newest first | - | R693 18 | none -/
  trans : List Nat := []
  deriving DecidableEq, Repr

/-- Phase of a homing run (MIO_HOME_STAT.PHASE). -/
inductive HomePhase where
  | idle | seek | backoff | latch | done
  deriving DecidableEq, Repr

/-- What homing has seen since the last boundary (R701). -/
structure HomeEv where
  chatter : Bool := false
  limP : Bool := false
  limN : Bool := false
  homeOn : Bool := false
  /-- capture of the first HOME transition to active (R703) -/
  cap : W32 := 0
  homeOff : Bool := false
  deriving DecidableEq, Repr

/-- The homing sequencer of an axis (18). -/
structure Home where
  /-- MIO_HOME_STAT: LATCH, PHASE, REVERSED, ACTIVE, OUTCOME | 32, 3, 1, 1, 3 bits | 18 | 0 -/
  latchReg : W32 := 0
  phase : HomePhase := .idle
  reversed : Bool := false
  active : Bool := false
  outcome : BitVec 3 := 0
  posx : Nat := 0
  velx : Nat := 0
  /-- D, as given and as searched; true is negative -/
  dir : Bool := false
  reverse : Bool := false
  useIdx : Bool := false
  seekV : W32 := 0
  latchV : W32 := 0
  accel : W32 := 0
  backDist : W32 := 0
  /-- speed and reference position | binary32 | R700 18 | 0 -/
  w : W32 := 0
  rpos : W32 := 0
  /-- H of Table 18-4; true is negative -/
  h : Bool := false
  /-- reference at which HOME was accepted inactive in BACKOFF -/
  off : Option W32 := none
  /-- the target has become 0 in BACKOFF or LATCH -/
  stop : Bool := false
  /-- a limit has tripped in this run -/
  tripped : Bool := false
  /-- the run's first boundary has not come -/
  first : Bool := false
  /-- waiting for the index edge (R703) -/
  idx : Bool := false
  latch : Option W32 := none
  ev : HomeEv := {}
  /-- the override of POSX and VELX is in force (R707) -/
  takesOver : Bool := false
  deriving DecidableEq, Repr

/-- A step output (R688). -/
structure Step where
  /-- 32-bit accumulator | 32 bits | R688 18 | 0 -/
  acc : W32 := 0
  /-- signed rate code in force | 27 bits | R688 18 | 0 -/
  code : Int := 0
  /-- DIR | 1 bit | R696 18 | low -/
  dir : Bool := false
  /-- a carry whose pulse has not been sent; LCLK of the last sign change | 1 bit, - | R688 18 | none -/
  owed : Bool := false
  turned : Option Nat := none
  /-- STEP pulses sent since reset | - | model's own record of the pulses | 0 -/
  pulses : Nat := 0
  deriving DecidableEq, Repr

/-- Motion I/O (18). -/
structure Mio where
  /-- MIO_OUT_CFG: PWMPER, STEPMASK, CONVT | 16, 8, 6 bits | 18 | 0xFFFF, 0, 0 -/
  pwmPer : W16 := 0xFFFF
  stepMask : BitVec 8 := 0
  convt : BitVec 6 := 0
  encs : SMap Enc := []
  ins : SMap Inp := []
  /-- MIO_STAT: LIMTRIP, WRIGN, ENCERR, CHATTER | 8, 1, 8, 25 bits | 18 | 0 -/
  limTrip : BitVec 8 := 0
  wrIgn : Bool := false
  encErr : BitVec 8 := 0
  chatter : BitVec 25 := 0
  /-- PWM duty in force in the current period, and duty from the next period start | 16 bits each | R687 18 | 0 -/
  duty : SMap W16 := []
  dutyNext : SMap W16 := []
  /-- LCLK in which the PWM periods started | - | R687 18 | 0 -/
  pwmAt : Nat := 0
  steps : SMap Step := []
  /-- code last sent to each DAC channel | 16 bits each | R686 18 | idle -/
  dac : SMap (Option W16) := []
  /-- OUTMAP channels mapped since reset: PWM (0-15), step axis (16-23), DAC (24-31) | 1 bit each | R696 18 | none -/
  mapped : SMap Bool := []
  homes : SMap Home := []
  deriving DecidableEq, Repr

/-- A set of camera parameters (Table 19-6). -/
structure CamCfg where
  lanes : Nat := 0
  vc : Nat := 0
  dt : Nat := 0
  enable : Bool := false
  nonCont : Bool := false
  rate : Nat := 0
  width : Nat := 0
  height : Nat := 0
  bayer : Nat := 0
  snrEn : Bool := false
  tnrEn : Bool := false
  snrK : Nat := 0
  tnrK : Nat := 0
  snrTh : List Nat := [0, 0, 0, 0]
  tnrTh : List Nat := [0, 0, 0, 0]
  tnrBase : Nat := 0
  bl : List Nat := [0, 0, 0, 0]
  wb : List Nat := [0, 0, 0, 0]
  ccm : List Int := [0, 0, 0, 0, 0, 0, 0, 0, 0]
  ccmOfs : List Int := [0, 0, 0]
  lscEn : Bool := false
  toneEn : Bool := false
  lscBase : Nat := 0
  toneBase : Nat := 0
  outBase : Nat := 0
  bufSize : Nat := 0
  nbuf : Nat := 0
  lumaEn : Bool := false
  y16 : Bool := false
  tfmt : Nat := 0
  tplanes : Nat := 0
  lcrop : List Nat := [0, 0, 0, 0]
  tcrop : List Nat := [0, 0, 0, 0]
  sx : Nat := 0
  sy : Nat := 0
  tpitch : Nat := 0
  mean : List Nat := [0, 0, 0]
  gain : List W32 := [0, 0, 0]
  frameCtr : Option Nat := none
  /-- tables copied by APPLY: 4 x 17 x 17 gains, 257 tone entries -/
  lsc : List Nat := []
  tone : List Nat := []
  deriving DecidableEq, Repr

/-- A frame of a camera port, open or in its output tail. -/
structure Frame where
  seq : W64
  fsTime : W64
  feTime : W64
  num : W16
  commit : W32
  cfg : CamCfg
  tnrReset : Bool
  /-- lines received, newest first -/
  lines : List (List Nat)
  /-- DROPCAUSE, or 0 -/
  drop : Nat
  /-- its descriptor has been written while the frame is still open (a dropped frame) -/
  wrote : Bool
  deriving DecidableEq, Repr

/-- A camera port (19). -/
structure Cam where
  shadow : CamCfg := {}
  /-- pending set, its commit number, and whether INPUT or NR changed against the active set | - | R742 19 | none -/
  pend : Option (CamCfg × W32) := none
  /-- FCLK cycle in which the pending set was made | - | R743 19 | 0 -/
  pendAt : Nat := 0
  active : CamCfg := {}
  /-- CAM_COMMIT.ACTIVE | 32 bits | 19 | 0 -/
  commit : W32 := 0
  /-- commit number of the last successful APPLY | 32 bits | R742 19 | 0 -/
  commits : W32 := 0
  /-- a frame is open | - | 19 | none -/
  frame : Option Frame := none
  /-- frames whose descriptor is not written yet, oldest first | - | R739 19 | none -/
  tail : List Frame := []
  /-- SEQ of the next accepted FS | 64 bits | 19 | 0 -/
  seq : W64 := 0
  /-- tnr_valid is 0 for the next frame (R727) | 1 bit | 19 | 1 -/
  tnrReset : Bool := true
  /-- CAM_STAT.DRAINING, DROP, LASTCAUSE | 1, 1, 4 bits | 19 | 0 -/
  draining : Bool := false
  drop : Bool := false
  lastCause : BitVec 4 := 0
  /-- CAM_CTL.IE | 1 bit | 19 | 0 -/
  ie : Bool := false
  /-- CAM_DELIVCNT, CAM_DROPCNT, CAM_PKTCNT | 32, 32, 16 + 16 bits | 19 | 0 -/
  deliv : W32 := 0
  drops : W32 := 0
  eccCorr : W16 := 0
  discard : W16 := 0
  /-- CAM_LASTFS | 64 bits | 19 | 0 -/
  lastFs : W64 := 0
  deriving DecidableEq, Repr

/-- An Ethernet port's parameters (Table 20-11). -/
structure EthCfg where
  speed : Nat := 0
  fec : Bool := false
  mtu : Nat := 1500
  mac : Nat := 0
  ptpEn : Bool := false
  persist : Bool := false
  txLat : Nat := 0
  rxLat : Nat := 0
  prio1 : Nat := 0
  prio2 : Nat := 0
  ipv4 : Nat := 0
  ipv6 : Nat := 0
  udpPort : Nat := 1
  v4En : Bool := false
  v6En : Bool := false
  qmap : List Nat := [0, 0, 0, 0, 0, 0, 0, 0]
  express : BitVec 8 := 0xFF
  preemptEn : Bool := false
  verifyEn : Bool := false
  addFrag : Nat := 0
  baseTime : Nat := 0
  cycle : Nat := 1000
  ext : Nat := 0
  nent : Nat := 0
  /-- gate entries written: (gates, interval) -/
  ents : SMap (Option (BitVec 8 × Nat)) := []
  deriving DecidableEq, Repr

/-- A cyclic stream (Table 20-11). -/
structure Stream where
  enable : Bool := false
  float : Bool := false
  port : Nat := 0
  first : Nat := 0
  count : Nat := 0
  /-- SRCMAC of an input stream, DSTMAC of an output stream -/
  mac : Nat := 0
  vid : Nat := 0
  pcp : Nat := 0
  deriving DecidableEq, Repr

/-- A gPTP event message: the port timestamps it (R752). -/
inductive PtpEvent where
  | sync | delayReq | delayResp
  deriving DecidableEq, Repr

/-- A gPTP message received for the Kiln; an event message with its timestamp, in 1/65,536 tick of device time (R752). -/
structure GptpRx where
  bytes : List Byte
  stamp : Option Nat
  deriving DecidableEq, Repr

/-- A peer-delay request received: its sequence number, the port identity that asks, its timestamp. -/
structure DelayReq where
  seq : Nat
  ident : List Byte
  stamp : Nat
  deriving DecidableEq, Repr

/-- A frame in a transmit queue or received; the bytes run from the destination MAC to the end of the payload. -/
structure EthFrame where
  bytes : List Byte
  /-- PST session, slot, queue and overflow slot that the last byte of this response releases (R777) -/
  resp : Option (Nat × Nat × Nat × Option Nat) := none
  /-- a gPTP event message, timestamped on sending -/
  ptp : Option PtpEvent := none
  deriving DecidableEq, Repr

/-- A frame in a port's PST receive buffer. -/
structure RxPst where
  bytes : List Byte
  /-- whole-tick device time of the start-of-frame delimiter -/
  rxt : W64
  /-- converted deadline of a SOLVE_REQUEST at its arrival; none where it counts as not late (R779) -/
  dl : Option Int
  deriving DecidableEq, Repr

/-- A gate control list in operation or waiting: PTP time of its start, cycle, extension, entries (R758). -/
structure GateList where
  base : Nat
  cycle : Nat
  ext : Nat
  ents : List (BitVec 8 × Nat)
  deriving DecidableEq, Repr

/-- An Ethernet port (20). -/
structure Eth where
  shadow : EthCfg := {}
  cfg : EthCfg := {}
  /-- ETH_STAT.LINK, SPEED, FEC, LINKCHG | 1, 2, 1, 1 bits | 20 | 0 -/
  link : Bool := false
  linkChg : Bool := false
  /-- verification has succeeded | 1 bit | R760 20 | false -/
  verified : Bool := false
  /-- ETH_STAT.PTPSTATE | 3 bits | 20 | 0 -/
  ptpState : BitVec 3 := 0
  /-- ETH_DROPCNT: BAD, NOSESSION, LATEEVICT, FULL | 16 bits each | 20 | 0 -/
  bad : W16 := 0
  noSession : W16 := 0
  lateEvict : W16 := 0
  full : W16 := 0
  /-- ETH_PSTCNT: ACCEPTED, NOTICES, RESPLOST | 32, 16, 16 bits | 20 | 0 -/
  accepted : W32 := 0
  notices : W16 := 0
  respLost : W16 := 0
  /-- transmit queues 0-7, oldest first | - | R757 20 | empty -/
  tx : SMap (List EthFrame) := []
  /-- PST receive buffer, oldest first | 256 KiB | R779 20 | empty -/
  rx : List RxPst := []
  /-- frames received for the Kiln (ARP, NDP, echo; gPTP), oldest first | - | R750 20 | none -/
  kiln : List (List Byte) := []
  gptp : List GptpRx := []
  /-- the last peer-delay request received | - | R752 R756 20 | none -/
  delayReq : Option DelayReq := none
  /-- timestamps of the Sync, the peer-delay request and the peer-delay response sent last, in 1/65,536 tick; none until the message has
  left | 80 bits each | R752 20 | none -/
  syncTx : Option Nat := none
  reqTx : Option Nat := none
  respTx : Option Nat := none
  /-- list in operation | - | R758 20 | none -/
  gates : Option GateList := none
  /-- open gates | 8 bits | R758 20 | all -/
  open_ : BitVec 8 := 0xFF
  /-- list that waits for its ConfigChangeTime | - | R784 20 | none -/
  gclPend : Option GateList := none
  /-- a preemptable frame is suspended after its first fragment -/
  frag : Option (Nat × EthFrame) := none
  /-- responses that are being sent: what their last byte releases, oldest first | - | R777 20 | none -/
  onWire : List (Nat × Nat × Nat × Option Nat) := []
  deriving DecidableEq, Repr

/-- A slot of a PST session in use (R774). -/
structure PstSlot where
  reqTag : W32
  seq : W32
  port : Nat
  mac : Nat
  ip : Nat
  udp : Nat
  vid : Nat
  deriving DecidableEq, Repr

/-- A PST session (R767). -/
structure Session where
  /-- open; otherwise dormant (R788), or closed with slots still held (R770) -/
  open_ : Bool := false
  dormant : Bool := false
  tenant : Nat := 0
  ports : BitVec 2 := 0
  encap : Nat := 0
  pcp : Nat := 0
  noticeEn : Bool := false
  qBase : Nat := 0
  qCount : Nat := 0
  pSlots : Nat := 0
  pMax : Nat := 0
  rRows : Nat := 0
  vid : Nat := 0
  peerMac : Nat := 0
  peerPort : Nat := 0
  peerIp : Nat := 0
  sBase : Nat := 0
  sigCtr : W32 := 0
  /-- OPEN DATA as given, for record 0x0020 -/
  data : List Byte := []
  persist : Bool := false
  slots : SMap (Option PstSlot) := []
  lastSeq : Option W32 := none
  accepted : W32 := 0
  notices : W32 := 0
  evicted : W32 := 0
  responses : W32 := 0
  deriving DecidableEq, Repr

/-- What the two ports share: streams, sessions and PTP time (20). -/
structure Net where
  /-- CYCIN and CYCOUT blocks: shadow and in force | 8 each | R782 20 | disabled -/
  inShadow : SMap Stream := []
  outShadow : SMap Stream := []
  ins : SMap Stream := []
  outs : SMap Stream := []
  /-- last accepted SEQ of each input stream | 32 bits | R761 20 | none -/
  inSeq : SMap (Option W32) := []
  /-- SEQ of the next frame of each output stream | 32 bits | R763 20 | 0 -/
  outSeq : SMap W32 := []
  /-- tick of the last SAFE frames | - | R764 20 | 0 -/
  safeAt : Nat := 0
  /-- sessions | 4,096 | R767 20 | none -/
  sessions : SMap (Option Session) := []
  /-- ETH_PTPOFS | 64 bits | R753 20 | 0 -/
  ptpOfs : W64 := 0
  /-- ETH_PTPSTAT: OFFSET, LOCKED, GM, ANCHORS | 32, 1, 1, 8 bits | 20 | 0 -/
  offset : W32 := 0
  locked : Bool := false
  gm : Bool := false
  anchors : Nat := 0
  /-- consecutive Sync messages within 100 ns; a first lock has happened | - | R754 R755 20 | 0 -/
  good : Nat := 0
  anchored : Bool := false
  /-- Sync sequence number the Kiln sends next as master | 16 bits | R756 20 | 0 -/
  syncSeq : W16 := 0
  deriving DecidableEq, Repr

/-- The instruction the TAP holds (R869). -/
inductive TapInstr where
  | bypass | idcode | sample | extest | clamp | highz | dbgacc
  deriving DecidableEq, Repr

/-- TAP, supplies, thermal and CORE_VID pins (24, 26, 27). -/
structure Pins where
  /-- instruction in the TAP | 6 bits | R869 24 | IDCODE after TAP reset (PRESUMED IEEE 1149.1, log 7) -/
  tap : TapInstr := .idcode
  /-- boundary-scan register: pin values preloaded | - | R869 24 | DESIGN CHOICE 0 (log 5) -/
  scan : SMap Bool := []
  /-- outputs driven from the boundary-scan register or floated | - | R870 24 | none -/
  scanOut : Option TapInstr := none
  /-- the RST_N ball is low | 1 bit | 03 | low -/
  rstLow : Bool := true
  /-- a supply is below its minimum | 1 bit | R896 26 | true before power-on -/
  lost : Bool := true
  /-- THERMTRIP_N is driven low | 1 bit | R924 26 | released -/
  trip : Bool := false
  /-- the Kiln is held after a trip until Tj is low for 1 s | 1 bit | R934 27 | false -/
  thermHold : Bool := false
  /-- hottest sensor reading in quarter degrees | - | 27 | DESIGN CHOICE 100 (25 C, log 5) -/
  tj : Int := 100
  /-- thermal cap TC in half-tokens | 6 bits | R931 27 | grade pool -/
  tc : Nat := 24
  /-- tick of the Kiln's last reading of Tj | - | R931 27 | none -/
  tjAt : Option Nat := none
  /-- tick since which Tj has read below the throttle-off value, below 0 where that was before the device reset | - | R934 27 | none -/
  coolAt : Option Int := none
  /-- CORE_VID code driven | 6 bits | R908 R910 26 | not driven -/
  vid : Option (BitVec 6) := none
  /-- tick at which the firmware last changed the code | - | R910 26 | none -/
  vidAt : Option Nat := none
  deriving DecidableEq, Repr

/-- What the device sends out. -/
inductive OutMsg where
  /-- result of a register, BAR4 or configuration read: requesting function (0 PF), bytes as a number -/
  | read (fn : Nat) (value : Nat)
  /-- posted write to host space: requester function, address, bytes -/
  | hostWrite (fn addr : Nat) (bytes : List Byte)
  /-- read request to host space: requester function, address, bytes asked for (R630, R804) -/
  | hostRead (fn addr len : Nat)
  /-- MSI-X message of a function's vector: address and data -/
  | msix (fn vec : Nat) (addr : W64) (data : W32)
  /-- configuration request answered with retry status (R116), or with data -/
  | cfgRetry (fn : Nat)
  | cfgData (fn : Nat) (value : W32)
  /-- BAR4 read answered Unsupported Request, or with the EP bit set (R799, R854) -/
  | unsupported (fn : Nat)
  | poisoned (fn : Nat) (value : Nat)
  /-- Ethernet frame sent on a port -/
  | frame (port : Nat) (bytes : List Byte)
  /-- SMBus data, or the address or command not acknowledged -/
  | smbus (bytes : List Byte)
  | smbusNack
  /-- bits shifted out of TDO: value and length -/
  | tdo (value : Nat) (bits : Nat)
  /-- command on the SPI bus of the flash: command byte, address, bytes read, programmed or erased (R916) -/
  | spi (cmd : BitVec 8) (addr len : Nat)
  /-- codes sent to a DAC channel -/
  | dac (ch : Nat) (code : W16)
  /-- STEP pulse of an axis -/
  | step (axis : Nat) (dir : Bool)
  deriving DecidableEq, Repr

end Sys2Proof.Machine
end

