-- ==== Sys2Proof/Machine/State.lean ====
section
/-!
DEFINITION. Machine/State.lean: the whole state of the device, its state after reset, and the reasons a step can
stop. The parts of the state stand in StateCore.lean, StateDev.lean and StateIo.lean.
-/
namespace Sys2Proof.Machine

/-- Everything the spec gives the device. -/
structure Dev where
  /-- CCLK since reset; FCLK, LCLK and PCLK are its divisions by 2, 4 and 8 | - | R96 R98 03 | 0 -/
  cclk : Nat := 0
  /-- number of the FCLK cycle that runs: one more with every two CCLK, and with every tick of TCLK | - | model's own (log 2) | 0 -/
  fno : Nat := 0
  fuse : Fuses := {}
  glb : Glb := {}
  kiln : Kiln := {}
  /-- mailboxes by function | 128 | R143 04 | reset values -/
  mbx : SMap Mbx := []
  /-- tenants by number | 128 | R615 16 | tenant 0 exists -/
  ten : SMap Tenant := []
  /-- loaded programs by PROG number | 1,024 | R175 04 | none -/
  progs : SMap (Option Prog) := []
  stk : Stk := {}
  syn : Syn := {}
  blw : Blw := {}
  /-- cores by physical index | 18 | R64 02 | reset values -/
  cores : SMap Core := []
  sle : Sle := {}
  mio : Mio := {}
  /-- camera ports | 2 | R64 02 | reset values -/
  cams : SMap Cam := []
  /-- Ethernet ports | 2 | R64 02 | reset values -/
  eths : SMap Eth := []
  net : Net := {}
  pcie : Pcie := {}
  mem : Mem := {}
  err : Err := {}
  dbg : Dbg := {}
  pins : Pins := {}
  /-- how many free values have been drawn | - | model's own (log 1) | 0, DESIGN CHOICE -/
  free : Nat := 0
  /-- what the device has sent out, oldest first | - | model's own (log 8) | none -/
  out : List OutMsg := []
  deriving DecidableEq, Repr

/-- The state: the commands that wait, first in, first out, and the device. -/
structure State where
  /-- commands that wait, first in, first out | - | model's own | empty -/
  pending : List Instr
  dev : Dev
  deriving DecidableEq, Repr

/-- The reasons for which the machine stops with a fault. -/
inductive Fault where
  /-- An access to an address that does not exist. No command raises it: the spec answers such an access with an error
  response (R88) and the machine goes on. Safe: it is never reached. -/
  | unmapped
  deriving DecidableEq, Repr

/-- The reasons for which a command is refused. -/
inductive Refusal where
  /-- The command has no meaning yet; raised by an arm of exec alone. Safe: nothing is claimed of it. -/
  | notModelled (mnemonic : String)
  /-- The command carries an operand that no command of the device can carry (`Instr.wf` says which): raised by the
  meanings of the commands with list or range operands. Safe: no such command exists. -/
  | illFormed
  deriving DecidableEq, Repr

/-- Tenant 0 as it exists from reset (R616, R622): the device totals and the pool of the grade. -/
def Tenant.zero (pool : Nat) : Tenant :=
  { exist := true, tokens := pool, queues := 65536, blocks := 512, sessions := 4096 }

/-- The half-token pool of a grade (Table 12-2). -/
def Grade.pool : Grade → Nat
  | .a1618 => 24
  | .b1618 => 32
  | .a1212 => 20

/-- Guaranteed ACTIVE cores of a grade (Table 0-2, GLB_CAP.GUAR). -/
def Grade.guar : Grade → Nat
  | .a1212 => 12
  | _ => 16

/-- Core ceiling of a grade (Table 0-2, GLB_CAP.CEIL). -/
def Grade.ceil : Grade → Nat
  | .a1212 => 12
  | _ => 18

/-- The device right after a power-on (cold) reset, RST_N still low: every field at its reset value. -/
def Dev.reset : Dev := { ten := [(0, Tenant.zero 24)] }

/-- The machine right after a power-on reset: no command waits. -/
def State.reset : State := { pending := [], dev := Dev.reset }

/-- The outcome of a command that changes the device by `f`; the queue is not touched. -/
def State.run (s : State) (f : Dev → Dev) : Host.Outcome State Fault Refusal :=
  .next { s with dev := f s.dev }

/-- As `run`, for a command whose operands are well-formed where `ok`; it is refused where they are not. -/
def State.runIf (s : State) (ok : Bool) (f : Dev → Dev) : Host.Outcome State Fault Refusal :=
  if ok then s.run f else .refused .illFormed

end Sys2Proof.Machine
end

