-- ==== Sys2Proof/Machine/Ops.lean ====
section
/-!
DEFINITION. Machine/Ops.lean: the named operations over the device that every family of commands shares: reading and changing one
part of the state, device memory and host memory, interrupts, error records, trace, head write-back.
-/
namespace Sys2Proof.Machine

/-! ### Parts of the device -/

/-- Core SCn. -/
def Dev.core (d : Dev) (n : Nat) : Core := SMap.get {} d.cores n
/-- Change core SCn. -/
def Dev.updCore (d : Dev) (n : Nat) (f : Core → Core) : Dev := { d with cores := SMap.upd {} d.cores n f }
/-- Change several cores. -/
def Dev.updCores (d : Dev) (ns : List Nat) (f : Core → Core) : Dev := ns.foldl (fun d n => d.updCore n f) d

/-- The job with key `j`. -/
def Dev.job (d : Dev) (j : Nat) : Option Job := SMap.get none d.stk.jobs j
/-- Put a job in the table, or remove it. -/
def Dev.setJob (d : Dev) (j : Nat) (o : Option Job) : Dev :=
  { d with stk := { d.stk with jobs := SMap.set none d.stk.jobs j o } }
/-- Change the job with key `j`, if it exists. -/
def Dev.updJob (d : Dev) (j : Nat) (f : Job → Job) : Dev := d.setJob j ((d.job j).map f)

/-- Queue `u`. -/
def Dev.queue (d : Dev) (u : Nat) : Option Queue := SMap.get none d.stk.queues u
/-- Create or remove queue `u`. -/
def Dev.setQueue (d : Dev) (u : Nat) (o : Option Queue) : Dev :=
  { d with stk := { d.stk with queues := SMap.set none d.stk.queues u o } }
/-- Change queue `u`, if it exists. -/
def Dev.updQueue (d : Dev) (u : Nat) (f : Queue → Queue) : Dev := d.setQueue u ((d.queue u).map f)

/-- Tenant `t`. -/
def Dev.tenant (d : Dev) (t : Nat) : Tenant := SMap.get {} d.ten t
/-- Change tenant `t`. -/
def Dev.updTenant (d : Dev) (t : Nat) (f : Tenant → Tenant) : Dev := { d with ten := SMap.upd {} d.ten t f }

/-- The loaded program `p`. -/
def Dev.prog (d : Dev) (p : Nat) : Option Prog := SMap.get none d.progs p

/-- The mailbox of function `f`. -/
def Dev.mbox (d : Dev) (f : Nat) : Mbx := SMap.get {} d.mbx f
/-- Change the mailbox of function `f`. -/
def Dev.updMbox (d : Dev) (f : Nat) (g : Mbx → Mbx) : Dev := { d with mbx := SMap.upd {} d.mbx f g }

/-- Draw a free value: the number of the draw (log 1). -/
def Dev.draw (d : Dev) : Nat × Dev := (d.free, { d with free := d.free + 1 })

/-- Append a message to what the device has sent out (log 8). -/
def Dev.send (d : Dev) (m : OutMsg) : Dev := { d with out := d.out ++ [m] }

/-- The value of `GLB_TIME`. -/
def Dev.now (d : Dev) : Nat := d.glb.time.toNat

/-! ### Fields of a submission entry (Table 5-2) -/

def Job.bytes (j : Job) (ofs n : Nat) : Nat := bits j.entry.toNat (8 * ofs) (8 * n)
def Job.tag (j : Job) : Nat := j.bytes 0 4
def Job.retryFlag (j : Job) : Bool := bit1 j.entry.toNat 32
def Job.presolveFlag (j : Job) : Bool := bit1 j.entry.toNat 33
def Job.noIrq (j : Job) : Bool := bit1 j.entry.toNat 34
def Job.prows (j : Job) : Nat := j.bytes 6 2
def Job.deadline (j : Job) : Nat := j.bytes 8 8
def Job.param (j : Job) : Nat := j.bytes 16 8
def Job.result (j : Job) : Nat := j.bytes 24 8
def Job.waitVal (j : Job) : Nat := j.bytes 32 8
/-- A counter reference: the number when VALID = 1. -/
def Job.ctrRef (j : Job) (ofs : Nat) : Option Nat :=
  let w := j.bytes ofs 4
  if bit1 w 31 then some (bits w 0 17) else none
def Job.waitCtr (j : Job) : Option Nat := j.ctrRef 40
def Job.sigCtr (j : Job) : Option Nat := j.ctrRef 44
def Job.measVal (j : Job) : Nat := j.bytes 48 8
def Job.measCtr (j : Job) : Option Nat := j.ctrRef 56
def Job.kslot (j : Job) : Nat := j.bytes 60 2
def Job.knext (j : Job) : Nat := j.bytes 62 2

/-- The keys of the jobs that pass a test, ascending. -/
def Dev.jobKeys (d : Dev) (p : Job → Bool) : List Nat :=
  (d.stk.jobs.map Prod.fst).filter (fun k => (d.job k).any p)

/-- Dispatched and not yet past the completion step. -/
def Job.onCores (j : Job) : Bool := decide (j.cores ≠ [])

/-! ### Functions, host space and interrupts (21) -/

/-- Function `f` exists (R791). -/
def Dev.fnExists (d : Dev) (f : Nat) : Bool := f == 0 || (d.pcie.vfEn && decide (f ≤ d.pcie.numVfs))

/-- Cut a posted write into the TLPs of R804: at most 512 bytes, none across a 4 KiB boundary. `n` bounds their number. -/
def tlps : Nat → Nat → List Byte → List (Nat × List Byte)
  | 0, _, _ => []
  | _ + 1, _, [] => []
  | n + 1, a, bs =>
    let k := min 512 (4096 - a % 4096)
    (a, bs.take k) :: tlps n (a + k) (bs.drop k)

/-- Posted write to host space by function `f` (R804); discarded and counted while the link is down, the function does
not exist or the job is detached (R792, R809, R815). -/
def Dev.hostWrite (d : Dev) (f : Nat) (detached : Bool) (addr : Nat) (bs : List Byte) : Dev :=
  let ts := tlps (bs.length + 1) (addr % 2 ^ 63) bs
  if detached || !d.pcie.dlup then { d with pcie := { d.pcie with discard := satAdd d.pcie.discard ts.length } }
  else if !d.fnExists f then d
  else ts.foldl (fun d t => d.send (.hostWrite f t.1 t.2)) d

/-- Cut a read into the requests of R804: at most 512 bytes, none across a 4 KiB boundary. `n` bounds their number. -/
def readTlps : Nat → Nat → Nat → List (Nat × Nat)
  | 0, _, _ => []
  | n + 1, a, len =>
    if len = 0 then []
    else
      let k := min len (min 512 (4096 - a % 4096))
      (a, k) :: readTlps n (a + k) (len - k)

/-- The read requests to host space by function `f` for `len` bytes (R630, R804): none while the link is down. What they return comes with the command that ends the
access. -/
def Dev.hostRead (d : Dev) (f addr len : Nat) : Dev :=
  if !d.pcie.dlup || !d.fnExists f then d
  else (readTlps (len + 1) (addr % 2 ^ 63) len).foldl (fun d t => d.send (.hostRead f t.1 t.2)) d

/-- Key of a vector in the MSI-X tables. -/
def vecKey (f v : Nat) : Nat := f * 2048 + v

/-- Send the message of a vector. -/
def Dev.msixSend (d : Dev) (f v : Nat) : Dev :=
  let e := SMap.get {} d.pcie.vecs (vecKey f v)
  if d.pcie.dlup then d.send (.msix f v e.addr e.data)
  else { d with pcie := { d.pcie with discard := satAdd d.pcie.discard 1 } }

/-- Raise vector `v` of function `f` (R801). No message waits to be sent in this model, so case 3 does not arise. -/
def Dev.raiseVec (d : Dev) (f v : Nat) : Dev :=
  if !(SMap.get false d.pcie.msixEn f) || !d.fnExists f then d
  else
    let e := SMap.get {} d.pcie.vecs (vecKey f v)
    if e.masked || SMap.get false d.pcie.fnMask f then
      { d with pcie := { d.pcie with vecs := SMap.set {} d.pcie.vecs (vecKey f v) { e with pend := true } } }
    else d.msixSend f v

/-! ### Trace and error records (24) -/

/-- DATA of a trace entry: the first value named in Table 24-5 in bits 31:0, the next in bits 63:32 (log 13). -/
def traceData (a b : Nat) : Nat := a % 2 ^ 32 + 2 ^ 32 * (b % 2 ^ 32)

/-- Index of the first entry that the buffer took in this FCLK. -/
def Dbg.first (g : Dbg) : Nat := (g.wptr + 4096 - g.accepted) % 4096

/-- The entries that the buffer took in this FCLK. -/
def Dbg.recent (g : Dbg) : List TraceEnt :=
  (List.range g.accepted).filterMap (fun i => SMap.get none g.trace ((g.first + i) % 4096))

/-- The buffer has room for one more entry in this FCLK. -/
def Dbg.room (g : Dbg) : Bool := decide (g.accepted < 4) && !g.full

/-- The entries of this FCLK with `e` among them: they stand in ascending order of AGENT, and where the buffer takes no more the last is dropped. -/
def Dbg.withEntry (g : Dbg) (e : TraceEnt) : List TraceEnt :=
  let r := g.recent
  let l := r.takeWhile (fun x => decide (x.agent ≤ e.agent)) ++ e :: r.dropWhile (fun x => decide (x.agent ≤ e.agent))
  if g.room then l else l.dropLast

/-- Capture a trace entry (R872, R873). -/
def Dev.trace (d : Dev) (agent event data : Nat) : Dev :=
  let g := d.dbg
  if !g.trcEn || !(g.evMask.getLsbD (event - 1)) then d
  else
    let e : TraceEnt :=
      { time := BitVec.ofNat 64 (d.now % 2 ^ 48), agent := agent, event := event, data := BitVec.ofNat 64 data }
    let l := g.withEntry e
    let g' : Dbg := { g with trace := l.zipIdx.foldl (fun t x => SMap.set none t ((g.first + x.2) % 4096) (some x.1)) g.trace }
    { d with dbg := if g.room then
        { g' with wptr := (g.wptr + 1) % 4096, full := !g.trcWrap && decide (g.wptr = 4095), accepted := g.accepted + 1 }
      else { g' with drops := satInc g.drops } }

/-- Set an `ERR_STAT` bit; a rise raises PF vector 4 when its IE bit is set. -/
def Dev.errStat (d : Dev) (c : Nat) : Dev :=
  let was := d.err.stat.getLsbD c
  let d := { d with err := { d.err with stat := d.err.stat ||| (1#7 <<< c) } }
  if !was && d.err.ie.getLsbD c then d.raiseVec 0 4 else d

/-- What a record says (Table 24-3). -/
structure Rec where
  cls : Nat
  source : Nat
  index : Nat := 0
  code : Nat
  info : Nat := 0
  /-- tenant, queue, tag of the affected job -/
  job : Option (Nat × Nat × Nat) := none

/-- The record as it stands in the log. -/
def Dev.mkRec (d : Dev) (r : Rec) : ErrRec :=
  let b : ErrRec :=
    { seq := d.err.seq, time := d.glb.time, cls := r.cls, source := r.source, index := r.index, code := r.code,
      info := BitVec.ofNat 64 r.info }
  match r.job with
  | some (t, u, g) => { b with tenant := t, queue := u, tag := BitVec.ofNat 32 g }
  | none => b

/-- Write an error record and set its class in `ERR_STAT` (R858, R949); class 1 is logged only with LOGCE. -/
def Dev.record (d : Dev) (r : Rec) : Dev :=
  if r.cls = 1 && !d.err.logCe then d.errStat 0
  else
    let e := d.err
    let rc := d.mkRec r
    let full := decide (e.unread = 256)
    let e := { e with
      log := SMap.set none e.log e.head (some rc),
      head := (e.head + 1) % 256,
      tail := if full then (e.tail + 1) % 256 else e.tail,
      lost := if full then satInc e.lost else e.lost,
      unread := if full then 256 else e.unread + 1,
      seq := e.seq + 1,
      fatal := if r.cls = 6 && !e.stat.getLsbD 5 then some rc else e.fatal }
    let d := { d with err := e }
    ((d.errStat (r.cls - 1)).trace 0x26 0x0C (traceData r.code rc.seq.toNat))

/-- The job part of a record. -/
def Job.forRec (j : Job) : Option (Nat × Nat × Nat) := some (j.tenant, j.queue, j.tag)

/-- Source of a write under R20. -/
inductive WarnSrc where
  | host (f : Nat)
  | kiln
  | fpc (core tenant : Nat)

/-- Record a write of a reserved value in `ERR_CFGWARN` (R20, R861). -/
def Dev.cfgWarn (d : Dev) (src : WarnSrc) (off : Nat) : Dev :=
  let w := d.err.warn.toNat
  let cnt := min 0xFF (bits w 48 8 + 1)
  if bit1 w 63 then
    { d with err := { d.err with warn := BitVec.ofNat 64 (w - place (bits w 48 8) 48 8 + place cnt 48 8) } }
  else
    let f : Nat := match src with
      | .host fn => place off 0 26 + place fn 32 7
      | .kiln => place off 0 26 + place 1 45 2
      | .fpc n t => place t 32 7 + place n 40 5 + place 2 45 2
    { d with err := { d.err with warn := BitVec.ofNat 64 (f + place cnt 48 8 + place 1 63 1) } }.errStat 6

/-! ### Device memory (22) -/

/-- Usable bytes of device DRAM (R823). -/
def Dev.usable (d : Dev) : Nat := d.mem.usable * 2 ^ 20
/-- Base of the firmware region: the top 1 GiB of usable DRAM (R629). -/
def Dev.fwBase (d : Dev) : Nat := d.usable - 2 ^ 30

/-- One byte of device DRAM: a byte that nothing has written reads 0 after a cold reset (log 4) and is free after a
warm one (Table 3-3), and above the smaller usable size once ECC has gone off (R828). -/
def Mem.byte (m : Mem) (a : Nat) : Byte :=
  if SMap.get false m.known a then Memory.read 0 m.dram a
  else if m.topGen ≠ 0 && decide (m.top ≤ a) then Config.dramByte m.topGen a
  else if m.gen = 0 then Memory.read 0 m.dram a else Config.dramByte m.gen a

/-- `n` bytes of device DRAM, as stored. -/
def Mem.bytes (m : Mem) (a : Nat) : Nat → List Byte
  | 0 => []
  | n + 1 => m.byte a :: m.bytes (a + 1) n

/-- `n` bytes of device DRAM. -/
def Dev.peek (d : Dev) (a n : Nat) : List Byte := d.mem.bytes a n

/-- Flit numbers of an extent. -/
def flitsOf (a n : Nat) : List Nat := if n = 0 then [] else span (a / 64) ((a + n - 1) / 64 + 1 - a / 64)

/-- Some flit of the extent is stored poisoned. -/
def Dev.poisoned (d : Dev) (a n : Nat) : Bool := (flitsOf a n).any (fun f => SMap.get false d.mem.poison f)

/-- Memory port of a flit: address bits 8:6 (R819). -/
def portOf (flit : Nat) : Nat := flit % 8
/-- Fabric node of core `n`; those of row 0 are 0 PCIe, 1 Stoker, 3 Kiln, 5 SLE and 7 camera (Table 2-3, R859). -/
def coreNode (n : Nat) : Nat := 8 * (1 + n / 6) + 1 + n % 6
/-- Fabric node that serves flit `f`: its memory port, or PCIe for host space. -/
def flitNode (f : Nat) : Nat := if f < 2 ^ 57 then 32 + portOf f else 0

/-- A flit from node `src` to node `dst` meets an error that is corrected, or not (R85, Table 24-3); INDEX is the
destination (log 143). -/
def Dev.fabricError (d : Dev) (lost : Bool) (src dst : Nat) : Dev :=
  d.record { cls := if lost then 2 else 1, source := 11, index := dst, code := if lost then 0x0012 else 0x0003, info := place dst 0 8 + place src 8 8 }
/-- What the fabric does to a transfer between two nodes. -/
def Dev.fabricMove (d : Dev) (f : Fabric) (src dst : Nat) : Dev :=
  match f with
  | .clean => d
  | .corrected _ => d.fabricError false src dst
  | .lost _ => d.fabricError true src dst
/-- What the fabric does to a read of the extent at address `a` by node `dst`. -/
def Dev.fabricRead (d : Dev) (f : Fabric) (a dst : Nat) : Dev :=
  match f with
  | .clean => d
  | .corrected k => d.fabricError false (flitNode (a / 64 + k.toNat)) dst
  | .lost k => d.fabricError true (flitNode (a / 64 + k.toNat)) dst
/-- A flit of it is delivered poisoned. -/
def fabricLost : Fabric → Bool
  | .lost _ => true
  | _ => false

/-- Channel of a flit: 2 × port + address bit 9 (R819). -/
def chanOf (flit : Nat) : Nat := 2 * portOf flit + flit / 8 % 2
/-- Group of 32 consecutive flits of one channel that share an ECC flit, by number within the channel. -/
def eccGroup (flit : Nat) : Nat := flit / 16 / 32

/-- Access of one flit's ECC flit through the channel's cache of 32 (R824). -/
def Mem.eccAccess (m : Mem) (flit : Nat) (wr : Bool) : Mem :=
  if !m.ecc then m else
  let ch := chanOf flit
  let g := eccGroup flit
  let l := SMap.get [] m.eccCache ch
  match l.find? (fun e => e.1 == g) with
  | some e => { m with eccCache := SMap.set [] m.eccCache ch ((g, e.2 || wr) :: l.filter (fun x => x.1 != g)) }
  | none =>
    let wb := decide (32 ≤ l.length) && (l.getLast?.map Prod.snd).getD false
    { m with
      eccCache := SMap.set [] m.eccCache ch ((g, wr) :: l.take 31)
      ports := SMap.upd {} m.ports (portOf flit) (fun p =>
        { p with fill := satInc p.fill, wb := if wb then satInc p.wb else p.wb }) }

/-- Count one data flit read or written at its port. -/
def Mem.countFlit (m : Mem) (wr : Bool) (flit : Nat) : Mem :=
  { m with ports := SMap.upd {} m.ports (portOf flit) (fun p =>
      if wr then { p with wr := satInc p.wr } else { p with rd := satInc p.rd }) }.eccAccess flit wr

/-- Count the flits of a read of device DRAM. -/
def Dev.countRead (d : Dev) (a n : Nat) : Dev :=
  { d with mem := (flitsOf a n).foldl (Mem.countFlit · false) d.mem }

/-- A hint partition without the flits of a write (R540). -/
def CoreSpec.dropHints (s : CoreSpec) (fl : List Nat) : CoreSpec :=
  { s with hints := SMap.mapV [] (fun _ l => l.filter (fun f => !fl.contains f)) s.hints }

/-- Store bytes of a flit: a whole flit ends its poison, a part keeps it (R947). -/
def Mem.poke (m : Mem) (a : Nat) (bs : List Byte) : Mem :=
  let whole := (flitsOf a bs.length).filter (fun f => decide (a ≤ f * 64) && decide (f * 64 + 64 ≤ a + bs.length))
  { m with
    dram := Memory.writeL 0 m.dram a bs
    known := if m.gen = 0 && m.topGen = 0 then m.known else (span a bs.length).foldl (fun k x => SMap.set false k x true) m.known
    poison := whole.foldl (fun p f => SMap.set false p f false) m.poison }

/-- Write device DRAM: the bytes, the port counts, the hint partitions (R829, R540). -/
def Dev.poke (d : Dev) (a : Nat) (bs : List Byte) : Dev :=
  let fl := flitsOf a bs.length
  let m := (d.mem.poke a bs)
  { d with
    mem := fl.foldl (Mem.countFlit · true) m
    cores := SMap.mapV {} (fun _ c => { c with spec := c.spec.dropHints fl }) d.cores }

/-- Where an internal address extent leads (R86-R88, R937). -/
inductive Target where
  | dram | host | none
  deriving DecidableEq, Repr

/-- Target of the extent of `n` bytes at `a`; register space counts as unmapped for every agent that asks here (R89). -/
def Dev.target (d : Dev) (a n : Nat) : Target :=
  if 2 ^ 63 ≤ a && decide (a + n ≤ 2 ^ 64) then .host
  else if a + n ≤ d.usable then .dram
  else .none

/-- The clocks run: the PLL has locked (Table 3-4). -/
def Dev.clocked (d : Dev) : Bool := decide (d.glb.phase = .boot) || decide (d.glb.phase = .ready)

/-- The extent of `n` bytes at `a` lies in the one of `m` bytes at `b`. -/
def within (a n b m : Nat) : Bool := decide (b ≤ a) && decide (a + n ≤ b + m)

/-- The extent lies in tenant `t`'s reach, which two windows that adjoin make up together (R627, R628). -/
def Dev.inReach (d : Dev) (t a n : Nat) : Bool :=
  if t = 0 then decide (a + n ≤ d.fwBase)
  else
    let w := d.tenant t
    within a n w.base0 w.size0 || within a n w.base1 w.size1 ||
    (decide (w.size0 ≠ 0 ∧ w.size1 ≠ 0) &&
      ((decide (w.base0 + w.size0 = w.base1) && within a n w.base0 (w.size0 + w.size1)) ||
       (decide (w.base1 + w.size1 = w.base0) && within a n w.base1 (w.size1 + w.size0))))

/-- The extent lies wholly in host space. -/
def inHost (a n : Nat) : Bool := decide (2 ^ 63 ≤ a) && decide (a + n ≤ 2 ^ 64)

/-- A write by the device for tenant `t` to an internal address: DRAM, host space, or nothing (R88). -/
def Dev.write (d : Dev) (t : Nat) (detached : Bool) (a : Nat) (bs : List Byte) : Dev :=
  match d.target a bs.length with
  | .dram => d.poke a bs
  | .host => d.hostWrite t detached a bs
  | .none => d

/-- Host space answers reads made for tenant `t` (R792, R809, R815). -/
def Dev.hostReads (d : Dev) (t : Nat) (detached : Bool) : Bool := !detached && d.pcie.dlup && d.fnExists t

/-! ### Queues: credits and head write-back (05) -/

/-- Ring sizes. -/
def Desc.sqSize (e : Desc) : Nat := 2 ^ e.sqLog
def Desc.cqSize (e : Desc) : Nat := 2 ^ e.cqLog

/-- Completion credits (R220). -/
def Queue.free (q : Queue) : Nat := q.desc.cqSize - (q.cqWritten - q.cqFreed) - q.credits

/-- Lowest free overflow slot: neither reserved nor holding an unreleased entry. -/
def Queue.freeSlot (q : Queue) : Option Nat := firstWith (fun i => !(q.ovfMask.getLsbD i || q.ovfRes.getLsbD i)) 4

/-- A drain-switch change holds queue `u` (R609). -/
def Dev.held (d : Dev) (u : Nat) : Bool :=
  match d.kiln.drain with
  | some c => c.queues.contains u
  | none => false

/-- QSTATE (R218). 1 is shown whenever no credit and no overflow slot is free, whether or not a fetch waits for one (log 146). -/
def Dev.qstate (d : Dev) (u : Nat) (q : Queue) : Nat :=
  if d.held u then 3
  else if q.bind.isNone then 2
  else if q.free = 0 && q.freeSlot.isNone then 1
  else 0

/-- Write the head write-back word when a field has changed (R218). -/
def Dev.headWb (d : Dev) (u : Nat) : Dev :=
  match d.queue u with
  | none => d
  | some q =>
    let w := BitVec.ofNat 64 (place q.head 0 16 + place q.ovfMask.toNat 16 4 + place (d.qstate u q) 24 8)
    if w = q.wb then d
    else (d.updQueue u (fun q => { q with wb := w })).write q.tenant (q.detach || (d.tenant q.tenant).detach) q.desc.headWb
      (toBytes w.toNat 8)

/-- Write the head write-back words of every queue whose fields have changed. -/
def Dev.headWbAll (d : Dev) : Dev := (d.stk.queues.map Prod.fst).foldl Dev.headWb d

/-! ### Cores of a tenant, and the pool (12, 16) -/

/-- All physical cores. -/
def allCores : List Nat := List.range 18

/-- ACTIVE cores allocated to tenant `t`, ascending (R619). -/
def Dev.coresOf (d : Dev) (t : Nat) : List Nat :=
  allCores.filter (fun n => decide ((d.core n).st = .active) && decide ((d.core n).alloc = some t))

/-- ACTIVE cores of the device. -/
def Dev.activeCores (d : Dev) : List Nat := allCores.filter (fun n => decide ((d.core n).st = .active))

/-- Reservation level ρ_T: the largest RSV among the programs bound to the tenant's queues (R504). -/
def Dev.rhoOf (d : Dev) (t : Nat) : Nat :=
  d.stk.queues.foldl (fun m e => match e.2 with
    | some q =>
      if q.tenant = t then
        match q.bind with
        | some b => max m (((d.prog b.prog).map Prog.rsv).getD 0)
        | none => m
      else m
    | none => m) 0

/-- Leases of a core, in and out of its active intervals. -/
def Core.lease (c : Core) : Nat := c.tok.please + c.tok.ilease + c.tok.iend + (c.ops.map Op.ilease).sum
/-- Cover C of a core. -/
def Core.cover (c : Core) : Nat := c.tok.rho + c.lease
/-- MXE occupied. -/
def Core.mxeBusy (c : Core) : Bool := c.ops.any (fun o => decide (o.unit = .mxe) && decide (0 < o.occ))
/-- A VU or refinement instruction is in its active interval. -/
def Core.vuActive (c : Core) : Bool := c.ops.any (fun o => decide (o.unit = .vu) && decide (0 < o.cost) && decide (0 < o.occ))
/-- Demand D of a core (R499). -/
def Core.demand (c : Core) : Nat := 2 * b2n c.mxeBusy + b2n c.vuActive
/-- Half-tokens requested and not granted. -/
def CoreTok.pendTok (t : CoreTok) : Nat := (t.preq.map Prod.fst).getD 0 + (t.ireq.map Prod.fst).getD 0

/-- The cover that a heavy instruction may issue on: a lease whose own instruction has ended carries no other (R514). -/
def Core.usable (c : Core) : Nat := c.cover - c.tok.iend

/-- Half-tokens reserved to ACTIVE cores; a reservation given up stays reserved until it joins the float (R502, R508, R523). -/
def Dev.reserved (d : Dev) : Nat := (allCores.map (fun n => (d.core n).tok.rho)).sum + d.blw.rsvBack
/-- Half-tokens leased: held by cores, held for tests, and returned leases that have not joined the float (R502, R523). -/
def Dev.leased (d : Dev) : Nat := (allCores.map (fun n => (d.core n).lease)).sum + d.blw.returning + d.blw.test
/-- The float. -/
def Dev.float (d : Dev) : Nat := d.blw.size - d.reserved - d.leased
/-- Sum of D over all cores. -/
def Dev.inuse (d : Dev) : Nat := (allCores.map (fun n => (d.core n).demand)).sum

/-- PEAK follows INUSE (R946). -/
def Dev.peakUp (d : Dev) : Dev := { d with blw := { d.blw with peak := max d.blw.peak d.inuse } }

end Sys2Proof.Machine
end

