-- ==== Sys2Proof/Machine/Operands.lean ====
section
/-!
DEFINITION. Machine/Operands.lean: the operand forms of the core instructions: registers, handles, scratchpad rows, tiles, element
formats, arrival counters and rings (07, 09, 11).
-/
namespace Sys2Proof.Machine

/-! ### Registers (Table 7-1) -/

/-- x[i]; x0 reads 0. -/
def Core.getX (c : Core) (i : Nat) : W64 := if i = 0 then 0 else SMap.get 0 c.regs.x i
/-- x[i] := w; a write of x0 is ignored. -/
def Core.setX (c : Core) (i : Nat) (w : W64) : Core :=
  if i = 0 then c else { c with regs := { c.regs with x := SMap.set 0 c.regs.x i w } }
/-- f[i]. -/
def Core.getF (c : Core) (i : Nat) : W32 := SMap.get 0 c.regs.f i
/-- f[i] := w. -/
def Core.setF (c : Core) (i : Nat) (w : W32) : Core := { c with regs := { c.regs with f := SMap.set 0 c.regs.f i w } }
/-- p[i]; p0 reads 1. -/
def Core.getP (c : Core) (i : Nat) : Bool := if i = 0 then true else SMap.get false c.regs.p i
/-- p[i] := b; a write of p0 is ignored. -/
def Core.setP (c : Core) (i : Nat) (b : Bool) : Core :=
  if i = 0 then c else { c with regs := { c.regs with p := SMap.set false c.regs.p i b } }
/-- Lane `l` of v[i]. -/
def Core.getL (c : Core) (i l : Nat) : W32 := SMap.get 0 c.regs.v (i * 128 + l)
/-- The 128 lanes of v[i]. -/
def Core.getV (c : Core) (i : Nat) : List W32 := (List.range 128).map (c.getL i)
/-- Write lanes from `k` on. -/
def putLanes : SMap W32 → Nat → List W32 → SMap W32
  | m, _, [] => m
  | m, k, w :: ws => putLanes (SMap.set 0 m k w) (k + 1) ws
/-- v[i] := lanes. -/
def Core.setV (c : Core) (i : Nat) (ws : List W32) : Core :=
  { c with regs := { c.regs with v := putLanes c.regs.v (i * 128) (ws.take 128) } }

/-- Write one result. -/
def Core.writeReg (c : Core) : RegWrite → Core
  | .x i w => c.setX i w
  | .f i w => c.setF i w
  | .p i b => c.setP i b
  | .v i ws => c.setV i ws

/-- Write the results of an operation. -/
def Core.writeRegs (c : Core) (ws : List RegWrite) : Core := ws.foldl Core.writeReg c

/-- Set the address of the next instruction. -/
def Core.setPc (c : Core) (a : W64) : Core := { c with regs := { c.regs with pc := a } }

/-- The predicate of an instruction (R283). -/
def Core.predOn (c : Core) (q : Pred) : Bool := xor (c.getP q.idx.toNat) q.inv

/-- A pending bit can stand only on registers that hold a value: not x0 or p0. -/
def realRegs (rs : List RegId) : List RegId := rs.filter (fun r => decide (r ≠ .x 0) && decide (r ≠ .p 0))

/-- A register of the list is pending (R290). -/
def Core.pendingAny (c : Core) (rs : List RegId) : Bool := rs.any (fun r => c.ops.any (fun o => o.dst.contains r))

/-- A second source: a register or an immediate (Table 8-1). -/
inductive Opnd where
  | reg (i : Nat)
  | imm (w : W64)
  deriving DecidableEq, Repr

/-- Value of a second source. -/
def Core.opnd (c : Core) : Opnd → W64
  | .reg i => c.getX i
  | .imm w => w

/-- Registers a second source reads. -/
def Opnd.regs : Opnd → List RegId
  | .reg i => [.x i]
  | .imm _ => []

/-- Rounding of an instruction (R324). -/
def Core.rmode (c : Core) : Rm → RMode
  | .dyn => fpcRm c.regs.fpc
  | .rne => .rne
  | .rtz => .rtz

/-! ### Handles (Table 11-5) -/

/-- A handle as declared. -/
structure HDesc where
  valid : Bool
  mem : Nat
  base : Nat
  count : Nat
  resident : Bool
  versioned : Bool
  ring : Bool
  remote : Bool
  scratch : Bool
  actr : Option Nat
  deriving DecidableEq, Repr

/-- Decode a handle descriptor (R459). -/
def decodeHandle (w : W64) : HDesc :=
  let n := w.toNat
  { valid := bit1 n 63, mem := bits n 0 2, base := bits n 8 10, count := bits n 18 11,
    resident := bit1 n 32, versioned := bit1 n 33, ring := bit1 n 34, remote := bit1 n 35, scratch := bit1 n 36,
    actr := if bit1 n 46 then some (bits n 40 6) else none }

/-- Handle `h` of the core. -/
def Core.handle (c : Core) (h : Nat) : HDesc := decodeHandle (SMap.get 0 c.rows.handles h)

/-- Logical rows of a memory (Table 11-1). -/
def memRows (mem : Nat) : Nat := if mem = 0 then 1024 else if mem = 1 then 512 else 256

/-- Key of a row among the three memories. -/
def rowKey (mem row : Nat) : Nat := mem * 1024 + row

/-- Bank of a logical row (R445). -/
def bankOf (row : Nat) : Nat := bits row 0 3 ^^^ bits row 3 3 ^^^ bits row 6 3

/-- Logical row that a read of handle row `i` reaches (R470, R471). -/
def Core.readRow (c : Core) (pres : Bool) (h : HDesc) (i : Nat) : Nat :=
  if !h.versioned then h.base + i
  else
    let k := rowKey h.mem (h.base + i)
    let s := SMap.get false c.rows.sel k
    let s := if pres && SMap.get false c.rows.shd k then !s else s
    h.base + i + (if s then h.count else 0)

/-- Logical row that a write of handle row `i` reaches (R470, R471). -/
def Core.writeRow (c : Core) (pres : Bool) (h : HDesc) (i : Nat) : Nat :=
  if !h.versioned then h.base + i
  else
    let s := SMap.get false c.rows.sel (rowKey h.mem (h.base + i))
    let s := if pres then !s else s
    h.base + i + (if s then h.count else 0)

/-- Set SHD for the versioned rows that a PRESOLVING job writes (R471). -/
def Core.markShd (c : Core) (pres : Bool) (h : HDesc) (is : List Nat) : Core :=
  if pres && h.versioned then
    { c with rows := { c.rows with shd := is.foldl (fun m i => SMap.set false m (rowKey h.mem (h.base + i)) true) c.rows.shd } }
  else c

/-- Address of a byte of a scratchpad in `Core.sp`. -/
def spAddr (mem row off : Nat) : Nat := mem * 524288 + row * 512 + off
/-- `n` bytes of a scratchpad row. -/
def Core.spRead (c : Core) (mem row off n : Nat) : List Byte := Memory.readN 0 c.sp (spAddr mem row off) n
/-- A whole row. -/
def Core.spRow (c : Core) (mem row : Nat) : List Byte := c.spRead mem row 0 512
/-- Write bytes of a row. -/
def Core.spWrite (c : Core) (mem row off : Nat) (bs : List Byte) : Core :=
  { c with sp := Memory.writeL 0 c.sp (spAddr mem row off) bs }
/-- Zero whole rows: their words take new check bits. -/
def Core.spZero (c : Core) (mem row n : Nat) : Core :=
  { c with
    sp := Memory.clear c.sp (spAddr mem row 0) (512 * n)
    ecc := SMap.keep (fun k _ => decide (k < rowKey mem row * 64) || decide (rowKey mem (row + n) * 64 ≤ k)) c.ecc }

/-! ### Element formats (Table 9-2) -/

/-- Bytes per element; 0 for RAW. -/
def fmtSize (f : Nat) : Nat :=
  match f with
  | 0 => 4 | 1 => 2 | 2 => 1 | 3 => 1 | 4 => 1 | 5 => 2 | 6 => 4 | _ => 0
/-- Elements per row; 0 for RAW. -/
def fmtElems (f : Nat) : Nat := if fmtSize f = 0 then 0 else 512 / fmtSize f
/-- A format code and its block-size bit are not reserved (R359). -/
def fmtOk (f : Nat) (b : Bool) : Bool := decide (f < 8) && (!b || f == 2)
/-- Block size of the bit. -/
def blockSize (b : Bool) : Nat := if b then 32 else 16

/-- One data row of a tile: handle row, handle row of its scales, place in the group (R361). -/
structure TileRow where
  row : Nat
  srow : Option Nat
  grp : Nat
  deriving DecidableEq, Repr

/-- Data row `i` of a handle in format `f` with block size `s` (R361). -/
def tileRow (f s i : Nat) : TileRow :=
  if f = 2 then { row := i + i / s, srow := some (i / s * (s + 1) + s), grp := i % s }
  else { row := i, srow := none, grp := 0 }

/-- The data rows `first` … `first + n − 1`. -/
def tileRows (f s first n : Nat) : List TileRow := (List.range n).map (fun i => tileRow f s (first + i))

/-- Handle rows that data rows touch, scale rows among them, ascending and without repeats. -/
def touched (rs : List TileRow) : List Nat :=
  (rs.flatMap (fun r => r.row :: r.srow.toList)).eraseDups

/-- A 64-bit sum of a first-row field and a register (R362). -/
def firstRow (o : Nat) (x : W64) : Nat := (o + x.toNat) % 2 ^ 64

/-- Syndromes of a use of a handle: unbound 0x05, rows outside it or a memory not permitted 0x04 (R362). -/
def handleSynd (h : HDesc) (mems : List Nat) (maxRow : Nat) : List Nat :=
  if !h.valid then [5]
  else if !(mems.contains h.mem) || decide (h.count ≤ maxRow) then [4] else []

/-- Highest element of a list. -/
def maxOf (l : List Nat) : Nat := l.foldl max 0
/-- Lowest element of a list. -/
def minOf : List Nat → Nat
  | [] => 0
  | a :: l => l.foldl min a

/-- Lowest of the syndromes (R306). -/
def lowest : List Nat → Option Nat
  | [] => none
  | a :: l => some (l.foldl min a)

/-- Value of an element of format `f` from its bytes and scale byte (Table 10-1, Table 10-3). -/
def elemVal (f : Nat) (bs : List Byte) (scale : Byte) : FVal :=
  let n := ofBytes bs
  match f with
  | 0 => decode32 false (BitVec.ofNat 32 n)
  | 1 => decode16 (BitVec.ofNat 16 n)
  | 2 => decodeScaled (BitVec.ofNat 8 n) scale
  | 3 => decodeCf8 (BitVec.ofNat 8 n)
  | 4 => .ofInt (sx n 8)
  | 5 => .ofInt (sx n 16)
  | 6 => .ofInt (sx n 32)
  | _ => .nan

/-- Elements `from`, …, `n` of them, of a row in format `f`. -/
def rowElems (f : Nat) (row : List Byte) (scale : Nat → Byte) (first n : Nat) : List FVal :=
  (List.range n).map fun i =>
    let j := first + i
    elemVal f ((row.drop (j * fmtSize f)).take (fmtSize f)) (scale j)

/-- Scale bytes of data row place `grp` of a scale row (R361): byte of element `j`. -/
def scaleOf (s grp : Nat) (srow : List Byte) (j : Nat) : Byte := srow.getD (grp * (512 / s) + j / s) 0

/-- Convert elements to binary32 on a load path (Table 10-3): bits unchanged for binary32, CRM for INT32, exact otherwise
apart from R427 and R429. -/
def toB32 (fpc : W32) (f : Nat) (bs : List Byte) (scale : Byte) : W32 :=
  if f = 0 then BitVec.ofNat 32 (ofBytes bs) else encode32 (fpcSubn fpc) (fpcConv fpc) (elemVal f bs scale)

/-! ### Rings and arrival counters (11) -/

/-- Occupancy of a ring (R467). -/
def Core.occupancy (c : Core) (h : Nat) : Nat :=
  let n := 2 * (c.handle h).count
  (SMap.get 0 c.rows.tc h + n - SMap.get 0 c.rows.hc h) % n

/-- An arrival counter has reached a value, as unsigned (R398). -/
def Core.arrived (c : Core) (i : Nat) (t : W32) : Bool := decide (t.toNat ≤ (SMap.get 0 c.rows.arr i).toNat)

/-- An arr.wait on counter `i` is satisfied once the counter reaches its value (R398). -/
def Core.seeArr (c : Core) (i : Nat) : Core :=
  match c.wait with
  | .arr k t sat => if k = i then { c with wait := .arr k t (sat || c.arrived k t) } else c
  | _ => c

/-- Count one arrival on the counter of a handle (R386, R391). -/
def Core.arrive (c : Core) (a : Option Nat) : Core :=
  match a with
  | some i =>
    { c with rows := { c.rows with
        arr := SMap.upd 0 c.rows.arr i (· + 1), arrNow := SMap.upd 0 c.rows.arrNow i (· + 1) } }.seeArr i
  | none => c

/-- arr.set: an arrival of the same FCLK cycle comes after it (R399). -/
def Core.arrPut (c : Core) (i : Nat) (v : W32) : Core :=
  { c with rows := { c.rows with arr := SMap.set 0 c.rows.arr i (v + SMap.get 0 c.rows.arrNow i) } }

/-- An FCLK cycle ends: what arrives later belongs to the next one. -/
def Core.arrEnd (c : Core) : Core := { c with rows := { c.rows with arrNow := [] } }

end Sys2Proof.Machine
end

