-- ==== Sys2Proof/Machine/Flags.lean ====
section
/-!
DEFINITION. Machine/Flags.lean: the event flags of a core (R310), the flags of a completion (Table 5-3), comparisons, and the performance
counters (R874).
-/
namespace Sys2Proof.Machine

/-- Change `COR_EVT`. -/
def Core.flag (c : Core) (f : CorEvt → CorEvt) : Core := { c with evt := f c.evt }

/-- `COR_EVT` as a register (R310). -/
def CorEvt.word (e : CorEvt) : Nat :=
  b2n e.budgOvr + place (b2n e.emberLate) 1 1 + place (b2n e.tokStall) 2 1 + place (b2n e.fault) 3 1 +
  place (b2n e.quench) 4 1 + place e.ovrPhase.toNat 8 6

/-- `COR_EVT` after a write of `w` (W1C bits). -/
def CorEvt.clear (e : CorEvt) (w : Nat) : CorEvt :=
  { e with budgOvr := e.budgOvr && !bit1 w 0, emberLate := e.emberLate && !bit1 w 1,
           tokStall := e.tokStall && !bit1 w 2, fault := e.fault && !bit1 w 3, quench := e.quench && !bit1 w 4 }

/-- CFLAGS of a completion entry (Table 5-3). -/
def cflags (sq rt ov el ts of : Bool) : Nat :=
  b2n sq + 2 * b2n rt + 4 * b2n ov + 8 * b2n el + 16 * b2n ts + 32 * b2n of

/-- The six integer comparisons (Table 8-7), in the order of their minor opcodes. -/
inductive CmpK where
  | eq | ne | lt | ge | ltu | geu
  deriving DecidableEq, Repr

/-- An integer comparison (R332). -/
def CmpK.eval (k : CmpK) (a b : W64) : Bool :=
  match k with
  | .eq => a == b
  | .ne => a != b
  | .lt => a.slt b
  | .ge => b.sle a
  | .ltu => a.ult b
  | .geu => b.ule a

/-- The four binary32 comparisons. -/
inductive FcmpK where
  | eq | lt | le | un
  deriving DecidableEq, Repr

/-- A binary32 comparison (R332, R333, R429). -/
def FcmpK.eval (k : FcmpK) (fpc a b : W32) : Bool :=
  let x := rd32 fpc a
  let y := rd32 fpc b
  match k with
  | .eq => x.eqv y
  | .lt => !x.isNan && !y.isNan && x.lt y
  | .le => x.le y
  | .un => x.isNan || y.isNan

/-- The predicate operations (Table 8-7). -/
inductive PlogK where
  | and | or | xor | andn
  deriving DecidableEq, Repr

/-- A predicate operation (R332). -/
def PlogK.eval (k : PlogK) (a b : Bool) : Bool :=
  match k with
  | .and => a && b
  | .or => a || b
  | .xor => a != b
  | .andn => a && !b

/-- The modes of rcount (R402). -/
def countHit (mode : Nat) (e t : FVal) : Bool :=
  match mode with
  | 0 => !e.isNan && !t.isNan && t.lt e
  | 1 => t.le e
  | 2 => !e.isNan && !t.isNan && e.lt t
  | 3 => e.le t
  | 4 => !e.isNan && !t.isNan && t.lt e.abs
  | _ => !e.eqv t

/-- Counters with `k` events of code `ev` more on those that select it. -/
def pmcBump (sel : SMap W32) (ev k : Nat) (m : SMap W64) (i : Nat) : SMap W64 :=
  if (SMap.get 0 sel i).toNat = ev then SMap.upd 0 m i (fun v => BitVec.ofNat 64 ((v.toNat + k) % 2 ^ 48)) else m

/-- Count `k` events of code `ev` on the counters of a core that select it (R874). -/
def Core.pmcAdd (c : Core) (ev k : Nat) : Core :=
  { c with dbg := { c.dbg with pmc := [0, 1, 2, 3].foldl (pmcBump c.dbg.pmcSel ev k) c.dbg.pmc } }

end Sys2Proof.Machine
end

