-- ==== Sys2Proof/Machine/Ending.lean ====
section
/-!
DEFINITION. Machine/Ending.lean: how a job ends (01, 07, 24): stopping its core set, quench, faults, halts.
-/
namespace Sys2Proof.Machine

/-- Key and job of the run on core `n`. -/
def Dev.coreJob (d : Dev) (n : Nat) : Option (Nat × Job) :=
  match (d.core n).job with
  | some k => (d.job k).map (fun j => (k, j))
  | none => none

/-- The lead core of a job (R228). -/
def Job.lead (j : Job) : Nat := j.cores.headD 0

/-- The comparator of the job fires, or has fired (R29, R30); it is suspended while the set is halted (R866). -/
def Dev.expired (d : Dev) (j : Job) : Bool := j.halt.isNone && (j.fired || decide (j.deadline ≤ d.now))

/-- Issue stops on a core and what is in flight is cancelled; a DMA write or a remote transfer in progress is kept and
drains, what is queued behind it is dropped (Table 1-2 steps 2-4, R401, log 10). -/
def Core.stop (c : Core) (keepWait : Bool) : Core :=
  let dq := match c.dmaq with
    | t :: _ => if t.rd then [] else [t]
    | [] => []
  let rq := c.rq.take 1
  { c with
    run := false
    wait := if keepWait then c.wait else .none
    tok := { c.tok with iend := c.tok.iend + (c.ops.map Op.ilease).sum }
    haz := { c.haz with regAt := none }
    ops := []
    dmaDone := c.dmaDone + (c.dmaq.length - dq.length)
    remDone := c.remDone + (c.rq.length - rq.length)
    dmaq := dq
    rq := rq
    spec := { c.spec with ra := none, waitCyc := 0, wrong := false } }

/-- The core READs in flight of a job's set are cancelled (R259). -/
def Dev.cancelReads (d : Dev) (j : Job) : Dev :=
  { d with syn := { d.syn with pend := d.syn.pend.filter (fun p => match p.op with
      | .read c _ => !j.cores.contains c
      | _ => true) } }

/-- Stop every core of a job's set; a core READ in flight is cancelled (R259). -/
def Dev.stopSet (d : Dev) (j : Job) (keepWait : Bool) : Dev := (d.updCores j.cores (fun c => c.stop keepWait)).cancelReads j

/-- A run ends on a core: the residency tag takes its values (R479). -/
def Core.endRun (c : Core) (j : Job) : Core := { c with tag := some (j.tenant, BitVec.ofNat 32 j.prog, j.n) }

/-- Fix the outcome of the job with key `k` in the FCLK cycle that runs; the sequence of Table 1-2 follows. A job ends once. -/
def Dev.endJob (d : Dev) (k : Nat) (f : JobEnd) : Dev :=
  d.updJob k (fun j =>
    if j.fin.isSome then j
    else { j with st := .ending, fin := some { f with fclk := d.fno }, loading := false, squashing := false, stopped := false })

/-- The budget counter of core `n` has reached 0 (R60). -/
def Dev.budgetExpire (d : Dev) (n : Nat) : Dev :=
  let c := d.core n
  if !c.regs.budgDue then d
  else
    let d := d.updCore n (fun c =>
      { c.flag (fun e => { e with budgOvr := true, ovrPhase := BitVec.ofNat 6 c.regs.phase }) with
        regs := { c.regs with budgDue := false, budgOn := false } })
    let d := match c.job with
      | some k => d.updJob k (fun j => { j with overrun := true })
      | none => d
    d.trace n 0x07 c.regs.phase

/-- Steps 2 and 3 of Table 1-2: issue stops on every core of the set of a job whose end is fixed, and what is in flight is
cancelled. They come with the FCLK cycle after the one that fixed the end, and before any later step. -/
def Dev.stopJob (d : Dev) (k : Nat) : Dev :=
  match d.job k with
  | none => d
  | some j =>
    if j.fin.isNone || j.stopped then d
    else (((j.cores.foldl Dev.budgetExpire d).stopSet j false).updCores j.cores (·.endRun j)).updJob k (fun j => { j with stopped := true })

/-- The recorded ember of a job: the lead core's. -/
def Dev.emberOf (d : Dev) (j : Job) : Option Ember := if j.onCores then (d.core j.lead).ember else none

/-- Quench of a job: the comparator has fired (R29, R42, R43). -/
def Dev.quench (d : Dev) (k : Nat) : Dev :=
  match d.job k with
  | none => d
  | some j =>
    if j.fin.isSome then d else
    let e := d.emberOf j
    let f : JobEnd :=
      { final := if e.isSome then 0x01 else 0x02, detail := 0, time := BitVec.ofNat 64 j.deadline,
        resid := (e.map Ember.resid).getD 0x7FC00000, iter := (e.map Ember.iter).getD 0,
        ember := (e.map Ember.rows).getD 0, rows := [], written := false, retry := false,
        emberTime := e.map Ember.time, fclk := d.fno, idx := 0 }
    let d := (d.endJob k f).updJob k (fun j => { j with fired := true })
    (d.updCores j.cores (·.flag (fun v => { v with quench := true }))).trace j.lead 0x04 j.tag

/-- The end of a job as FAULT with `detail` at the current time (R44, Table 5-4), by a fault on the core with index `idx`. -/
def Dev.faultEnd (d : Dev) (j : Job) (detail : W32) (idx : Nat) : JobEnd :=
  { final := 0x06, detail := detail, time := d.glb.time, resid := 0x7FC00000, iter := 0, ember := 0, rows := [],
    written := true, retry := false, emberTime := (d.emberOf j).map Ember.time, fclk := d.fno, idx := idx }

/-- DETAIL of a fault: syndrome and instruction address (Table 5-4). -/
def faultDetail (synd iaddr : Nat) : W32 := BitVec.ofNat 32 (synd + place iaddr 8 24)

/-- IADDR of a fault that no instruction owns. -/
def noAddr : Nat := 0xFFFFFF

/-- Record a fault on its core: `COR_EVT.FAULT`, and `COR_FAULT` while VALID = 0 (R311). -/
def Core.recordFault (c : Core) (j : Job) (synd iaddr : Nat) : Core :=
  let c := c.flag (fun v => { v with fault := true })
  let w := synd + place iaddr 8 24 + place j.queue 32 16 + place j.tenant 48 7 + place c.idx 56 5 + place 1 63 1
  if c.fault.getLsbD 63 then c else { c with fault := BitVec.ofNat 64 w }

/-- Mark the cores of a set halted. -/
def Dev.markHalt (d : Dev) (j : Job) (b : Bool) : Dev :=
  d.updCores j.cores (fun c => { c with dbg := { c.dbg with halted := b } })

/-- A fault goes before the end `f` that the same FCLK cycle has fixed: before a job.done (R307), and before a fault of a core with
a higher `coreidx`, or of the same core with a higher syndrome (R306). -/
def JobEnd.yields (f : JobEnd) (idx synd : Nat) : Bool :=
  f.final != 0x06 || decide (idx < f.idx) || (f.idx == idx && decide (synd < f.detail.toNat % 256))

/-- The end of a set by a fault in debug mode with HALTFAULT: issue stops and the set is halted (R866). -/
def Dev.faultHalt (d : Dev) (k : Nat) (j : Job) : Dev :=
  if d.dbg.on && d.dbg.haltFault then
    ((d.stopJob k).updJob k (fun j => { j with halt := some true })).markHalt j true
  else d

/-- A fault taken on core `n` (R44, R303-R307): recorded there; the job ends FAULT, unless its comparator has fired (R42) or
the debug mode halts the set (R866). In the FCLK cycle that has fixed the end already a fault is still recorded (R42, R311), and the
completion reports it where R306 or R307 says so; a fault that comes later changes nothing. -/
def Dev.coreFault (d : Dev) (n synd iaddr : Nat) : Dev :=
  match d.coreJob n with
  | none => d
  | some (k, j) => match j.fin with
    | some f =>
      if f.fclk ≠ d.fno || j.stopped then d
      else
        let d := d.updCore n (·.recordFault j synd iaddr)
        let i := (d.core n).idx
        if j.fired || f.retry || !f.yields i synd then d
        else (d.updJob k (fun j => { j with fin := some (d.faultEnd j (faultDetail synd iaddr) i) })).faultHalt k j
    | none =>
      let d := d.updCore n (·.recordFault j synd iaddr)
      if d.expired j then d.quench k
      else (d.endJob k (d.faultEnd j (faultDetail synd iaddr) (d.core n).idx)).faultHalt k j

/-- A fault of a job that no instruction owns, taken on its lead core. -/
def Dev.jobFault (d : Dev) (k synd : Nat) : Dev :=
  match d.job k with
  | none => d
  | some j => d.coreFault j.lead synd noAddr

/-- A fault of a job whose end may be fixed already: while the completion is not written and the comparator has not fired, the
job ends FAULT (R852). -/
def Dev.lateFault (d : Dev) (k synd : Nat) : Dev :=
  match d.job k with
  | none => d
  | some j =>
    if j.fired then d
    else if j.fin.isNone then d.jobFault k synd
    else if !j.onCores then d
    else
      (d.updCore j.lead (·.recordFault j synd noAddr)).updJob k (fun j =>
        { j with fin := some { d.faultEnd j (faultDetail synd noAddr) 0 with
            time := (j.fin.map JobEnd.time).getD d.glb.time } })

end Sys2Proof.Machine
end

