-- ==== Sys2Proof/Machine/Issue.lean ====
section
/-!
DEFINITION. Machine/Issue.lean: what every core instruction shares: the family-level form an instruction decodes to, the issue rule and its
interlocks (R290, R294, R941), ranges, ports, tokens, faults at issue, and the passing of a CCLK.
-/
namespace Sys2Proof.Machine

/-- Integer operations of Table 8-1, in the order of their minor opcodes. -/
inductive AluK where
  | add | sub | and | or | xor | shl | shr | sra | min | max | minU | maxU
  deriving DecidableEq, Repr

/-- Multiply and divide operations of Table 8-2, in the order of their minor opcodes. -/
inductive MdK where
  | mulU | mulS | mulhU | mulhS | divU | divS | remU | remS
  deriving DecidableEq, Repr

/-- Two-operand binary32 operations, scalar and lane-wise. -/
inductive FbinK where
  | add | sub | mul | min | max
  deriving DecidableEq, Repr

/-- Conversions between x and f registers (Table 8-5, major 0x21). -/
inductive FcvtK where
  | mvX | mvF | sL | sLu | lS | luS
  deriving DecidableEq, Repr

/-- Tile operands as numbers (Table 9-1). -/
structure TileOp where
  h : Nat
  o : Nat
  n : Nat
  f : Nat
  b : Bool
  deriving DecidableEq, Repr

/-- A tile as the syntax gives it. -/
def TileOp.of (t : Tile) : TileOp := { h := t.h.toNat, o := t.o.toNat, n := t.n.toNat, f := t.f.toNat, b := t.b }

/-- A core instruction as the issue stage sees it. -/
inductive CoreOp where
  | alu (k : AluK) (d a : Nat) (b : Opnd)
  | sel (d a b c : Nat)
  | md (k : MdK) (d a b : Nat)
  | ld (isF : Bool) (d a h : Nat) (imm : W64)
  | st (isF : Bool) (a b h : Nat) (imm : W64)
  | fbin (k : FbinK) (d a b : Nat) (rm : Rm)
  | fma (d a b c : Nat) (rm : Rm)
  | fsign (clear : Bool) (d a : Nat)
  | fdiv (d a b : Nat) (rm : Rm)
  | fsqrt (d a : Nat) (rm : Rm)
  | fcvt (k : FcvtK) (d a : Nat) (rm : Rm)
  | fli (d : Nat) (imm : W32)
  | jmp (imm : W64)
  | jmpr (a : Nat)
  | call (d : Nat) (imm : W64)
  | loop (d a : Nat) (imm : W64)
  | cmp (k : CmpK) (d a : Nat) (b : Opnd)
  | fcmp (k : FcmpK) (d a b : Nat)
  | plog (k : PlogK) (d a b : Nat)
  | srRead (d sr : Nat)
  | srWrite (a : Nat)
  | syncAdd (a : Nat) (b : Opnd)
  | syncSet (a b : Nat)
  | syncRead (d a : Nat)
  | syncWait (a b : Nat)
  | phase (p : Nat)
  | emberSave (a b h rows first : Nat)
  | jobDone (a b c h rows status first : Nat)
  | specAccept (a : Nat)
  | vld (d a h f : Nat) (b32 : Bool) (part imm : Nat)
  | vst (a b c h f : Nat) (b32 : Bool) (part : Nat) (expl : Bool) (imm : Nat)
  | vbin (k : FbinK) (d a b : Nat) (rm : Rm)
  | vfma (d a b c : Nat) (rm : Rm)
  | vsign (clear : Bool) (d a : Nat)
  | vbcast (d a : Nat)
  | vext (d a b : Nat)
  | vins (d a b : Nat)
  | vsum (d a : Nat) (rm : Rm)
  | vdot (d a b : Nat) (rm : Rm)
  | vamax (d a : Nat)
  | tsum (d c a b : Nat)
  | vres (d a b c : Nat)
  | vexp (d a : Nat)
  | mma (t0 t1 : TileOp) (h2 o2 xa xb xc : Nat) (acc : Bool) (kch q : Nat)
  | dmaRd (t : TileOp) (f1 : Nat) (b1 : Bool) (xa xb xc : Nat) (async : Bool)
  | dmaWr (t : TileOp) (f1 : Nat) (b1 : Bool) (xa xb xc : Nat)
  | rwPut (h0 o0 n0 h1 o1 xb xc : Nat)
  | ringPush (h0 o0 n0 h1 xb : Nat)
  | ringHead (d h : Nat)
  | ringAvail (d h : Nat)
  | ringPop (a h : Nat)
  | arrWait (b i : Nat)
  | arrRead (d i : Nat)
  | arrSet (b i : Nat)
  | xferFence
  | rcount (d a b h rows mode f imm : Nat)
  deriving DecidableEq, Repr

/-- Registers an instruction reads. -/
def CoreOp.srcs : CoreOp → List RegId
  | .alu _ _ a b => .x a :: b.regs
  | .sel _ a b c => [.x a, .x b, .p c]
  | .md _ _ a b => [.x a, .x b]
  | .ld _ _ a _ _ => [.x a]
  | .st isF a b _ _ => [.x a, if isF then .f b else .x b]
  | .fbin _ _ a b _ => [.f a, .f b]
  | .fma _ a b c _ => [.f a, .f b, .f c]
  | .fsign _ _ a => [.f a]
  | .fdiv _ a b _ => [.f a, .f b]
  | .fsqrt _ a _ => [.f a]
  | .fcvt k _ a _ => match k with
    | .mvF | .sL | .sLu => [.x a]
    | _ => [.f a]
  | .fli _ _ => []
  | .jmp _ => []
  | .jmpr a => [.x a]
  | .call _ _ => []
  | .loop _ a _ => [.x a]
  | .cmp _ _ a b => .x a :: b.regs
  | .fcmp _ _ a b => [.f a, .f b]
  | .plog _ _ a b => [.p a, .p b]
  | .srRead _ _ => []
  | .srWrite a => [.x a]
  | .syncAdd a b => .x a :: b.regs
  | .syncSet a b => [.x a, .x b]
  | .syncRead _ a => [.x a]
  | .syncWait a b => [.x a, .x b]
  | .phase _ => []
  | .emberSave a b _ _ _ => [.x a, .f b]
  | .jobDone a b c _ _ _ _ => [.x a, .f b, .x c]
  | .specAccept a => [.p a]
  | .vld _ a _ _ _ _ _ => [.x a]
  | .vst a b c _ _ _ _ expl _ => .x a :: .v b :: (if expl then [.x c] else [])
  | .vbin _ _ a b _ => [.v a, .v b]
  | .vfma _ a b c _ => [.v a, .v b, .v c]
  | .vsign _ _ a => [.v a]
  | .vbcast _ a => [.f a]
  | .vext _ a b => [.v a, .x b]
  | .vins d a b => [.v d, .f a, .x b]
  | .vsum _ a _ => [.v a]
  | .vdot _ a b _ => [.v a, .v b]
  | .vamax _ a => [.v a]
  | .tsum _ _ a b => [.v a, .v b]
  | .vres _ a b c => [.v a, .v b, .v c]
  | .vexp _ a => [.v a]
  | .mma _ _ _ _ xa xb xc _ _ _ => [.x xa, .x xb, .x xc]
  | .dmaRd _ _ _ xa xb xc _ => [.x xa, .x xb, .x xc]
  | .dmaWr _ _ _ xa xb xc => [.x xa, .x xb, .x xc]
  | .rwPut _ _ _ _ _ xb xc => [.x xb, .x xc]
  | .ringPush _ _ _ _ xb => [.x xb]
  | .ringHead _ _ => []
  | .ringAvail _ _ => []
  | .ringPop a _ => [.x a]
  | .arrWait b _ => [.x b]
  | .arrRead _ _ => []
  | .arrSet b _ => [.x b]
  | .xferFence => []
  | .rcount _ a b _ _ _ f _ => [.x a, if f = 0 then .f b else .x b]

/-- Registers an instruction writes. -/
def CoreOp.dsts : CoreOp → List RegId
  | .alu _ d _ _ => [.x d]
  | .sel d _ _ _ => [.x d]
  | .md _ d _ _ => [.x d]
  | .ld isF d _ _ _ => [if isF then .f d else .x d]
  | .fbin _ d _ _ _ => [.f d]
  | .fma d _ _ _ _ => [.f d]
  | .fsign _ d _ => [.f d]
  | .fdiv d _ _ _ => [.f d]
  | .fsqrt d _ _ => [.f d]
  | .fcvt k d _ _ => match k with
    | .mvX | .lS | .luS => [.x d]
    | _ => [.f d]
  | .fli d _ => [.f d]
  | .call d _ => [.x d]
  | .loop d _ _ => [.x d]
  | .cmp _ d _ _ => [.p d]
  | .fcmp _ d _ _ => [.p d]
  | .plog _ d _ _ => [.p d]
  | .srRead d _ => [.x d]
  | .syncRead d _ => [.x d]
  | .vld d _ _ _ _ _ _ => [.v d]
  | .vbin _ d _ _ _ => [.v d]
  | .vfma d _ _ _ _ => [.v d]
  | .vsign _ d _ => [.v d]
  | .vbcast d _ => [.v d]
  | .vext d _ _ => [.f d]
  | .vins d _ _ => [.v d]
  | .vsum d _ _ => [.f d]
  | .vdot d _ _ _ => [.f d]
  | .vamax d _ => [.f d]
  | .tsum d c _ _ => [.v d, .v c]
  | .vres d _ _ _ => [.v d]
  | .vexp d _ => [.x d]
  | .ringHead d _ => [.x d]
  | .ringAvail d _ => [.x d]
  | .arrRead d _ => [.x d]
  | .rcount d _ _ _ _ _ _ _ => [.x d]
  | _ => []

/-- The unit an instruction occupies, where its unit can be busy (R292, R326, R363). -/
def CoreOp.unit? : CoreOp → Option OpUnit
  | .md k _ _ _ => match k with
    | .mulU | .mulS | .mulhU | .mulhS => some .mul
    | _ => some .div
  | .fdiv _ _ _ _ => some .fdiv
  | .fsqrt _ _ _ => some .fdiv
  | .mma _ _ _ _ _ _ _ _ _ _ => some .mxe
  | _ => none

/-- Token cost w of a heavy instruction (Table 12-1). -/
def CoreOp.cost : CoreOp → Nat
  | .mma _ _ _ _ _ _ _ _ _ _ => 2
  | .vbin _ _ _ _ _ => 1
  | .vfma _ _ _ _ _ => 1
  | .vsign _ _ _ => 1
  | .vbcast _ _ => 1
  | .vext _ _ _ => 1
  | .vins _ _ _ => 1
  | .vsum _ _ _ => 1
  | .vdot _ _ _ _ => 1
  | .vamax _ _ => 1
  | .tsum _ _ _ _ => 1
  | .vres _ _ _ _ => 1
  | .vexp _ _ => 1
  | _ => 0

/-- A branch (Table 8-6). -/
def CoreOp.isBranch : CoreOp → Bool
  | .jmp _ | .jmpr _ | .call _ _ | .loop _ _ _ => true
  | _ => false

/-- A permitted pair of formats of a transfer (R382). -/
def dmaPair (rd : Bool) (f0 f1 : Nat) : Bool :=
  f0 == f1 ||
  ([0, 1, 3].contains f0 && [0, 1, 3].contains f1) ||
  (rd && [4, 5, 6].contains f1 && f0 == 0) ||
  (f0 == 2 && [0, 1, 3].contains f1)

/-- Reserved values of a transfer's fields (R359, R382, R384, R444). -/
def dmaReserved (rd : Bool) (t : TileOp) (f1 : Nat) (b1 : Bool) (xc : Nat) : Bool :=
  !fmtOk t.f t.b || !fmtOk f1 b1 || !dmaPair rd t.f f1 || (f1 == 2 && (t.b != b1 || xc != 0))

/-- Cost c of an element in the MXE. -/
def mxeCost (f : Nat) : Nat := if f = 1 then 4 else if f = 0 then 16 else 1

/-- Reserved values of mxe.mma (R375, R376, R378). -/
def mmaReserved (t0 t1 : TileOp) (kch : Nat) : Bool :=
  let cf (f : Nat) : Bool := f == 2 || f == 3
  let bsz (t : TileOp) : Nat := if t.f = 2 then blockSize t.b else 32
  !fmtOk t0.f t0.b || !fmtOk t1.f t1.b || decide (32 ≤ t0.n) || decide (32 ≤ t1.n) ||
  !((cf t0.f && cf t1.f && bsz t0 == bsz t1) || (t0.f == 1 && t1.f == 1) || (t0.f == 0 && t1.f == 0)) ||
  decide (fmtElems t0.f < 32 * (kch + 1)) || decide (fmtElems t1.f < 32 * (kch + 1))

/-- A reserved value in a field that this form can hold: Illegal Instruction (R16, R287, R288, R342, R359, R367-R369, R372,
R402). -/
def CoreOp.reserved : CoreOp → Bool
  | .emberSave _ _ h rows first => decide (8 < rows) || (rows == 0 && (h != 0 || first != 0))
  | .jobDone _ _ _ h rows _ first => decide (8 < rows) || (rows == 0 && (h != 0 || first != 0))
  | .vld _ _ _ f b32 part _ => !fmtOk f b32 || f == 7 || decide (fmtElems f / 128 ≤ part)
  | .vst _ _ c _ f b32 part expl _ =>
    !fmtOk f b32 || decide (3 < f) || decide (fmtElems f / 128 ≤ part) || (expl && f != 2) || (!expl && c != 0)
  | .tsum d c _ _ => d == c
  | .mma t0 t1 _ _ _ _ _ _ kch _ => mmaReserved t0 t1 kch
  | .dmaRd t f1 b1 _ _ xc _ => dmaReserved true t f1 b1 xc
  | .dmaWr t f1 b1 _ _ xc => dmaReserved false t f1 b1 xc
  | .rcount _ _ _ _ rows mode f _ => decide (rows = 0) || decide (16 < rows) || decide (5 < mode) || (f != 0 && f != 6)
  | _ => false

/-- The reserved predicate encoding (R284). -/
def predReserved (q : Pred) : Bool := q.inv && q.idx == 0

/-- The always-true predicate. -/
def predAlways (q : Pred) : Bool := !q.inv && q.idx == 0

/-! ### A CCLK of a core -/

/-- Events of Table 24-6 that a core counts in a CCLK: it runs, it waits, its MXE is occupied, its VU is active. -/
def Core.cycleEvents (c : Core) : List Nat :=
  (if c.run then [0x01] else []) ++ (if c.wait = .none then [] else [0x06]) ++ (if c.mxeBusy then [0x0C] else []) ++
    (if c.vuActive then [0x0D] else [])

/-- The counters of a core with one event more of each of several codes. -/
def CoreDbg.countAll (g : CoreDbg) (evs : List Nat) : CoreDbg :=
  { g with pmc := evs.foldl (fun m ev => [0, 1, 2, 3].foldl (pmcBump g.pmcSel ev 1) m) g.pmc }

/-- A wait that run-ahead can use (R531). -/
def Wait.raWait : Wait → Bool
  | .sync _ _ _ => true
  | .arr _ _ _ => true
  | .fence => true
  | _ => false

/-- An operation after one CCLK of its latency and its occupancy. -/
def Op.ticked (o : Op) : Op := { o with left := o.left - 1, occ := o.occ - 1 }
/-- An operation whose active interval has ended holds no instruction lease any more (R514). -/
def Op.endLease (o : Op) : Op := if o.occ = 0 then { o with ilease := 0 } else o
/-- An operation after a CCLK of its core. -/
def Op.passed (o : Op) : Op := o.ticked.endLease

/-- The budget counter after one CCLK in which the core runs or not (R59, R60). -/
def CoreRegs.budgetCycle (r : CoreRegs) (run : Bool) : CoreRegs :=
  { r with
    budget := if run && r.budgOn && decide (0 < r.budget.toNat) then r.budget - 1 else r.budget
    budgDue := r.budgDue || (run && r.budgOn && decide (r.budget = 1)) }

/-- A bank after a CCLK: free again; a cycle without a grant ends a run of blocked narrow requests and a reservation (R446, R450). -/
def Bank.cycle (b : Bank) : Bank := { b with used := false, starve := if b.used then b.starve else 0 }

/-- The pending writes of a row after one of kind `kind` has been done. -/
def pendLess (kind : Nat) (v : Nat × Nat) : Nat × Nat := if kind = 1 then (v.1 - 1, v.2) else (v.1, v.2 - 1)

/-- The rows written in the CCLK that ends are no longer PENDING (R567). -/
def Haz.cycle (h : Haz) : Haz :=
  { h with pend := h.fall.foldl (fun m e => SMap.upd (0, 0) m e.1 (pendLess e.2)) h.pend, fall := [] }

/-- The condition that a run-ahead wait holds issue for is met (R256, R398, R400). -/
def Core.waitOver (c : Core) : Bool :=
  match c.wait with
  | .sync _ _ sat => sat
  | .arr _ _ sat => sat
  | .fence => c.dmaq.isEmpty && c.rq.isEmpty
  | _ => false

/-- What passes in a CCLK at the scratchpads, whether or not the core is halted: the banks and ports are free again, the rows written
are resident, and after a squash SHD is cleared once no versioned write is in flight (R446-R450, R473, R567). -/
def Core.rowCycle (c : Core) : Core :=
  { c with
    banks := SMap.mapV {} (fun _ b => b.cycle) c.banks
    ported := []
    haz := c.haz.cycle
    rows := if c.rows.drop && !(c.ops.any Op.versioned) then { c.rows with shd := [] } else c.rows }

/-- One CCLK of a core (R59, R291, R446): latencies and occupancies run, the budget counts; a run-ahead window ends with the wait
(R535). A halted core only frees its banks (R866). -/
def Core.cycle (c : Core) : Core :=
  if c.dbg.halted then c.rowCycle else
  { c.rowCycle with
    ops := c.ops.map Op.ticked
    regs := c.regs.budgetCycle c.run
    dbg := c.dbg.countAll c.cycleEvents
    spec := { c.spec with
      ra := if c.waitOver then none else c.spec.ra
      redirect := c.spec.redirect - 1
      waitCyc := if c.wait.raWait then c.spec.waitCyc + 1 else 0 } }

/-- The instruction leases of operations whose active interval has ended (R514). -/
def Core.endLeases (c : Core) : Core :=
  { c with
    ops := c.ops.map Op.endLease
    tok := { c.tok with iend := c.tok.iend + ((c.ops.filter (fun o => decide (o.occ = 0))).map Op.ilease).sum } }

/-- Ended instruction leases are returned, but for what D still needs (R503, R514). -/
def Dev.settleLeases (d : Dev) (n : Nat) : Dev :=
  let d := d.updCore n Core.endLeases
  let c := d.core n
  let k := min c.tok.iend (c.cover - c.demand)
  { d.updCore n (fun c => { c with tok := { c.tok with iend := c.tok.iend - k } }) with
    blw := { d.blw with returning := d.blw.returning + k } }

/-- One CCLK of core `n`. -/
def Dev.cycle (d : Dev) (n : Nat) : Dev := (d.updCore n Core.cycle).settleLeases n

/-- Add an operation in flight. -/
def Core.addOp (c : Core) (o : Op) : Core :=
  { c with ops := c.ops ++ [{ o with seq := c.nextSeq, dst := realRegs o.dst }], nextSeq := c.nextSeq + 1 }

/-- An operation with its results formed. -/
def regsOp (unit : OpUnit) (ws : List RegWrite) (dst : List RegId) (lat : Nat) (cost ilease : Nat) (fp : Bool) : Op :=
  { seq := 0, unit := unit, kind := .regs ws, dst := dst, left := lat, occ := lat, cost := cost, ilease := ilease,
    fp := fp, versioned := false, holds := [] }

/-! ### Ranges and ports (11) -/

/-- Ranges of a waiting instruction: those of a job.done. -/
def Wait.holds : Wait → List Hold
  | .done _ _ _ _ _ _ _ hs => hs
  | _ => []

/-- Ranges a core holds. -/
def Core.holds (c : Core) : List Hold :=
  (c.ops.flatMap Op.holds ++ c.dmaq.flatMap Dma.holds ++ c.rq.flatMap Remote.holds ++ c.wait.holds).filter
    (fun h => decide (h.left ≠ []))

/-- A new range over logical rows; nothing where there is no row. -/
def mkHold (wr : Bool) (mem : Nat) (rows : List Nat) : List Hold :=
  if rows = [] then [] else [{ wr := wr, mem := mem, hi := maxOf rows, left := rows }]

/-- Two ranges overlap and one of them writes (R455, R456, R458). -/
def Hold.conflicts (a b : Hold) : Bool :=
  (a.wr || b.wr) && a.mem == b.mem && decide (minOf a.left ≤ b.hi) && decide (minOf b.left ≤ a.hi)

/-- The ranges of an instruction must wait: a conflict, or more than 32 ranges (R455, R457). -/
def Core.rangeBlocked (c : Core) (hs : List Hold) : Bool :=
  hs.any (fun h => c.holds.any (fun g => h.conflicts g)) || (decide (hs ≠ []) && decide (32 < c.holds.length + hs.length))

/-- Forget a row of a range once it has been read or written (R456). -/
def Hold.release (mem row : Nat) (wr : Bool) (h : Hold) : Hold :=
  if h.mem = mem && h.wr == wr then { h with left := h.left.filter (· != row) } else h

/-- Ungranted request of an operation at the VU port: memory and row (R448, R942). -/
def Op.vuReq (o : Op) : Option (Nat × Nat) :=
  match o.kind with
  | .vload _ m r sr _ _ _ _ _ got => some (m, if got.isSome then sr.getD r else r)
  | .vstore m r _ _ sr _ _ stage =>
    if stage = 0 then (if 0 < o.left then none else some (m, r)) else if stage = 1 then some (m, sr) else none
  | .count _ _ _ _ _ m rows _ => rows.head?.map (fun r => (m, r))
  | .ember todo _ _ _ => todo.head?
  | _ => none

/-- Ungranted request of an operation at the NARROW port. -/
def Op.narrowReq (o : Op) : Option (Nat × Nat) :=
  match o.kind with
  | .load _ m r _ _ => some (m, r)
  | .store m r _ _ => some (m, r)
  | _ => none

/-- The VU port of a memory holds an ungranted request. -/
def Core.vuPortBusy (c : Core) (mem : Nat) : Bool :=
  c.ops.any (fun o => match o.vuReq with
    | some (m, _) => m == mem
    | none => false)

/-- The NARROW port of a memory holds an ungranted request. -/
def Core.narrowPortBusy (c : Core) (mem : Nat) : Bool :=
  c.ops.any (fun o => match o.narrowReq with
    | some (m, _) => m == mem
    | none => false)

/-! ### Hazard detector (14) -/

/-- A row is PENDING with kind 1, from a remote write or a ring push, or 2, from an ASYNC dma.rd (R567). -/
def Core.pending (c : Core) (kind mem row : Nat) : Bool :=
  let v := SMap.get (0, 0) c.haz.pend (rowKey mem row)
  decide (0 < (if kind = 1 then v.1 else v.2))

/-- One more write pending on a row. -/
def Core.pendAdd (c : Core) (mem row kind : Nat) : Core :=
  { c with haz := { c.haz with
      pend := SMap.upd (0, 0) c.haz.pend (rowKey mem row) (fun v => if kind = 1 then (v.1 + 1, v.2) else (v.1, v.2 + 1)) } }

/-- A pending write has been done: the row is PENDING to the end of this CCLK (R567). -/
def Core.pendSub (c : Core) (mem row kind : Nat) : Core :=
  { c with haz := { c.haz with fall := c.haz.fall ++ [(rowKey mem row, kind)] } }

/-- The hazards of an instruction that reads logical rows: of each kind, for the first row that is PENDING (R569). -/
def Core.hazRead (c : Core) (mem : Nat) (rows : List Nat) : List (Nat × Nat × Nat) :=
  if c.haz.mode = 0 then []
  else [1, 2].filterMap (fun k => (rows.find? (c.pending k mem)).map (fun r => (k, mem, r)))

/-- Record a hazard in `COR_HAZINFO` (R570, R574). -/
def Core.hazard (c : Core) (kind mem row : Nat) : Core :=
  let w := c.haz.info.toNat
  let cnt := min 0xFF (bits w 48 8 + 1)
  let w' := if bit1 w 63 then w - place (bits w 48 8) 48 8 + place cnt 48 8
    else place kind 0 3 + place mem 3 2 + place row 5 10 + place c.regs.pc.toNat 16 24 + place c.regs.phase 40 6 +
      place cnt 48 8 + place 1 63 1
  { c with haz := { c.haz with info := BitVec.ofNat 64 w' } }

/-- Record the hazards of an instruction. -/
def Core.hazards (c : Core) (hs : List (Nat × Nat × Nat)) : Core := hs.foldl (fun c h => c.hazard h.1 h.2.1 h.2.2) c

/-! ### Tokens at issue (12) -/

/-- A heavy instruction of cost `w` may issue (R513). -/
def Core.tokensOk (c : Core) (w : Nat) : Bool :=
  w == 0 || decide (2 * b2n (c.mxeBusy || w == 2) + b2n (c.vuActive || w == 1) ≤ c.usable)

/-- A heavy instruction of cost `w` is held: count the stall and ask for the shortfall (R514, R519). -/
def Dev.tokenStall (d : Dev) (n w : Nat) : Dev :=
  let c := d.core n
  let ask := decide (c.usable < w) && c.tok.ireq.isNone
  let d := if c.tok.held then d else d.trace n 0x08 (traceData c.tok.claim c.cover)
  d.updCore n fun c =>
    let c := (c.flag (fun v => { v with tokStall := true })).pmcAdd 0x05 1
    { c with tok := { c.tok with
        stall := satInc c.tok.stall
        held := true
        ireq := if ask then some (w - c.usable, d.fno) else c.tok.ireq } }

/-- Change of a core's phase claim: the phase-lease request follows the target (R512). -/
def Dev.setClaim (d : Dev) (n k : Nat) : Dev :=
  let t := (d.core n).tok
  let diff := (k - t.rho) - t.please
  let keep := match t.preq with
    | some (a, o) => if diff ≤ a then (if diff = 0 then none else some (diff, o)) else none
    | none => none
  let preq := if diff ≠ 0 ∧ keep.isNone then some (diff, d.fno) else keep
  d.updCore n (fun c => { c with tok := { c.tok with claim := k, preq := preq } })

/-! ### The issue rule -/

/-- What an instruction needs and does once its registers and its unit are ready. -/
structure Plan where
  /-- it waits while the job is PRESOLVING, and until the flip (Table 13-4, R549) -/
  presolveWait : Bool := false
  /-- it writes versioned rows (R472) -/
  versionedWrite : Bool := false
  /-- its transfer queue is full, or another wait of its own holds it -/
  busy : Bool := false
  /-- synchronous faults (R303) -/
  synds : List Nat := []
  /-- scratchpad ranges it takes -/
  holds : List Hold := []
  /-- memory whose VU port, or NARROW port, it needs (R448) -/
  vuPort : Option Nat := none
  narrowPort : Option Nat := none
  /-- hazards it reports: kind, memory, row (R569) -/
  haz : List (Nat × Nat × Nat) := []
  /-- FCLK between its registration with a destination's detector and its issue (R568) -/
  delay : Nat := 0
  /-- its effect, given the half-tokens of the instruction lease it takes -/
  act : Nat → Dev → Dev
  /-- address of the next instruction -/
  next : W64

/-- Why an instruction does not issue in this CCLK. -/
inductive Gate where
  | go
  | register
  | stall (ev : Nat)
  | token
  | fault (synd : Nat)
  deriving DecidableEq, Repr

/-- The interlocks and the synchronous faults of an instruction: a fault is detected in the issue cycle, the first in which no
interlock holds the instruction (R290, R294, R303, R306, log 11). -/
def Core.gate (c : Core) (fno : Nat) (pres : Bool) (w : Nat) (p : Plan) : Gate :=
  if p.presolveWait && (pres || c.rows.flip) then .stall 6
  else if p.versionedWrite && c.rows.flip then .stall 6
  else if p.busy then .stall 6
  else if !c.tokensOk w then .token
  else if c.rangeBlocked p.holds then .stall 4
  else if (p.vuPort.map c.vuPortBusy).getD false || (p.narrowPort.map c.narrowPortBusy).getD false then .stall 4
  else if c.haz.mode ≠ 0 ∧ p.delay ≠ 0 ∧ c.haz.regAt.isNone then .register
  else if c.haz.mode ≠ 0 ∧ p.delay ≠ 0 ∧ fno < c.haz.regAt.getD 0 + p.delay then .stall 6
  else
    let hz := if c.haz.mode = 2 && !p.haz.isEmpty then [0x40] else []
    match lowest (p.synds ++ hz) with
    | some s => .fault s
    | none => .go

/-- The code address in DRAM of instruction address `pc`, and whether it lies in the code (R559). -/
def Prog.inCode (p : Prog) (pc : W64) : Bool := decide (pc.toNat < p.codeLen / 16)

/-- Cache line number of instruction address `pc`. -/
def Prog.line (p : Prog) (pc : W64) : Nat := (p.base + p.codeOfs) / 64 + pc.toNat / 4

/-- The line is in the instruction cache (R295). -/
def CoreSpec.hit (s : CoreSpec) (line : Nat) : Bool := (SMap.get [] s.icache (line % 128)).contains line

/-- The line becomes the most recently used of its set; the least recently used of four leaves (R295). -/
def CoreSpec.touch (s : CoreSpec) (line : Nat) : CoreSpec :=
  { s with icache := SMap.upd [] s.icache (line % 128) (fun l => (line :: l.filter (· != line)).take 4) }

/-- The core can issue: it runs, nothing holds it, and its next instruction is in its cache. -/
def Core.ready (c : Core) (p : Prog) : Bool :=
  c.run && !c.dbg.halted && decide (c.wait = .none) && !c.spec.wrong && decide (c.spec.redirect = 0) &&
  p.inCode c.regs.pc && c.spec.hit (p.line c.regs.pc)

/-- A breakpoint stands at the next instruction of core `n` (R866). -/
def Dev.atBreak (d : Dev) (n : Nat) : Bool :=
  let b := (SMap.get 0 d.dbg.brk n).toNat
  d.dbg.on && bit1 b 31 && decide (bits b 0 24 = (d.core n).regs.pc.toNat) && !(d.core n).dbg.skip

/-- Count an instruction committed, and let a resumed breakpoint act again. -/
def Core.committed (c : Core) : Core :=
  let c := c.pmcAdd 0x02 1
  { c with dbg := { c.dbg with skip := false }, tok := { c.tok with held := false } }

/-- A stall of the kind counted as event `ev` (Table 24-6). -/
def Dev.stall (d : Dev) (n ev : Nat) : Dev := d.updCore n (fun c => c.pmcAdd ev 1)

/-- Update the counter of a conditional branch (R525). -/
def CoreSpec.train (s : CoreSpec) (pc : W64) (taken : Bool) : CoreSpec :=
  { s with bht := SMap.upd 0b10 s.bht (pc.toNat % 1024) (fun v =>
      if taken then (if v = 3 then 3 else v + 1) else (if v = 0 then 0 else v - 1)) }

/-- A branch is predicted taken (Table 13-1). -/
def CoreSpec.predTaken (s : CoreSpec) (cond : Bool) (pc : W64) : Bool :=
  !cond || decide (2 ≤ (SMap.get 0b10 s.bht (pc.toNat % 1024)).toNat)

/-- A mispredicted branch holds issue for 6 CCLK (R330); `guess` is where fetch went on (R529). -/
def Core.mispredict (c : Core) (m : Bool) (guess : W64) : Core :=
  if m then { c with spec := { c.spec with wrong := true, wrongPc := guess, redirect := 6 } } else c

/-- Where a branch is predicted to go when it is predicted taken (Table 13-1). -/
def CoreOp.target (op : CoreOp) (c : Core) : W64 :=
  match op with
  | .jmp imm | .call _ imm | .loop _ _ imm => c.regs.pc + imm
  | _ => c.spec.ras.headD (c.regs.pc + 1)

/-- A predicated-off instruction: it takes its issue cycle (R283); a branch commits as not taken (R525). -/
def Core.skipInstr (c : Core) (op : CoreOp) : Core :=
  let pc := c.regs.pc
  let c := if op.isBranch then
      let guess := if c.spec.predTaken true pc then op.target c else pc + 1
      let c := c.mispredict (guess != pc + 1) guess
      { c with spec := c.spec.train pc false }
    else c
  (c.setPc (pc + 1)).committed

/-- The first instruction of a run issues: START (Table 1-5), from which R62 is evaluated unless the run is pre-solving (R550). -/
def Dev.markStart (d : Dev) (n : Nat) : Dev :=
  match d.coreJob n with
  | some (k, j) =>
    if j.start.isSome then d
    else d.updJob k (fun j => { j with
      start := some d.glb.time, emberFrom := if j.st = .running then some d.glb.time else none })
  | none => d

/-- The plan of an instruction takes its effect on core `n`. -/
def Dev.commit (d : Dev) (n w : Nat) (p : Plan) : Dev :=
  let il := (d.core n).tok.ilease
  let d := (d.markStart n).updCore n fun c =>
    let c := if c.haz.mode = 1 then c.hazards p.haz else c
    let c := (c.setPc p.next).committed
    let c := { c with haz := { c.haz with regAt := none } }
    if w = 0 then c else { c with tok := { c.tok with ireq := none, ilease := 0 } }
  p.act il d

/-- A synchronous fault with syndrome `s` of an instruction with plan `p` (R303); MODE 2 records the hazard (R570). -/
def Dev.planFault (d : Dev) (n s : Nat) (p : Plan) : Dev :=
  let c := d.core n
  let d := if c.haz.mode = 2 then d.updCore n (·.hazards p.haz) else d
  d.coreFault n s c.regs.pc.toNat

/-- A remote write or ring push registers with the destination's detector in this FCLK cycle (R568). -/
def Dev.regStart (d : Dev) (n : Nat) : Dev := (d.updCore n (fun c => { c with haz := { c.haz with regAt := some d.fno } })).stall n 6

/-- Try to issue an instruction with plan `p` and token cost `w` on core `n`. -/
def Dev.tryIssue (d : Dev) (n : Nat) (pres : Bool) (w : Nat) (p : Plan) : Dev :=
  match (d.core n).gate d.fno pres w p with
  | .go => d.commit n w p
  | .register => d.regStart n
  | .stall ev => d.stall n ev
  | .token => d.tokenStall n w
  | .fault s => d.planFault n s p

/-- What holds or ends an instruction before its plan is looked at: a pending register, its unit, a reserved field, its predicate
(R16, R17, R283, R290, R941, log 11). -/
inductive Early where
  | stall (ev : Nat)
  | illegal
  | off
  | on
  deriving DecidableEq, Repr

/-- The first stage of the issue rule. -/
def Core.early (c : Core) (q : Pred) (op : CoreOp) : Early :=
  if c.pendingAny (.p q.idx.toNat :: op.srcs ++ op.dsts) then .stall 0x03
  else if (op.unit?.map (fun u => c.ops.any (fun o => decide (o.unit = u) && decide (0 < o.occ)))).getD false then .stall 0x06
  else if op.reserved || predReserved q then .illegal
  else if c.predOn q then .on
  else .off

/-- An instruction of a job whose end the FCLK cycle that runs has fixed: it does not issue any more, and only a fault that it would
take in this cycle is looked at (R303, R306, R307, R311). -/
def Dev.lateIssue (d : Dev) (n : Nat) (pres : Bool) (w : Nat) (p : Plan) : Dev :=
  match (d.core n).gate d.fno pres w p with
  | .fault s => d.planFault n s p
  | _ => d

/-- The fetch of core `n`'s next instruction uses its cache line (R295). -/
def Dev.fetched (d : Dev) (n : Nat) (p : Prog) : Dev :=
  d.updCore n (fun c => { c with spec := c.spec.touch (p.line c.regs.pc) })

/-- The instruction `op` with predicate `q` stands at the issue stage of core `n`; `plan` gives its effect. One CCLK of the
core passes (log 2). -/
def issueWith (plan : Nat → Core → Job → Prog → Dev → Plan) (n : Nat) (q : Pred) (op : CoreOp) (d : Dev) : Dev :=
  match d.coreJob n with
  | none => d
  | some (_, j) =>
    match d.prog j.prog with
    | none => d
    | some p =>
      let c := d.core n
      if !c.run || c.dbg.halted || d.atBreak n then d
      else if !c.ready p then d.cycle n
      else
        let d := d.fetched n p
        let c := d.core n
        let pres := decide (j.st = .presolving)
        let d := match c.early q op with
          | .illegal => d.coreFault n 0x01 c.regs.pc.toNat
          | .stall ev => if j.fin.isSome then d else d.stall n ev
          | .off => if j.fin.isSome then d else (d.markStart n).updCore n (·.skipInstr op)
          | .on =>
            if j.fin.isSome then d.lateIssue n pres op.cost (plan n c j p d)
            else d.tryIssue n pres op.cost (plan n c j p d)
        (d.cycle n).peakUp

end Sys2Proof.Machine
end

