-- ==== Sys2Proof/Machine/ScalarOps.lean ====
section
/-!
DEFINITION. Machine/ScalarOps.lean: what the scalar instructions compute and need: integer, multiply and divide, narrow load and store,
binary32, branches, compares and predicates (08).
-/
namespace Sys2Proof.Machine

/-- The plan of an instruction that forms its results at once, with a latency of 1 CCLK. -/
def Plan.regs (n : Nat) (c : Core) (ws : List RegWrite) : Plan :=
  { act := fun _ d => d.updCore n (·.writeRegs ws), next := c.regs.pc + 1 }

/-- The plan of an instruction whose results are formed now and available after its latency (R291). -/
def Plan.long (n : Nat) (c : Core) (o : Op) : Plan :=
  { act := fun il d => d.updCore n (·.addOp { o with ilease := il }), next := c.regs.pc + 1 }

/-! ### Integer (R315) -/

/-- Result of an integer operation. -/
def AluK.eval (k : AluK) (a b : W64) : W64 :=
  let s := b.toNat % 64
  match k with
  | .add => a + b
  | .sub => a - b
  | .and => a &&& b
  | .or => a ||| b
  | .xor => a ^^^ b
  | .shl => a <<< s
  | .shr => a >>> s
  | .sra => a.sshiftRight s
  | .min => if a.slt b then a else b
  | .max => if a.slt b then b else a
  | .minU => if a.ult b then a else b
  | .maxU => if a.ult b then b else a

def planAlu (k : AluK) (d a : Nat) (b : Opnd) (n : Nat) (c : Core) : Plan :=
  .regs n c [.x d (k.eval (c.getX a) (c.opnd b))]

/-- An integer instruction on core `n`. -/
def issueAlu (k : AluK) (n : Nat) (q : Pred) (d a : Nat) (b : Opnd) : Dev → Dev :=
  issueWith (fun n c _ _ _ => planAlu k d a b n c) n q (.alu k d a b)

def planSel (d a b p n : Nat) (c : Core) : Plan := .regs n c [.x d (if c.getP p then c.getX a else c.getX b)]

/-- sel on core `n`. -/
def issueSel (n : Nat) (q : Pred) (d a b p : Nat) : Dev → Dev :=
  issueWith (fun n c _ _ _ => planSel d a b p n c) n q (.sel d a b p)

/-! ### Multiply and divide (R316-R320) -/

/-- Number of significant bits of a magnitude. -/
def sigBits (m : Nat) : Nat := if m = 0 then 0 else Nat.log2 m + 1

/-- Magnitude of an operand: its absolute value in the signed forms. -/
def mag (signed : Bool) (a : W64) : Nat := if signed then a.toInt.natAbs else a.toNat

/-- The signed forms. -/
def MdK.signed : MdK → Bool
  | .mulS | .mulhS | .divS | .remS => true
  | _ => false

/-- A multiply. -/
def MdK.isMul : MdK → Bool
  | .mulU | .mulS | .mulhU | .mulhS => true
  | _ => false

/-- Latency in CCLK (R317-R319). -/
def MdK.latency (k : MdK) (a b : W64) : Nat :=
  let x := mag k.signed a
  let y := mag k.signed b
  if k.isMul then 2 + cdiv (max 1 (sigBits (min x y))) 8
  else if b = 0 then 4
  else max 4 (4 + (sigBits x + 1 - sigBits y + 1) / 2)

/-- Result (R316, R319, R320). -/
def MdK.eval (k : MdK) (a b : W64) : W64 :=
  match k with
  | .mulU => a * b
  | .mulS => a * b
  | .mulhU => BitVec.ofNat 64 (a.toNat * b.toNat / 2 ^ 64)
  | .mulhS => BitVec.ofInt 64 (a.toInt * b.toInt / 2 ^ 64)
  | .divU => if b = 0 then BitVec.allOnes 64 else BitVec.ofNat 64 (a.toNat / b.toNat)
  | .divS => if b = 0 then BitVec.allOnes 64 else BitVec.ofInt 64 (a.toInt.tdiv b.toInt)
  | .remU => if b = 0 then a else BitVec.ofNat 64 (a.toNat % b.toNat)
  | .remS => if b = 0 then a else BitVec.ofInt 64 (a.toInt.tmod b.toInt)

def planMd (k : MdK) (d a b n : Nat) (c : Core) : Plan :=
  let x := c.getX a
  let y := c.getX b
  .long n c (regsOp (if k.isMul then .mul else .div) [.x d (k.eval x y)] [.x d] (k.latency x y) 0 0 false)

/-- A multiply or divide on core `n`. -/
def issueMd (k : MdK) (n : Nat) (q : Pred) (d a b : Nat) : Dev → Dev :=
  issueWith (fun n c _ _ _ => planMd k d a b n c) n q (.md k d a b)

/-! ### Narrow load and store (R321-R323) -/

/-- Syndromes of a narrow access (R323). -/
def narrowSynds (h : HDesc) (ofs align : Nat) : List Nat :=
  (if ofs % align = 0 then [] else [3]) ++ handleSynd h [0, 1, 2] (ofs / 512)

def planLd (isF : Bool) (d a h : Nat) (imm : W64) (n : Nat) (c : Core) (pres : Bool) : Plan :=
  let ofs := (c.getX a + imm).toNat
  let hd := c.handle h
  let r := c.readRow pres hd (ofs / 512)
  { synds := narrowSynds hd ofs (if isF then 4 else 8)
    holds := mkHold false hd.mem [r]
    narrowPort := some hd.mem
    haz := c.hazRead hd.mem [r]
    act := fun _ dv => dv.updCore n (·.addOp
      { seq := 0, unit := .narrow, kind := .load d hd.mem r (ofs % 512) (if isF then 4 else 8),
        dst := [if isF then .f d else .x d], left := 0, occ := 0, cost := 0, ilease := 0, fp := false,
        versioned := false, holds := mkHold false hd.mem [r] })
    next := c.regs.pc + 1 }

/-- ld or ld.f on core `n`. -/
def issueLd (isF : Bool) (n : Nat) (q : Pred) (d a h : Nat) (imm : W64) : Dev → Dev :=
  issueWith (fun n c j _ _ => planLd isF d a h imm n c (decide (j.st = .presolving))) n q (.ld isF d a h imm)

/-- A write to rows of this handle waits while the job is PRESOLVING (R474). -/
def HDesc.presolveWaits (h : HDesc) : Bool := h.valid && !h.versioned && !h.scratch

def planSt (isF : Bool) (a b h : Nat) (imm : W64) (n : Nat) (c : Core) (pres : Bool) : Plan :=
  let ofs := (c.getX a + imm).toNat
  let hd := c.handle h
  let r := c.writeRow pres hd (ofs / 512)
  let bs := if isF then toBytes (c.getF b).toNat 4 else toBytes (c.getX b).toNat 8
  { presolveWait := hd.presolveWaits
    versionedWrite := hd.valid && hd.versioned
    synds := narrowSynds hd ofs (if isF then 4 else 8)
    holds := mkHold true hd.mem [r]
    narrowPort := some hd.mem
    act := fun _ dv => dv.updCore n (fun c => (c.markShd pres hd [ofs / 512]).addOp
      { seq := 0, unit := .narrow, kind := .store hd.mem r (ofs % 512) bs, dst := [], left := 0, occ := 0, cost := 0,
        ilease := 0, fp := false, versioned := hd.versioned, holds := mkHold true hd.mem [r] })
    next := c.regs.pc + 1 }

/-- st or st.f on core `n`. -/
def issueSt (isF : Bool) (n : Nat) (q : Pred) (a b h : Nat) (imm : W64) : Dev → Dev :=
  issueWith (fun n c j _ _ => planSt isF a b h imm n c (decide (j.st = .presolving))) n q (.st isF a b h imm)

/-! ### binary32 (R324-R328) -/

/-- Result of a two-operand operation on binary32 patterns. -/
def FbinK.eval (k : FbinK) (fpc : W32) (m : RMode) (a b : W32) : W32 :=
  match k with
  | .add => f32Add fpc m a b
  | .sub => f32Sub fpc m a b
  | .mul => f32Mul fpc m a b
  | .min => f32Min fpc a b
  | .max => f32Max fpc a b

def planFbin (k : FbinK) (d a b : Nat) (rm : Rm) (n : Nat) (c : Core) : Plan :=
  .regs n c [.f d (k.eval c.regs.fpc (c.rmode rm) (c.getF a) (c.getF b))]

/-- fadd, fsub, fmul, fmin, fmax on core `n`. -/
def issueFbin (k : FbinK) (n : Nat) (q : Pred) (d a b : Nat) (rm : Rm) : Dev → Dev :=
  issueWith (fun n c _ _ _ => planFbin k d a b rm n c) n q (.fbin k d a b rm)

def planFma (d a b e : Nat) (rm : Rm) (n : Nat) (c : Core) : Plan :=
  .regs n c [.f d (f32Fma c.regs.fpc (c.rmode rm) (c.getF a) (c.getF b) (c.getF e))]

/-- fmadd on core `n`. -/
def issueFma (n : Nat) (q : Pred) (d a b e : Nat) (rm : Rm) : Dev → Dev :=
  issueWith (fun n c _ _ _ => planFma d a b e rm n c) n q (.fma d a b e rm)

/-- Sign bit cleared, or inverted: a bit copy (R327, R943). -/
def signOp (clear : Bool) (w : W32) : W32 := if clear then w &&& 0x7FFFFFFF else w ^^^ 0x80000000

def planFsign (clear : Bool) (d a n : Nat) (c : Core) : Plan := .regs n c [.f d (signOp clear (c.getF a))]

/-- fabs or fneg on core `n`. -/
def issueFsign (clear : Bool) (n : Nat) (q : Pred) (d a : Nat) : Dev → Dev :=
  issueWith (fun n c _ _ _ => planFsign clear d a n c) n q (.fsign clear d a)

def planFdiv (d a b : Nat) (rm : Rm) (n : Nat) (c : Core) : Plan :=
  .long n c (regsOp .fdiv [.f d (f32Div c.regs.fpc (c.rmode rm) (c.getF a) (c.getF b))] [.f d] 14 0 0 true)

/-- fdiv on core `n`. -/
def issueFdiv (n : Nat) (q : Pred) (d a b : Nat) (rm : Rm) : Dev → Dev :=
  issueWith (fun n c _ _ _ => planFdiv d a b rm n c) n q (.fdiv d a b rm)

def planFsqrt (d a : Nat) (rm : Rm) (n : Nat) (c : Core) : Plan :=
  .long n c (regsOp .fdiv [.f d (f32Sqrt c.regs.fpc (c.rmode rm) (c.getF a))] [.f d] 16 0 0 true)

/-- fsqrt on core `n`. -/
def issueFsqrt (n : Nat) (q : Pred) (d a : Nat) (rm : Rm) : Dev → Dev :=
  issueWith (fun n c _ _ _ => planFsqrt d a rm n c) n q (.fsqrt d a rm)

/-- Result of a move or conversion between x and f (R325, R327, R328). -/
def FcvtK.eval (k : FcvtK) (fpc : W32) (m : RMode) (d : Nat) (x : W64) (f : W32) : RegWrite :=
  match k with
  | .mvX => .x d (f.setWidth 64)
  | .mvF => .f d (x.setWidth 32)
  | .sL => .f d (f32 fpc m (.ofInt x.toInt))
  | .sLu => .f d (f32 fpc m (.ofInt x.toNat))
  | .lS => .x d (BitVec.ofInt 64 ((rd32 fpc f).toIntSat m (-2 ^ 63) (2 ^ 63 - 1)))
  | .luS => .x d (BitVec.ofInt 64 ((rd32 fpc f).toIntSat m 0 (2 ^ 64 - 1)))

def planFcvt (k : FcvtK) (d a : Nat) (rm : Rm) (n : Nat) (c : Core) : Plan :=
  .regs n c [k.eval c.regs.fpc (c.rmode rm) d (c.getX a) (c.getF a)]

/-- A move or conversion between x and f on core `n`. -/
def issueFcvt (k : FcvtK) (n : Nat) (q : Pred) (d a : Nat) (rm : Rm) : Dev → Dev :=
  issueWith (fun n c _ _ _ => planFcvt k d a rm n c) n q (.fcvt k d a rm)

def planFli (d : Nat) (w : W32) (n : Nat) (c : Core) : Plan := .regs n c [.f d w]

/-- fli on core `n`. -/
def issueFli (n : Nat) (q : Pred) (d : Nat) (w : W32) : Dev → Dev :=
  issueWith (fun n c _ _ _ => planFli d w n c) n q (.fli d w)

/-! ### Branches (R329, R330, R525, R526, R950) -/

/-- What a branch does besides its register result: whether it is conditional, taken, its target, and the target it was
predicted to have. -/
structure BranchOut where
  cond : Bool
  taken : Bool
  target : W64
  predicted : W64

/-- A taken target outside the code is a fault at the branch (R950); a misprediction holds issue (R330). -/
def planBranch (b : BranchOut) (ws : List RegWrite) (upd : CoreSpec → CoreSpec) (n : Nat) (c : Core) (p : Prog) : Plan :=
  let pc := c.regs.pc
  let next := if b.taken then b.target else pc + 1
  let guess := if c.spec.predTaken b.cond pc then b.predicted else pc + 1
  { synds := if b.taken && !p.inCode b.target then [2] else []
    act := fun _ d => d.updCore n fun c =>
      let c := (c.writeRegs ws).mispredict (guess != next) guess
      { c with spec := upd (if b.cond then c.spec.train pc b.taken else c.spec) }
    next := next }

def planJmp (q : Pred) (imm : W64) (n : Nat) (c : Core) (p : Prog) : Plan :=
  let t := c.regs.pc + imm
  planBranch { cond := !predAlways q, taken := true, target := t, predicted := t } [] id n c p

/-- jmp on core `n`. -/
def issueJmp (n : Nat) (q : Pred) (imm : W64) : Dev → Dev :=
  issueWith (fun n c _ p _ => planJmp q imm n c p) n q (.jmp imm)

def planJmpr (q : Pred) (a n : Nat) (c : Core) (p : Prog) : Plan :=
  planBranch
    { cond := !predAlways q, taken := true, target := c.getX a, predicted := c.spec.ras.headD (c.regs.pc + 1) }
    [] (fun s => { s with ras := s.ras.tail }) n c p

/-- jmpr on core `n`. -/
def issueJmpr (n : Nat) (q : Pred) (a : Nat) : Dev → Dev :=
  issueWith (fun n c _ p _ => planJmpr q a n c p) n q (.jmpr a)

def planCall (q : Pred) (d : Nat) (imm : W64) (n : Nat) (c : Core) (p : Prog) : Plan :=
  let t := c.regs.pc + imm
  let r := c.regs.pc + 1
  planBranch { cond := !predAlways q, taken := true, target := t, predicted := t } [.x d r]
    (fun s => { s with ras := (r :: s.ras).take 16 }) n c p

/-- call on core `n`. -/
def issueCall (n : Nat) (q : Pred) (d : Nat) (imm : W64) : Dev → Dev :=
  issueWith (fun n c _ p _ => planCall q d imm n c p) n q (.call d imm)

def planLoop (d a : Nat) (imm : W64) (n : Nat) (c : Core) (p : Prog) : Plan :=
  let r := c.getX a - 1
  let t := c.regs.pc + imm
  planBranch { cond := true, taken := r != 0 && d != 0, target := t, predicted := t } [.x d r] id n c p

/-- loop on core `n`: x[D] := x[A] − 1; it branches while the value so formed, as x[D] reads, is not 0. -/
def issueLoop (n : Nat) (q : Pred) (d a : Nat) (imm : W64) : Dev → Dev :=
  issueWith (fun n c _ p _ => planLoop d a imm n c p) n q (.loop d a imm)

/-! ### Compares and predicates (R332, R333) -/

def planCmp (k : CmpK) (d a : Nat) (b : Opnd) (n : Nat) (c : Core) : Plan :=
  .regs n c [.p d (k.eval (c.getX a) (c.opnd b))]

/-- An integer compare on core `n`. -/
def issueCmp (k : CmpK) (n : Nat) (q : Pred) (d a : Nat) (b : Opnd) : Dev → Dev :=
  issueWith (fun n c _ _ _ => planCmp k d a b n c) n q (.cmp k d a b)

def planFcmp (k : FcmpK) (d a b n : Nat) (c : Core) : Plan :=
  .regs n c [.p d (k.eval c.regs.fpc (c.getF a) (c.getF b))]

/-- A binary32 compare on core `n`. -/
def issueFcmp (k : FcmpK) (n : Nat) (q : Pred) (d a b : Nat) : Dev → Dev :=
  issueWith (fun n c _ _ _ => planFcmp k d a b n c) n q (.fcmp k d a b)

def planPlog (k : PlogK) (d a b n : Nat) (c : Core) : Plan := .regs n c [.p d (k.eval (c.getP a) (c.getP b))]

/-- A predicate operation on core `n`. -/
def issuePlog (k : PlogK) (n : Nat) (q : Pred) (d a b : Nat) : Dev → Dev :=
  issueWith (fun n c _ _ _ => planPlog k d a b n c) n q (.plog k d a b)

end Sys2Proof.Machine
end

