-- ==== Sys2Proof/Machine/SystemOps.lean ====
section
/-!
DEFINITION. Machine/SystemOps.lean: special registers, sync instructions, phases, ember.save, job.done, spec.accept, and the start, the commit
and the squash of a run (08, 13).
-/
namespace Sys2Proof.Machine

/-! ### Start of a run -/

/-- Budget of phase `ph` for `n` cores (R558). -/
def Prog.budget (p : Prog) (n ph : Nat) : W32 := nth 0 p.budgets ((n - p.nMin) * p.nPhase + ph)

/-- Enter a phase: its number and its budget; a budget of 0 disables the check (R58, R61). -/
def Core.enterPhase (c : Core) (ph : Nat) (b : W32) : Core :=
  { c with regs := { c.regs with phase := ph, budget := b, budgOn := decide (b ≠ 0), budgDue := false } }

/-- Retention holds for a run of (tenant, PROG, N) (R479, R480). -/
def Core.retains (c : Core) (t prog n : Nat) : Bool := decide (c.tag = some (t, BitVec.ofNat 32 prog, n))

/-- The valid handles of a core, ascending. -/
def Core.validHandles (c : Core) : List (Nat × HDesc) :=
  ((List.range 64).map (fun h => (h, c.handle h))).filter (fun e => e.2.valid)

/-- Arrival counters that keep their values at a start with retention (R468). -/
def Core.keptArr (c : Core) : List Nat :=
  c.validHandles.filterMap (fun e => if e.2.resident then e.2.actr else none)

/-- State of a core at the start of every run: registers, generators, counters, selection bits, SCRATCH rows (R277, R280, R416,
R463, R465, R468, R475). -/
def Core.startRun (c : Core) (p : Prog) (t prog n : Nat) : Core :=
  let keep := c.retains t prog n
  let kept := c.keptArr
  let c := c.validHandles.foldl (fun c e => if e.2.scratch then c.spZero e.2.mem e.2.base (e.2.count * (1 + b2n e.2.versioned)) else c) c
  let c := { c with
    regs := { fpc := p.fpc, pc := BitVec.ofNat 64 p.entry }
    rows := { c.rows with
      arr := if keep then SMap.keep (fun i _ => kept.contains i) c.rows.arr else []
      hc := [], tc := [], tcOut := [], hcSeen := []
      sel := if keep then c.rows.sel else []
      shd := [], flip := false, drop := false, arrNow := [] }
    ops := [], wait := .none, dmaq := [], rq := [], run := false
    gv := seedGv p.fpc c.idx, gd := seedGd p.fpc c.idx, gdNext := none
    dmaIss := 0, dmaDone := 0, dmaLastWr := 0, remIss := 0, remDone := 0
    haz := { c.haz with pend := [], fall := [], producer := [], regAt := none }
    inb := []
    spec := { c.spec with ra := none, raFill := none, waitCyc := 0, redirect := 0, wrong := false } }
  c.enterPhase 0 (p.budget n 0)

/-! ### Special registers (R334-R336) -/

/-- Value of a special register (Table 7-2). -/
def Core.special (c : Core) (j : Job) (now : W64) (sr : Nat) : W64 :=
  match sr with
  | 0 => BitVec.ofNat 64 c.idx
  | 1 => BitVec.ofNat 64 j.n
  | 2 => BitVec.ofNat 64 j.tenant
  | 3 => BitVec.ofNat 64 j.tag
  | 4 => now
  | 5 => BitVec.ofNat 64 j.deadline
  | 6 => c.regs.budget.setWidth 64
  | 7 => BitVec.ofNat 64 c.regs.phase
  | _ => c.regs.fpc.setWidth 64

def planSrRead (d sr n : Nat) (c : Core) (j : Job) (dv : Dev) : Plan :=
  let v := c.special j dv.glb.time sr
  if sr = 4 then .long n c (regsOp .scalar [.x d v] [.x d] 4 0 0 false) else .regs n c [.x d v]

/-- sr.read on core `n`. -/
def issueSrRead (n : Nat) (q : Pred) (d sr : Nat) : Dev → Dev :=
  issueWith (fun n c j _ dv => planSrRead d sr n c j dv) n q (.srRead d sr)

/-- A value written to `fpc`: reserved bits are ignored, a reserved RM or CRM takes the image's value (R409); whether one was
reserved. -/
def fpcWrite (image w : W32) : W32 × Bool :=
  let n := w.toNat
  let i := image.toNat
  let badRm := decide (2 ≤ bits n 0 2)
  let badCrm := bits n 2 2 == 3
  let v := (if badRm then bits i 0 2 else bits n 0 2) + place (if badCrm then bits i 2 2 else bits n 2 2) 2 2 +
    place (bits n 4 2) 4 2 + place (bits n 16 16) 16 16
  (BitVec.ofNat 32 v, badRm || badCrm)

def planSrWrite (a n : Nat) (c : Core) (j : Job) (p : Prog) : Plan :=
  let r := fpcWrite p.fpc ((c.getX a).setWidth 32)
  { busy := c.ops.any Op.fp
    act := fun _ d =>
      let d := d.updCore n (fun c => { c with
        regs := { c.regs with fpc := r.1 }, gv := seedGv r.1 c.idx, gdNext := some (seedGd r.1 c.idx) })
      if r.2 then d.cfgWarn (.fpc n j.tenant) 0 else d
    next := c.regs.pc + 1 }

/-- sr.write of `fpc` on core `n`. -/
def issueSrWrite (n : Nat) (q : Pred) (a : Nat) : Dev → Dev :=
  issueWith (fun n c j p _ => planSrWrite a n c j p) n q (.srWrite a)

/-! ### Sync instructions (R337-R339) -/

/-- Tenant `t` owns counter `c` (R245, R250). -/
def Dev.ownsCtr (d : Dev) (t c : Nat) : Bool := decide (c < 131072) && SMap.get 0 d.syn.owner (c / 256) == t + 1

/-- Value of a counter; a BAD counter reads all ones (R848). -/
def Dev.ctrVal (d : Dev) (c : Nat) : W64 :=
  if SMap.get false d.syn.bad c then BitVec.allOnes 64 else SMap.get 0 d.syn.ctr c

/-- The counter satisfies a threshold; a BAD counter never does (R249, R848). -/
def Dev.ctrGe (d : Dev) (c : Nat) (t : W64) : Bool :=
  !(SMap.get false d.syn.bad c) && decide (t.toNat ≤ (SMap.get 0 d.syn.ctr c).toNat)

/-- Queue an operation for the sync block. -/
def Dev.synPush (d : Dev) (p : SynPend) : Dev :=
  { d with syn := { d.syn with pend := d.syn.pend ++ [{ p with id := d.syn.nextId }], nextId := d.syn.nextId + 1 } }

/-- Syndromes of a sync instruction (R337). -/
def syncSynds (d : Dev) (t : Nat) (x : W64) : List Nat := if d.ownsCtr t x.toNat then [] else [0xB]

/-- An ADD or SET that waits for the core's earlier writes (R255). -/
def Dev.coreSync (d : Dev) (n tenant ctr : Nat) (op : SynOp) : Dev :=
  let c := d.core n
  d.synPush { ctr := ctr, op := op, src := 6 + n, needDma := c.dmaLastWr, needRem := c.remIss, fn := tenant }

def planSyncOp (a : Nat) (op : SynOp) (n : Nat) (c : Core) (j : Job) (dv : Dev) : Plan :=
  { presolveWait := true
    synds := syncSynds dv j.tenant (c.getX a)
    act := fun _ d => d.coreSync n j.tenant (c.getX a).toNat op
    next := c.regs.pc + 1 }

/-- sync.add or sync.add.i on core `n`. -/
def issueSyncAdd (n : Nat) (q : Pred) (a : Nat) (b : Opnd) : Dev → Dev :=
  issueWith (fun n c j _ dv => planSyncOp a (.add ((c.opnd b).setWidth 32)) n c j dv) n q (.syncAdd a b)

/-- sync.set on core `n`. -/
def issueSyncSet (n : Nat) (q : Pred) (a b : Nat) : Dev → Dev :=
  issueWith (fun n c j _ dv => planSyncOp a (.set (c.getX b)) n c j dv) n q (.syncSet a b)

def planSyncRead (dst a n : Nat) (c : Core) (j : Job) (dv : Dev) : Plan :=
  let ctr := (c.getX a).toNat
  { synds := syncSynds dv j.tenant (c.getX a)
    act := fun _ d =>
      (d.updCore n (·.addOp
        { seq := 0, unit := .sync, kind := .syncRead dst ctr, dst := [.x dst], left := 0, occ := 0, cost := 0,
          ilease := 0, fp := false, versioned := false, holds := [] })).synPush
        { ctr := ctr, op := .read n c.nextSeq, src := 6 + n, needDma := 0, needRem := 0, fn := j.tenant }
    next := c.regs.pc + 1 }

/-- sync.read on core `n`. -/
def issueSyncRead (n : Nat) (q : Pred) (d a : Nat) : Dev → Dev :=
  issueWith (fun n c j _ dv => planSyncRead d a n c j dv) n q (.syncRead d a)

def planSyncWait (a b n : Nat) (c : Core) (j : Job) (dv : Dev) : Plan :=
  let ctr := (c.getX a).toNat
  let t := c.getX b
  { synds := syncSynds dv j.tenant (c.getX a)
    act := fun _ d => d.updCore n (fun c => { c with wait := .sync ctr t (d.ctrGe ctr t) })
    next := c.regs.pc + 1 }

/-- sync.wait on core `n`. -/
def issueSyncWait (n : Nat) (q : Pred) (a b : Nat) : Dev → Dev :=
  issueWith (fun n c j _ dv => planSyncWait a b n c j dv) n q (.syncWait a b)

/-! ### Phase marker (R340, R302): a budget that has run out is recorded first (R60) -/

def planPhase (ph n : Nat) (c : Core) (j : Job) (p : Prog) : Plan :=
  { synds := if ph < p.nPhase then [] else [0xE]
    act := fun _ d =>
      (((d.budgetExpire n).updCore n (·.enterPhase ph (p.budget j.n ph))).setClaim n (nth 0 p.claims ph)).trace n 0x06 ph
    next := c.regs.pc + 1 }

/-- phase on core `n`. -/
def issuePhase (n : Nat) (q : Pred) (ph : Nat) : Dev → Dev :=
  issueWith (fun n c j p _ => planPhase ph n c j p) n q (.phase ph)

/-! ### Job control (R341-R356) -/

/-- Iteration count of an x register, saturated to 24 bits (R37, log 12). -/
def iterOf (x : W64) : Nat := min x.toNat 0xFFFFFF

/-- Syndromes of a row range of ember.save or job.done (R343). -/
def resultSynds (h : HDesc) (rows first : Nat) : List Nat :=
  if rows = 0 then [] else handleSynd h [1, 2] (first + rows - 1)

/-- Logical rows of a range of handle rows. -/
def Core.logical (c : Core) (pres : Bool) (h : HDesc) (first n : Nat) : List (Nat × Nat) :=
  (span first n).map (fun i => (h.mem, c.readRow pres h i))

def planEmberSave (a b h rows first n : Nat) (c : Core) : Plan :=
  let hd := c.handle h
  let rs := c.logical false hd first rows
  let hold := mkHold false hd.mem (rs.map Prod.snd)
  { presolveWait := true
    busy := c.ops.any (fun o => decide (o.unit = .ember))
    synds := (if c.idx = 0 then [] else [8]) ++ resultSynds hd rows first
    holds := hold
    haz := c.hazRead hd.mem (rs.map Prod.snd)
    act := fun _ d => d.updCore n (·.addOp
      { seq := 0, unit := .ember, kind := .ember rs [] (c.getF b) (BitVec.ofNat 64 (iterOf (c.getX a))), dst := [],
        left := 2 * (16 + 8 * rows), occ := 0, cost := 0, ilease := 0, fp := false, versioned := false, holds := hold })
    next := c.regs.pc + 1 }

/-- ember.save on core `n`. -/
def issueEmberSave (n : Nat) (q : Pred) (a b h rows first : Nat) : Dev → Dev :=
  issueWith (fun n c _ _ _ => planEmberSave a b h rows first n c) n q (.emberSave a b h rows first)

/-- A status value that job.done may give (R39). -/
def statusOk (s : Nat) : Bool := s == 0 || s == 8 || decide (0x80 ≤ s)

def planJobDone (a b e h rows status first n : Nat) (c : Core) : Plan :=
  let hd := c.handle h
  let rs := if rows = 0 then [] else (c.logical false hd first rows).map Prod.snd
  let hold := mkHold false hd.mem rs
  { presolveWait := true
    holds := hold
    haz := c.hazRead hd.mem rs
    synds := (if c.idx = 0 then [] else [9]) ++ (if statusOk status then [] else [0xA]) ++
      resultSynds hd rows first
    act := fun _ d => d.updCore n (fun c => { c with wait := .done status a b e h rows first hold })
    next := c.regs.pc + 1 }

/-- job.done on core `n`. -/
def issueJobDone (n : Nat) (q : Pred) (a b c h rows status first : Nat) : Dev → Dev :=
  issueWith (fun n k _ _ _ => planJobDone a b c h rows status first n k) n q (.jobDone a b c h rows status first)

/-- Commit of a pre-solve run (R548, R472, R550): the job is RUNNING; each core flips when it can. -/
def Dev.commitRun (d : Dev) (k : Nat) (j : Job) : Dev :=
  ((d.updJob k (fun j => { j with st := .running, accepted := true, emberFrom := some d.glb.time })).updCores j.cores
    (fun c => { c with rows := { c.rows with flip := true } })).trace j.lead 0x05 (traceData 1 j.tag)

/-- What a squash stops on a core: everything, and the instruction that waits is discarded with its lease request; only the writes to
versioned rows that are in flight go on to the shadow copies (R473, R514, Table 13-5). -/
def Core.squashStop (c : Core) : Core :=
  let v := c.ops.filter Op.versioned
  let t := c.tok
  { c.stop false with
    ops := v
    rows := { c.rows with drop := true }
    tok := { t with iend := t.iend + t.ilease + ((c.ops.filter (fun o => !o.versioned)).map Op.ilease).sum, ilease := 0, ireq := none } }

/-- A core that a squash has stopped is set as at a start, once no write to a versioned row is in flight (R473, Table 13-5). -/
def Core.squashStart (c : Core) (p : Prog) (j : Job) : Core :=
  if c.rows.drop && !(c.ops.any Op.versioned) then c.startRun p j.tenant j.prog j.n else c

/-- Squash of a pre-solve run (Table 13-5): the set stops, the shadow data is discarded, the cores are set as at a start; the
reload is due. -/
def Dev.squash (d : Dev) (k : Nat) (j : Job) : Dev :=
  match d.prog j.prog with
  | none => d
  | some p =>
    let d := (d.cancelReads j).updCores j.cores (fun c => c.squashStop.squashStart p j)
    (d.updJob k (fun j => { j with
      st := .running, squashed := true, squashing := true, loading := true, predicted := false, accepted := true,
      emberFrom := none, start := none })).trace j.lead 0x05 (traceData 0 j.tag)

/-- The acceptance decision of the lead core; it has no effect once the comparator has fired (R353, R555). -/
def Dev.accept (d : Dev) (k : Nat) (ok : Bool) : Dev :=
  match d.job k with
  | none => d
  | some j => if d.expired j then d else if ok then d.commitRun k j else d.squash k j

def planAccept (a : Nat) (c : Core) (j : Job) : Plan :=
  let pres := decide (j.st = .presolving)
  let lead := c.idx = 0
  { busy := pres && (!lead || !j.delivered)
    act := fun _ d => if pres && decide lead then (match c.job with
      | some k => d.accept k (c.getP a)
      | none => d) else d
    next := c.regs.pc + 1 }

/-- spec.accept on core `n` (R353-R356). -/
def issueAccept (n : Nat) (q : Pred) (a : Nat) : Dev → Dev :=
  issueWith (fun _ c j _ _ => planAccept a c j) n q (.specAccept a)

end Sys2Proof.Machine
end

