-- ==== Sys2Proof/Machine/VectorOps.lean ====
section
/-!
DEFINITION. Machine/VectorOps.lean: the vector, refinement and matrix instructions, rcount, and what their units compute (09, 10).
-/
namespace Sys2Proof.Machine

/-! ### vld and vst (R366-R369) -/

/-- Data row of a vld, vst or rcount: x[A] + IMM[15:0], as a 64-bit sum. -/
def dataRow (x : W64) (imm : Nat) : Nat := firstRow imm x

/-- Highest handle row a list of tile rows touches. -/
def topRow (rs : List TileRow) : Nat := maxOf (rs.map (fun r => max r.row (r.srow.getD 0)))

def planVld (d a h f : Nat) (b32 : Bool) (part imm n : Nat) (c : Core) (pres : Bool) : Plan :=
  let hd := c.handle h
  let s := blockSize b32
  let t := tileRow f s (dataRow (c.getX a) imm)
  let r := c.readRow pres hd t.row
  let sr := t.srow.map (c.readRow pres hd)
  let hold := mkHold false hd.mem (r :: sr.toList)
  { synds := handleSynd hd [0, 1, 2] (topRow [t])
    holds := hold
    vuPort := some hd.mem
    haz := c.hazRead hd.mem (r :: sr.toList)
    act := fun _ dv => dv.updCore n (·.addOp
      { seq := 0, unit := .vmem, kind := .vload d hd.mem r sr t.grp f s part c.regs.fpc none, dst := [.v d], left := 0,
        occ := 0, cost := 0, ilease := 0, fp := true, versioned := false, holds := hold })
    next := c.regs.pc + 1 }

/-- vld on core `n`. -/
def issueVld (n : Nat) (q : Pred) (d a h f : Nat) (b32 : Bool) (part imm : Nat) : Dev → Dev :=
  issueWith (fun n c j _ _ => planVld d a h f b32 part imm n c (decide (j.st = .presolving))) n q
    (.vld d a h f b32 part imm)

/-- Result of converting lanes for a store: bytes, scale bytes, generator. -/
structure StoreData where
  bytes : List Byte
  scales : List Byte
  g : W32

/-- Convert lanes to format `f` (R369, R431, R435-R437): block-scaled lanes take the scale `ex` or the selected one. -/
def storeLanes (fpc g : W32) (f s : Nat) (ex : Option Nat) (lanes : List W32) : StoreData :=
  let vs := lanes.map (rd32 fpc)
  match f with
  | 0 => { bytes := lanes.flatMap (fun w => toBytes w.toNat 4), scales := [], g := g }
  | 1 =>
    let r := convElems fpc encode16 g vs
    { bytes := r.1.flatMap (fun w => toBytes w.toNat 2), scales := [], g := r.2 }
  | 2 =>
    (chunks s vs.length vs).foldl (fun acc blk =>
      let sc := ex.getD (pickScale blk)
      let r := convElems fpc (encodeCf8 (fpcOvf fpc) sc) acc.g blk
      { bytes := acc.bytes ++ r.1, scales := acc.scales ++ [BitVec.ofNat 8 sc], g := r.2 })
      { bytes := [], scales := [], g := g }
  | _ =>
    let r := convElems fpc (encodeCf8 (fpcOvf fpc) 127) g vs
    { bytes := r.1, scales := [], g := r.2 }

def planVst (a b e h f : Nat) (b32 : Bool) (part : Nat) (expl : Bool) (imm n : Nat) (c : Core) (pres : Bool) : Plan :=
  let hd := c.handle h
  let s := blockSize b32
  let t := tileRow f s (dataRow (c.getX a) imm)
  let r := c.writeRow pres hd t.row
  let sr := t.srow.map (c.writeRow pres hd)
  let ex := if expl then some (bits (c.getX e).toNat 0 8) else none
  let out := storeLanes c.regs.fpc c.gv f s ex (c.getV b)
  let hold := mkHold true hd.mem (r :: sr.toList)
  { presolveWait := hd.presolveWaits
    versionedWrite := hd.valid && hd.versioned
    synds := handleSynd hd [0, 1, 2] (topRow [t])
    holds := hold
    vuPort := some hd.mem
    act := fun _ dv => dv.updCore n fun c =>
      ({ c with gv := out.g }.markShd pres hd (t.row :: t.srow.toList)).addOp
        { seq := 0, unit := .vmem,
          kind := .vstore hd.mem r (part * 128 * fmtSize f) out.bytes (sr.getD 0) (t.grp * (512 / s) + part * 128 / s)
            out.scales 0,
          dst := [], left := 4, occ := 0, cost := 0, ilease := 0, fp := true, versioned := hd.versioned, holds := hold }
    next := c.regs.pc + 1 }

/-- vst on core `n`. -/
def issueVst (n : Nat) (q : Pred) (a b e h f : Nat) (b32 : Bool) (part : Nat) (expl : Bool) (imm : Nat) : Dev → Dev :=
  issueWith (fun n c j _ _ => planVst a b e h f b32 part expl imm n c (decide (j.st = .presolving))) n q
    (.vst a b e h f b32 part expl imm)

/-! ### Lane arithmetic (Table 9-3) -/

/-- Plan of a VU instruction with its results and latency: one half-token while it is active (Table 12-1). -/
def Plan.vu (n : Nat) (c : Core) (ws : List RegWrite) (dst : List RegId) (lat : Nat) : Plan :=
  .long n c (regsOp .vu ws dst lat 1 0 true)

/-- Lane-wise two-operand result. -/
def lanes2 (f : W32 → W32 → W32) (a b : List W32) : List W32 := List.zipWith f a b

def planVbin (k : FbinK) (d a b : Nat) (rm : Rm) (n : Nat) (c : Core) : Plan :=
  .vu n c [.v d (lanes2 (k.eval c.regs.fpc (c.rmode rm)) (c.getV a) (c.getV b))] [.v d] 4

/-- vadd, vsub, vmul, vmin, vmax on core `n`. -/
def issueVbin (k : FbinK) (n : Nat) (q : Pred) (d a b : Nat) (rm : Rm) : Dev → Dev :=
  issueWith (fun n c _ _ _ => planVbin k d a b rm n c) n q (.vbin k d a b rm)

def planVfma (d a b e : Nat) (rm : Rm) (n : Nat) (c : Core) : Plan :=
  let m := c.rmode rm
  .vu n c [.v d (List.zipWith (fun (x : W32 × W32) y => f32Fma c.regs.fpc m x.1 x.2 y) ((c.getV a).zip (c.getV b)) (c.getV e))]
    [.v d] 4

/-- vfma on core `n`. -/
def issueVfma (n : Nat) (q : Pred) (d a b e : Nat) (rm : Rm) : Dev → Dev :=
  issueWith (fun n c _ _ _ => planVfma d a b e rm n c) n q (.vfma d a b e rm)

def planVsign (clear : Bool) (d a n : Nat) (c : Core) : Plan :=
  .vu n c [.v d ((c.getV a).map (signOp clear))] [.v d] 4

/-- vabs or vneg on core `n`. -/
def issueVsign (clear : Bool) (n : Nat) (q : Pred) (d a : Nat) : Dev → Dev :=
  issueWith (fun n c _ _ _ => planVsign clear d a n c) n q (.vsign clear d a)

def planVbcast (d a n : Nat) (c : Core) : Plan := .vu n c [.v d (List.replicate 128 (c.getF a))] [.v d] 2

/-- vbcast on core `n`. -/
def issueVbcast (n : Nat) (q : Pred) (d a : Nat) : Dev → Dev :=
  issueWith (fun n c _ _ _ => planVbcast d a n c) n q (.vbcast d a)

/-- The lane an x register names: its bits 6:0. -/
def laneOf (x : W64) : Nat := x.toNat % 128

def planVext (d a b n : Nat) (c : Core) : Plan := .vu n c [.f d (c.getL a (laneOf (c.getX b)))] [.f d] 2

/-- vext on core `n`. -/
def issueVext (n : Nat) (q : Pred) (d a b : Nat) : Dev → Dev :=
  issueWith (fun n c _ _ _ => planVext d a b n c) n q (.vext d a b)

def planVins (d a b n : Nat) (c : Core) : Plan :=
  .vu n c [.v d ((c.getV d).set (laneOf (c.getX b)) (c.getF a))] [.v d] 2

/-- vins on core `n`. -/
def issueVins (n : Nat) (q : Pred) (d a b : Nat) : Dev → Dev :=
  issueWith (fun n c _ _ _ => planVins d a b n c) n q (.vins d a b)

/-- Sum of 128 lanes in the fixed tree of R370. -/
def sum128 (fpc : W32) (m : RMode) (ws : List W32) : W32 := (treeSum fpc m 7 ws).headD 0

def planVsum (d a : Nat) (rm : Rm) (n : Nat) (c : Core) : Plan :=
  .vu n c [.f d (sum128 c.regs.fpc (c.rmode rm) (c.getV a))] [.f d] 10

/-- vsum on core `n`. -/
def issueVsum (n : Nat) (q : Pred) (d a : Nat) (rm : Rm) : Dev → Dev :=
  issueWith (fun n c _ _ _ => planVsum d a rm n c) n q (.vsum d a rm)

def planVdot (d a b : Nat) (rm : Rm) (n : Nat) (c : Core) : Plan :=
  let m := c.rmode rm
  .vu n c [.f d (sum128 c.regs.fpc m (lanes2 (f32Mul c.regs.fpc m) (c.getV a) (c.getV b)))] [.f d] 10

/-- vdot on core `n`. -/
def issueVdot (n : Nat) (q : Pred) (d a b : Nat) (rm : Rm) : Dev → Dev :=
  issueWith (fun n c _ _ _ => planVdot d a b rm n c) n q (.vdot d a b rm)

/-- Largest lane magnitude; NaN if any lane is NaN (Table 9-3). -/
def amax (fpc : W32) (ws : List W32) : FVal :=
  ws.foldl (fun m w => FVal.max m (rd32 fpc w).abs) (.fin false 0 0)

def planVamax (d a n : Nat) (c : Core) : Plan :=
  .vu n c [.f d (f32 c.regs.fpc .rne (amax c.regs.fpc (c.getV a)))] [.f d] 10

/-- vamax on core `n`. -/
def issueVamax (n : Nat) (q : Pred) (d a : Nat) : Dev → Dev :=
  issueWith (fun n c _ _ _ => planVamax d a n c) n q (.vamax d a)

/-! ### Refinement (R371-R373) -/

/-- Sum of two lanes and its error (R372). -/
def twoSum (fpc a b : W32) : W32 × W32 :=
  let e := (rd32 fpc a).add (rd32 fpc b)
  let s := f32 fpc .rne e
  (s, f32 fpc .rne (e.add (rd32 fpc s).neg))

def planTsum (d e a b n : Nat) (c : Core) : Plan :=
  let rs := List.zipWith (twoSum c.regs.fpc) (c.getV a) (c.getV b)
  .vu n c [.v d (rs.map Prod.fst), .v e (rs.map Prod.snd)] [.v d, .v e] 6

/-- vrf.tsum on core `n`. -/
def issueTsum (n : Nat) (q : Pred) (d e a b : Nat) : Dev → Dev :=
  issueWith (fun n c _ _ _ => planTsum d e a b n c) n q (.tsum d e a b)

/-- a − b − c, rounded once to nearest even. -/
def resid3 (fpc a b c : W32) : W32 :=
  f32 fpc .rne (((rd32 fpc a).add (rd32 fpc b).neg).add (rd32 fpc c).neg)

def planVres (d a b e n : Nat) (c : Core) : Plan :=
  .vu n c [.v d (List.zipWith (fun (x : W32 × W32) y => resid3 c.regs.fpc x.1 x.2 y)
    ((c.getV a).zip (c.getV b)) (c.getV e))] [.v d] 6

/-- vrf.res on core `n`. -/
def issueVres (n : Nat) (q : Pred) (d a b e : Nat) : Dev → Dev :=
  issueWith (fun n c _ _ _ => planVres d a b e n c) n q (.vres d a b e)

/-- Exponent of the largest lane magnitude (R373). -/
def expOf (fpc : W32) (ws : List W32) : W64 :=
  match amax fpc ws with
  | .fin _ m e => if m = 0 then BitVec.ofInt 64 (-32768) else BitVec.ofInt 64 (e + (Nat.log2 m : Nat))
  | _ => 32767

def planVexp (d a n : Nat) (c : Core) : Plan := .vu n c [.x d (expOf c.regs.fpc (c.getV a))] [.x d] 8

/-- vrf.exp on core `n`. -/
def issueVexp (n : Nat) (q : Pred) (d a : Nat) : Dev → Dev :=
  issueWith (fun n c _ _ _ => planVexp d a n c) n q (.vexp d a)

/-! ### Matrix engine (R374-R380) -/

/-- Rows a tile reads: its data rows with their scale rows, as logical rows. -/
def Core.tileRead (c : Core) (pres : Bool) (h : HDesc) (rs : List TileRow) : List (Nat × Nat × Option Nat × Nat) :=
  rs.map (fun r => (h.mem, c.readRow pres h r.row, r.srow.map (c.readRow pres h), r.grp))

def planMma (t0 t1 : TileOp) (h2 o2 xa xb xc : Nat) (acc : Bool) (kch q n : Nat) (c : Core) (pres : Bool) : Plan :=
  let ha := c.handle t0.h
  let hb := c.handle t1.h
  let hc := c.handle h2
  let s := blockSize t0.b
  let ra := tileRows t0.f s (firstRow t0.o (c.getX xa)) (t0.n + 1)
  let rb := tileRows t1.f (blockSize t1.b) (firstRow t1.o (c.getX xb)) (t1.n + 1)
  let k := 32 * (kch + 1)
  let rows := touched ra ++ touched rb
  let w := (t0.n + q) / 4 + 1
  let c0 := firstRow o2 (c.getX xc)
  let kc := k * mxeCost t0.f
  let la := (touched ra).map (fun i => (ha.mem, c.readRow pres ha i))
  let lb := (touched rb).map (fun i => (hb.mem, c.readRow pres hb i))
  let cs := (span c0 w).map (c.writeRow pres hc)
  let cr := if acc then (span c0 w).map (c.readRow pres hc) else []
  let rowsIn (m : Nat) := ((la ++ lb).filter (fun e => e.1 == m)).map Prod.snd
  let hold := mkHold true hc.mem cs ++ mkHold false hc.mem cr ++ mkHold false 0 (rowsIn 0) ++ mkHold false 1 (rowsIn 1)
  let m : MmaOp :=
    { fmtA := t0.f, fmtB := t1.f, bs := if t0.f = 2 then s else if t1.f = 2 then blockSize t1.b else 32, k := k, q := q,
      acc := acc, aRows := c.tileRead pres ha ra, bRows := c.tileRead pres hb rb, cRows := cs, cSrc := cr, fpc := c.regs.fpc }
  { presolveWait := hc.presolveWaits
    versionedWrite := hc.valid && hc.versioned
    synds := handleSynd ha [0, 1] (topRow ra) ++ handleSynd hb [0, 1] (topRow rb) ++ handleSynd hc [2] (c0 + w - 1)
    holds := hold
    haz := c.hazRead ha.mem (la.map Prod.snd) ++ c.hazRead hb.mem (lb.map Prod.snd) ++ c.hazRead hc.mem cr
    act := fun il dv => dv.updCore n fun c => (c.markShd pres hc (span c0 w)).addOp
      { seq := 0, unit := .mxe, kind := .mma m (la ++ lb) [] [] 0, dst := [], left := 8 + rows.length + kc + w,
        occ := rows.length + kc, cost := 2, ilease := il, fp := true, versioned := hc.versioned, holds := hold }
    next := c.regs.pc + 1 }

/-- mxe.mma on core `n`. -/
def issueMma (n : Nat) (q : Pred) (t0 t1 : TileOp) (h2 o2 xa xb xc : Nat) (acc : Bool) (kch qq : Nat) : Dev → Dev :=
  issueWith (fun n c j _ _ => planMma t0 t1 h2 o2 xa xb xc acc kch qq n c (decide (j.st = .presolving))) n q
    (.mma t0 t1 h2 o2 xa xb xc acc kch qq)

/-- A row among those the MXE has read. -/
def gotRow (got : List ((Nat × Nat) × List Byte)) (m r : Nat) : List Byte :=
  ((got.find? (fun e => e.1 == (m, r))).map Prod.snd).getD []

/-- The K elements of a data row that the MXE takes, with binary32 subnormals read under SUBN (R429). -/
def mmaElems (fpc : W32) (f bs k : Nat) (got : List ((Nat × Nat) × List Byte)) (r : Nat × Nat × Option Nat × Nat) :
    List FVal :=
  let row := gotRow got r.1 r.2.1
  let srow := match r.2.2.1 with
    | some sr => gotRow got r.1 sr
    | none => []
  let vs := rowElems f row (scaleOf bs r.2.2.2 srow) 0 k
  if f = 0 then (List.range k).map (fun i => rd32 fpc (BitVec.ofNat 32 (fieldAt row (4 * i) 4))) else vs

/-- One accumulation step: the exact addend is added and rounded once (R378). -/
def accStep (fpc acc : W32) (v : FVal) : W32 := f32 fpc (fpcRm fpc) ((rd32 fpc acc).add v)

/-- One element of the product (R378): per block for CF8, per element otherwise. -/
def mmaDot (m : MmaOp) (a b : List FVal) (c0 : W32) : W32 :=
  let ps := List.zipWith FVal.mul a b
  if m.fmtA = 0 || m.fmtA = 1 then ps.foldl (accStep m.fpc) c0
  else
    ((chunks m.bs ps.length ps).map (fun blk => blk.foldl FVal.add (.fin false 0 0))).foldl (accStep m.fpc) c0

/-- Place of C(i, j): row offset from the first result row, byte (R377). -/
def mmaPlace (q i j : Nat) : Nat × Nat := ((i + q) / 4, (i + q) % 4 * 128 + 4 * j)

/-- What the MXE writes into result row `i` (R377, R378): byte offset and bytes of each row of C that lies there; `old` is the row that
the accumulator starts from. -/
def mmaPieces (m : MmaOp) (got : List ((Nat × Nat) × List Byte)) (old : List Byte) (i : Nat) : List (Nat × List Byte) :=
  let as := m.aRows.map (mmaElems m.fpc m.fmtA m.bs m.k got)
  let bs := m.bRows.map (mmaElems m.fpc m.fmtB m.bs m.k got)
  (as.zipIdx.filter (fun a => decide ((mmaPlace m.q a.2 0).1 = i))).map fun a =>
    ((mmaPlace m.q a.2 0).2, bs.zipIdx.flatMap (fun b =>
      let c0 := if m.acc then BitVec.ofNat 32 (fieldAt old (mmaPlace m.q a.2 b.2).2 4) else 0
      toBytes (mmaDot m a.1 b.1 c0).toNat 4))

/-! ### rcount (R402) -/

def planRcount (d a b h rows mode f imm n : Nat) (c : Core) (pres : Bool) : Plan :=
  let hd := c.handle h
  let r0 := dataRow (c.getX a) imm
  let rs := (span r0 rows).map (c.readRow pres hd)
  let hold := mkHold false hd.mem rs
  let thr := if f = 0 then c.getF b else (c.getX b).setWidth 32
  { synds := handleSynd hd [0, 1, 2] (r0 + rows - 1)
    holds := hold
    vuPort := some hd.mem
    haz := c.hazRead hd.mem rs
    act := fun _ dv => dv.updCore n (·.addOp
      { seq := 0, unit := .rcount, kind := .count d mode f thr c.regs.fpc hd.mem rs 0, dst := [.x d], left := 6 + rows,
        occ := 0, cost := 0, ilease := 0, fp := true, versioned := false, holds := hold })
    next := c.regs.pc + 1 }

/-- rcount on core `n`. -/
def issueRcount (n : Nat) (q : Pred) (d a b h rows mode f imm : Nat) : Dev → Dev :=
  issueWith (fun n c j _ _ => planRcount d a b h rows mode f imm n c (decide (j.st = .presolving))) n q
    (.rcount d a b h rows mode f imm)

/-- Elements of a row that satisfy the mode against the threshold (R402). -/
def countRow (mode f : Nat) (thr fpc : W32) (row : List Byte) : Nat :=
  let t := if f = 0 then rd32 fpc thr else .ofInt thr.toInt
  ((List.range 128).filter (fun i =>
    let w : W32 := BitVec.ofNat 32 (fieldAt row (4 * i) 4)
    countHit mode (if f = 0 then rd32 fpc w else .ofInt w.toInt) t)).length

end Sys2Proof.Machine
end

