-- ==== Sys2Proof/Machine/TransferOps.lean ====
section
/-!
DEFINITION. Machine/TransferOps.lean: local DMA, remote writes, rings, arrival counters and the fence (09).
-/
namespace Sys2Proof.Machine

/-! ### Local DMA (R381-R388) -/

/-- Bytes of memory per row (R383). -/
def memRowLen (f0 f1 : Nat) : Nat := if f0 = 7 then 512 else fmtElems f0 * fmtSize f1

/-- The extent of a transfer may be used by tenant `t` (R385). -/
def Dev.dmaExtentOk (d : Dev) (t addr stride len rows : Nat) : Bool :=
  let n := (rows - 1) * stride + len
  addr % 64 == 0 && stride % 64 == 0 && (inHost addr n || (decide (addr < 2 ^ 63) && d.inReach t addr n))

/-- Handle rows of a transfer in order (R383, R384): with F1 = 0x2 every handle row through the last group's scale row. -/
def dmaRows (t : TileOp) (f1 first : Nat) : List TileRow :=
  let s := blockSize t.b
  if f1 = 2 then
    let lo := (tileRow 2 s first).row
    let hi := ((tileRow 2 s (first + t.n)).srow).getD 0
    (span lo (hi + 1 - lo)).map (fun r => { row := r, srow := none, grp := 0 })
  else tileRows t.f s first (t.n + 1)

/-- The transfer of a dma.rd or dma.wr, its syndromes and its effect. -/
def planDma (rd async : Bool) (t : TileOp) (f1 xa xb xc n : Nat) (c : Core) (j : Job) (pres : Bool) (dv : Dev) : Plan :=
  let hd := c.handle t.h
  let s := blockSize t.b
  let first := firstRow t.o (c.getX xa)
  let rows := dmaRows t f1 first
  let raw := f1 = 2
  let len := if raw then 512 else memRowLen t.f f1
  let stride := if raw || xc = 0 then len else (c.getX xc).toNat
  let addr := (c.getX xb).toNat
  let asyncOn := rd && async && hd.actr.isSome
  let log (i : Nat) := if rd then c.writeRow pres hd i else c.readRow pres hd i
  let tr := touched rows
  let ls := tr.map log
  let hold := if asyncOn then [] else mkHold rd hd.mem ls
  let tf : Dma :=
    { rd := rd, async := asyncOn, mem := hd.mem, f0 := if raw then 7 else t.f, f1 := if raw then 7 else f1, bs := s,
      rows := rows.map (fun r => (log r.row, r.srow.map log, r.grp)), moved := 0, data := none, addr := addr, stride := stride,
      rowLen := len, actr := if asyncOn then hd.actr else none, fpc := c.regs.fpc, reseed := c.gdNext,
      versioned := rd && hd.versioned, holds := hold }
  { presolveWait := !rd || hd.presolveWaits
    versionedWrite := rd && hd.valid && hd.versioned
    busy := decide (16 ≤ c.dmaq.length)
    synds := (if raw && first % s != 0 then [3] else []) ++ handleSynd hd [0, 1, 2] (topRow rows) ++
      (if dv.dmaExtentOk j.tenant addr stride len rows.length then [] else [0xC])
    holds := hold
    haz := if rd then [] else c.hazRead hd.mem ls
    act := fun _ d => d.updCore n fun c =>
      let c := if rd then c.markShd pres hd tr else c
      let c := if asyncOn && c.haz.mode != 0 then ls.foldl (fun c r => c.pendAdd hd.mem r 2) c else c
      { c with dmaq := c.dmaq ++ [tf], gdNext := none, dmaIss := c.dmaIss + 1,
               dmaLastWr := if rd then c.dmaLastWr else c.dmaIss + 1 }
    next := c.regs.pc + 1 }

/-- dma.rd on core `n`. -/
def issueDmaRd (n : Nat) (q : Pred) (t : TileOp) (f1 : Nat) (b1 : Bool) (xa xb xc : Nat) (async : Bool) : Dev → Dev :=
  issueWith (fun n c j _ dv => planDma true async t f1 xa xb xc n c j (decide (j.st = .presolving)) dv) n q
    (.dmaRd t f1 b1 xa xb xc async)

/-- dma.wr on core `n`. -/
def issueDmaWr (n : Nat) (q : Pred) (t : TileOp) (f1 : Nat) (b1 : Bool) (xa xb xc : Nat) : Dev → Dev :=
  issueWith (fun n c j _ dv => planDma false false t f1 xa xb xc n c j (decide (j.st = .presolving)) dv) n q
    (.dmaWr t f1 b1 xa xb xc)

/-- Elements of a scratchpad row that a transfer sends, converted to the memory format (Table 10-3, R433). -/
def dmaOut (t : Dma) (row srow : List Byte) (grp : Nat) (g : W32) : List Byte × W32 :=
  if t.f0 = t.f1 || (t.f0 == 2 && t.f1 == 3) then (row, g)
  else
    let vs := rowElems t.f0 row (scaleOf t.bs grp srow) 0 (fmtElems t.f0)
    let vs := if t.f0 = 0 then vs.map (fun v => rd32 t.fpc (encode32 false .rne v)) else vs
    match t.f1 with
    | 0 => (vs.flatMap (fun v => toBytes (f32 t.fpc (fpcConv t.fpc) v).toNat 4), g)
    | 1 =>
      if t.f0 = 0 then
        let r := convElems t.fpc encode16 g vs
        (r.1.flatMap (fun w => toBytes w.toNat 2), r.2)
      else (vs.flatMap (fun v => toBytes (encode16 (fpcConv t.fpc) v).toNat 2), g)
    | _ =>
      let r := convElems t.fpc (encodeCf8 (fpcOvf t.fpc) 127) g vs
      (r.1, r.2)

/-- What a memory row becomes in the scratchpad: row bytes, scale bytes, generator (Table 10-3, R433, R435, R436). -/
def dmaIn (t : Dma) (m : List Byte) (g : W32) : StoreData :=
  if t.f0 = t.f1 then { bytes := m, scales := [], g := g }
  else if t.f0 = 2 && t.f1 = 3 then { bytes := m, scales := List.replicate (512 / t.bs) 127, g := g }
  else
    let vs := rowElems t.f1 m (fun _ => 127) 0 (fmtElems t.f0)
    let vs := if t.f1 = 0 then vs.map (fun v => rd32 t.fpc (encode32 false .rne v)) else vs
    match t.f0 with
    | 0 => { bytes := vs.flatMap (fun v => toBytes (f32 t.fpc (fpcConv t.fpc) v).toNat 4), scales := [], g := g }
    | 1 =>
      if t.f1 = 0 then
        let r := convElems t.fpc encode16 g vs
        { bytes := r.1.flatMap (fun w => toBytes w.toNat 2), scales := [], g := r.2 }
      else { bytes := vs.flatMap (fun v => toBytes (encode16 (fpcConv t.fpc) v).toNat 2), scales := [], g := g }
    | 2 =>
      (chunks t.bs vs.length vs).foldl (fun acc blk =>
        let sc := pickScale blk
        let r := convElems t.fpc (encodeCf8 (fpcOvf t.fpc) sc) acc.g blk
        { bytes := acc.bytes ++ r.1, scales := acc.scales ++ [BitVec.ofNat 8 sc], g := r.2 })
        { bytes := [], scales := [], g := g }
    | _ =>
      let r := convElems t.fpc (encodeCf8 (fpcOvf t.fpc) 127) g vs
      { bytes := r.1, scales := [], g := r.2 }

/-- Address of memory row `i` of a transfer. -/
def Dma.rowAddr (t : Dma) (i : Nat) : Nat := t.addr + i * t.stride

/-! ### Remote writes and rings (R389-R397) -/

/-- A register that names a core by `coreidx` (R299). -/
def coreSynd (x : W64) (j : Job) : List Nat := if x.toNat < j.n then [] else [0xD]

/-- Register the destination rows with the destination core's detector (R567, R568). -/
def Dev.registerRows (d : Dev) (dst : Nat) (mem : Nat) (rows : List Nat) : Dev :=
  if (d.core dst).haz.mode = 0 then d
  else d.updCore dst (fun c => rows.foldl (fun c r => c.pendAdd mem r 1) c)

/-- Hops between two cores (Table 2-3, R69). -/
def hops (a b : Nat) : Nat := (a % 6 - b % 6) + (b % 6 - a % 6) + (a / 6 - b / 6) + (b / 6 - a / 6)

/-- FCLK by which the detector delays a remote write or ring push (R568). -/
def detectorDelay (a b : Nat) : Nat := 2 * (6 + 3 * hops a b)

/-- Queue a remote transfer. -/
def Core.remotePush (c : Core) (t : Remote) : Core := { c with rq := c.rq ++ [t], remIss := c.remIss + 1 }

def planRwPut (h0 o0 n0 h1 o1 xb xc n : Nat) (c : Core) (j : Job) (pres : Bool) : Plan :=
  let hs := c.handle h0
  let hd := c.handle h1
  let row := firstRow o1 (c.getX xc)
  let src := (span o0 (n0 + 1)).map (c.readRow pres hs)
  let hold := mkHold false hs.mem src
  let dst := (c.getX xb).toNat
  { presolveWait := true
    busy := decide (8 ≤ c.rq.length)
    synds := coreSynd (c.getX xb) j ++ handleSynd hs [0, 1, 2] (o0 + n0) ++ handleSynd hd [0, 1, 2] (row + n0) ++
      (if hd.valid && !hd.remote then [6] else [])
    holds := hold
    haz := c.hazRead hs.mem src
    delay := detectorDelay n (nth 0 j.cores dst)
    act := fun _ d =>
      let d := d.updCore n (·.remotePush
        { ring := false, mem := hs.mem, rows := src, sent := [], dst := dst, handle := h1, row := row, holds := hold })
      d.registerRows (nth 0 j.cores dst) hd.mem (span (hd.base + row) (n0 + 1))
    next := c.regs.pc + 1 }

/-- rw.put on core `n`. -/
def issueRwPut (n : Nat) (q : Pred) (h0 o0 n0 h1 o1 xb xc : Nat) : Dev → Dev :=
  issueWith (fun n c j _ _ => planRwPut h0 o0 n0 h1 o1 xb xc n c j (decide (j.st = .presolving))) n q
    (.rwPut h0 o0 n0 h1 o1 xb xc)

/-- Key of a ring on a core of the set. -/
def ringKey (dst h : Nat) : Nat := dst * 64 + h

/-- Free rows of a ring as its pusher sees it: its own tail count and the last head count reported (R394, R467). -/
def Core.ringFree (c : Core) (dst h : Nat) : Nat :=
  let cnt := (c.handle h).count
  let k := ringKey dst h
  let occ := (SMap.get 0 c.rows.tcOut k + 2 * cnt - SMap.get 0 c.rows.hcSeen k) % (2 * cnt)
  if occ ≤ cnt then cnt - occ else 0

/-- Issue a ring push that has room: its rows take the next tail places (R393, R466). -/
def Core.ringSend (c : Core) (t : Remote) : Core :=
  let cnt := (c.handle t.handle).count
  let k := ringKey t.dst t.handle
  let tc := SMap.get 0 c.rows.tcOut k
  { c with rows := { c.rows with tcOut := SMap.set 0 c.rows.tcOut k ((tc + t.rows.length) % (2 * cnt)) } }.remotePush
    { t with row := tc % cnt }

/-- Core `n` registers as a producer of the ring with the detector of its core (R568). -/
def Dev.ringProducer (d : Dev) (n dst h : Nat) : Dev :=
  if (d.core dst).haz.mode = 0 then d
  else
    d.updCore dst (fun c => { c with haz := { c.haz with
      producer := SMap.upd [] c.haz.producer h (fun l => if l.contains n then l else l ++ [n]) } })

/-- The rows a push will write, by handle row. -/
def ringRows (tail n cnt : Nat) : List Nat := (List.range n).map (fun i => (tail + i) % cnt)

/-- A ring push issues: it registers with the destination's detector and enters the queue. -/
def Dev.ringIssue (d : Dev) (n : Nat) (j : Job) (t : Remote) : Dev :=
  let hd := (d.core n).handle t.handle
  let dst := nth 0 j.cores t.dst
  let tail := SMap.get 0 (d.core n).rows.tcOut (ringKey t.dst t.handle) % hd.count
  let d := d.updCore n (·.ringSend t)
  (d.ringProducer n dst t.handle).registerRows dst hd.mem ((ringRows tail t.rows.length hd.count).map (hd.base + ·))

def planRingPush (h0 o0 n0 h1 xb n : Nat) (c : Core) (j : Job) (pres : Bool) (dv : Dev) : Plan :=
  let hs := c.handle h0
  let hd := c.handle h1
  let src := (span o0 (n0 + 1)).map (c.readRow pres hs)
  let hold := mkHold false hs.mem src
  let dst := (c.getX xb).toNat
  let t : Remote := { ring := true, mem := hs.mem, rows := src, sent := [], dst := dst, handle := h1, row := 0, holds := hold }
  let others := (SMap.get [] (dv.core (nth 0 j.cores dst)).haz.producer h1).filter (· != n)
  { presolveWait := true
    busy := decide (8 ≤ c.rq.length)
    synds := coreSynd (c.getX xb) j ++ handleSynd hs [0, 1, 2] (o0 + n0) ++ handleSynd hd [0, 1, 2] n0 ++
      (if hd.valid && !hd.ring then [7] else []) ++
      (if hd.valid && !hd.remote && decide (dst < j.n) && dst != c.idx then [6] else [])
    holds := hold
    haz := c.hazRead hs.mem src ++ (if c.haz.mode ≠ 0 ∧ others ≠ [] then [(4, hd.mem, hd.base)] else [])
    delay := detectorDelay n (nth 0 j.cores dst)
    act := fun _ d =>
      if (d.core n).ringFree dst h1 < n0 + 1 then d.updCore n (fun c => { c with wait := .ring t (n0 + 1) })
      else d.ringIssue n j t
    next := c.regs.pc + 1 }

/-- ring.push on core `n`. -/
def issueRingPush (n : Nat) (q : Pred) (h0 o0 n0 h1 xb : Nat) : Dev → Dev :=
  issueWith (fun n c j _ dv => planRingPush h0 o0 n0 h1 xb n c j (decide (j.st = .presolving)) dv) n q
    (.ringPush h0 o0 n0 h1 xb)

/-- Syndromes of a ring instruction (R396). -/
def ringSynds (h : HDesc) : List Nat := if !h.valid then [5] else if !h.ring then [7] else []

def planRingHead (d h n : Nat) (c : Core) : Plan :=
  { Plan.regs n c [.x d (BitVec.ofNat 64 (SMap.get 0 c.rows.hc h % (c.handle h).count))] with synds := ringSynds (c.handle h) }

/-- ring.head on core `n`. -/
def issueRingHead (n : Nat) (q : Pred) (d h : Nat) : Dev → Dev :=
  issueWith (fun n c _ _ _ => planRingHead d h n c) n q (.ringHead d h)

def planRingAvail (d h n : Nat) (c : Core) : Plan :=
  { Plan.regs n c [.x d (BitVec.ofNat 64 (c.occupancy h))] with synds := ringSynds (c.handle h) }

/-- ring.avail on core `n`. -/
def issueRingAvail (n : Nat) (q : Pred) (d h : Nat) : Dev → Dev :=
  issueWith (fun n c _ _ _ => planRingAvail d h n c) n q (.ringAvail d h)

def planRingPop (a h n : Nat) (c : Core) : Plan :=
  let hd := c.handle h
  let k := (c.getX a).toNat
  { synds := ringSynds hd
    haz := if c.haz.mode ≠ 0 ∧ c.occupancy h < k then [(3, hd.mem, hd.base)] else []
    act := fun _ d => d.updCore n fun c =>
      { c with rows := { c.rows with hc := SMap.upd 0 c.rows.hc h (fun v => (v + k) % (2 * hd.count)) } }
    next := c.regs.pc + 1 }

/-- ring.pop on core `n`. -/
def issueRingPop (n : Nat) (q : Pred) (a h : Nat) : Dev → Dev :=
  issueWith (fun n c _ _ _ => planRingPop a h n c) n q (.ringPop a h)

/-! ### Arrival counters and the fence (R398-R400) -/

def planArrWait (b i n : Nat) (c : Core) : Plan :=
  let t : W32 := (c.getX b).setWidth 32
  { act := fun _ d => d.updCore n (fun c => if c.arrived i t then c else { c with wait := .arr i t false })
    next := c.regs.pc + 1 }

/-- arr.wait on core `n`. -/
def issueArrWait (n : Nat) (q : Pred) (b i : Nat) : Dev → Dev :=
  issueWith (fun n c _ _ _ => planArrWait b i n c) n q (.arrWait b i)

def planArrRead (d i n : Nat) (c : Core) : Plan :=
  .long n c (regsOp .scalar [.x d ((SMap.get 0 c.rows.arr i).setWidth 64)] [.x d] 2 0 0 false)

/-- arr.read on core `n`. -/
def issueArrRead (n : Nat) (q : Pred) (d i : Nat) : Dev → Dev :=
  issueWith (fun n c _ _ _ => planArrRead d i n c) n q (.arrRead d i)

def planArrSet (b i n : Nat) (c : Core) : Plan :=
  { presolveWait := true
    act := fun _ d => d.updCore n (·.arrPut i ((c.getX b).setWidth 32))
    next := c.regs.pc + 1 }

/-- arr.set on core `n`. -/
def issueArrSet (n : Nat) (q : Pred) (b i : Nat) : Dev → Dev :=
  issueWith (fun n c _ _ _ => planArrSet b i n c) n q (.arrSet b i)

/-- Every transfer of the core is complete (R400). -/
def Core.xfersDone (c : Core) : Bool := c.dmaq.isEmpty && c.rq.isEmpty

def planFence (n : Nat) (c : Core) : Plan :=
  { act := fun _ d => d.updCore n (fun c => if c.xfersDone then c else { c with wait := .fence })
    next := c.regs.pc + 1 }

/-- xfer.fence on core `n`. -/
def issueFence (n : Nat) (q : Pred) : Dev → Dev :=
  issueWith (fun n c _ _ _ => planFence n c) n q .xferFence

end Sys2Proof.Machine
end

