-- ==== Sys2Proof/Machine/BankOps.lean ====
section
/-!
DEFINITION. Machine/BankOps.lean: the scratchpads behind their ports: check bits and errors, the rows that operations and the DMA engine ask
for, the grant of a bank cycle, and the accesses that a row on its way makes (09, 11).
-/
namespace Sys2Proof.Machine

/-! ### Check bits (R442, R443, R482-R486, R493) -/

/-- Key of an aligned 8-byte word of a row. -/
def wordKey (mem row w : Nat) : Nat := rowKey mem row * 64 + w

/-- The words of a row. -/
def allWords : List Nat := List.range 64

/-- The words that `n` bytes from byte `off` of a row touch. -/
def wordsOf (off n : Nat) : List Nat := if n = 0 then [] else span (off / 8) ((off + n - 1) / 8 + 1 - off / 8)

/-- Those of them that a write covers only in part: it reads and merges them (R442, R443). -/
def partWords (off n : Nat) : List Nat := (wordsOf off n).filter (fun w => !(decide (off ≤ 8 * w) && decide (8 * w + 8 ≤ off + n)))

/-- The words, among `ws`, whose check bits show an error: corrected (1) or uncorrectable (2). -/
def Core.badWords (c : Core) (lvl mem row : Nat) (ws : List Nat) : List Nat :=
  ws.filter (fun w => decide (SMap.get 0 c.ecc (wordKey mem row w) = lvl))

/-- One bit, or two, of a word have been upset. -/
def Core.upset (c : Core) (mem row w : Nat) (two : Bool) : Core :=
  { c with ecc := SMap.upd 0 c.ecc (wordKey mem row w) (fun v => if two then 2 else max 1 v) }

/-- Record a corrected error in `COR_SPERR` (R483). -/
def Core.corrected (c : Core) (mem row : Nat) : Core :=
  let w := c.sperr.toNat
  let cnt := min 0xFFFF (bits w 0 16 + 1)
  { c with sperr := BitVec.ofNat 64 (w - bits w 0 28 + cnt + place mem 16 2 + place row 18 10) }

/-- A read meets a corrected error in row `row`. -/
def Dev.correct (d : Dev) (n mem row : Nat) : Dev :=
  (d.updCore n (·.corrected mem row)).record { cls := 1, source := 0, index := n, code := 0x0001, info := row + place mem 16 2 }

/-- Record an uncorrectable row in `COR_SPERR` while UEVALID is 0 (R497). -/
def Core.uncorrectable (c : Core) (mem row : Nat) : Core :=
  if c.sperr.getLsbD 63 then c
  else
    let w := c.sperr.toNat
    { c with sperr := BitVec.ofNat 64 (w - bits w 32 12 * 2 ^ 32 + place mem 32 2 + place row 34 10 + place 1 63 1) }

/-- The row that `COR_SPERR` records as uncorrectable. -/
def Core.ueRow (c : Core) : Nat × Nat := (bits c.sperr.toNat 32 2, bits c.sperr.toNat 34 10)

/-- An uncorrectable error met on core `n` (R484-R486, R493): recorded; the core takes no further job before the recorded row is
remapped; one that run-ahead or the wrong path does not meet (`spec`) ends the job FAULT. -/
def Dev.scratchUe (d : Dev) (n mem row : Nat) (spec : Bool) : Dev :=
  match d.coreJob n with
  | none => d
  | some (k, j) =>
    let d := d.updCore n (·.uncorrectable mem row)
    let d := if spec then d
      else (d.record { cls := 3, source := 0, index := n, code := 0x0010, info := row + place mem 16 2, job := j.forRec })
    let d := if spec then d else if j.fin.isSome then d.lateFault k 0x30 else d.coreFault n 0x30 noAddr
    let d := d.updCore n (fun c => { c with tag := none, held := true })
    let r := (n, (d.core n).ueRow)
    { d with kiln := { d.kiln with remap := if d.kiln.remap.contains r then d.kiln.remap else d.kiln.remap ++ [r] } }

/-- Words of a row are read: the check bits of each are looked at (R482). -/
def Dev.checkRead (d : Dev) (n mem row : Nat) (ws : List Nat) (spec : Bool) : Dev :=
  let c := d.core n
  let d := (c.badWords 1 mem row ws).foldl (fun d _ => d.correct n mem row) d
  if c.badWords 2 mem row ws = [] then d else d.scratchUe n mem row spec

/-- The words are read without an uncorrectable error. -/
def Core.readable (c : Core) (mem row : Nat) (ws : List Nat) : Bool := (c.badWords 2 mem row ws).isEmpty

/-- Write bytes of a row. A word that the write covers in part and that holds an uncorrectable error is not written (R485); every other
word takes new check bits. -/
def Core.put (c : Core) (mem row off : Nat) (bs : List Byte) : Core :=
  let bad := c.badWords 2 mem row (partWords off bs.length)
  let old := c.spRead mem row off bs.length
  let out := if bad = [] then bs
    else (bs.zip old).zipIdx.map (fun e => if bad.contains ((off + e.2) / 8) then e.1.2 else e.1.1)
  let new := ((wordsOf off bs.length).filter (fun w => !bad.contains w)).map (wordKey mem row)
  { c.spWrite mem row off out with ecc := SMap.keep (fun k _ => !new.contains k) c.ecc }

/-- One write of a row in a bank cycle: pieces of it, by byte offset (R441-R443, R485). -/
def Dev.store (d : Dev) (n mem row : Nat) (ps : List (Nat × List Byte)) : Dev :=
  ps.foldl (fun d p => d.updCore n (·.put mem row p.1 p.2))
    (d.checkRead n mem row (ps.flatMap (fun p => partWords p.1 p.2.length)) false)

/-- The job on core `n` uses a row that it has read: `f` acts on the bytes, unless the read meets an uncorrectable error. -/
def Dev.readRow (d : Dev) (n mem row : Nat) (f : List Byte → Dev → Dev) : Dev :=
  let c := d.core n
  let d := d.checkRead n mem row allWords false
  if c.readable mem row allWords then f (c.spRow mem row) d else d

/-! ### What the ports ask for (Table 11-3, R448) -/

/-- Change an operation. -/
def Core.updOp (c : Core) (seq : Nat) (f : Op → Op) : Core :=
  { c with ops := c.ops.map (fun o => if o.seq = seq then f o else o) }

/-- Forget an operation; its instruction lease is returned (R514). -/
def Dev.dropOp (d : Dev) (n : Nat) (o : Op) : Dev :=
  (d.updCore n (fun c => { c with
    ops := c.ops.filter (fun p => p.seq != o.seq), tok := { c.tok with iend := c.tok.iend + o.ilease } })).settleLeases n

/-- The rows a matrix product asks for: its next tile row, then in the PSP its next row to accumulate on, then its next result row
(R379, R944). -/
def Op.mxeReqs (o : Op) : List (Nat × Nat) :=
  match o.kind with
  | .mma m todo _ cgot wdone =>
    todo.head?.toList ++
    (if cgot.length < m.cSrc.length then [(2, nth 0 m.cSrc cgot.length)]
     else if todo.isEmpty && decide (wdone < m.cRows.length) && decide (o.left ≤ m.cRows.length - wdone) then [(2, nth 0 m.cRows wdone)]
     else [])
  | _ => []

/-- The row of the transfer that moves next: logical row, scale row, place in the group. -/
def Dma.nextRow (t : Dma) : Nat × Option Nat × Nat := t.rows.getD t.moved (0, none, 0)

/-- The scale row that the next row of a dma.wr needs besides its data (R382, R441). -/
def Dma.scaleRow (t : Dma) : Option Nat := if t.f1 = t.f0 || (t.f0 == 2 && t.f1 == 3) then none else t.nextRow.2.1

/-- The row that a dma.wr reads next. -/
def Dma.asks (t : Dma) : Option Nat :=
  if t.rd || decide (t.rows.length ≤ t.moved) then none
  else some (if t.data.isSome then t.scaleRow.getD t.nextRow.1 else t.nextRow.1)

/-- Who asks at a port. -/
inductive Asker where
  | op (o : Op)
  | dma
  | remote
  deriving DecidableEq, Repr

/-- The request of a port for rows of memory `mem`: that of the oldest operation, or transfer, that has one. Ports: 0 MXE, 1 VU, 2 DMA,
3 INBOUND, 4 NARROW; the rows of port 3 and the debug window come with their commands. -/
def Core.ask (c : Core) (port mem : Nat) : Option (Asker × Nat) :=
  let ops (f : Op → List (Nat × Nat)) : Option (Asker × Nat) :=
    c.ops.findSome? (fun o => ((f o).find? (fun r => r.1 == mem)).map (fun r => (.op o, r.2)))
  match port with
  | 0 => ops Op.mxeReqs
  | 1 => ops (fun o => o.vuReq.toList)
  | 2 =>
    let w := c.dmaq.head?.bind (fun t => if t.mem = mem then t.asks else none)
    match w with
    | some r => some (.dma, r)
    | none => (c.rq.head?.bind (fun t => if t.mem = mem then t.rows.head? else none)).map (fun r => (.remote, r))
  | 4 => ops (fun o => o.narrowReq.toList)
  | _ => none

/-- The port may be granted in this CCLK: once in each memory, and one tile row in all for the MXE (R448, R944). -/
def Core.portFree (c : Core) (port mem : Nat) : Bool :=
  !c.ported.contains (port, mem) && !(port == 0 && decide (mem < 2) && (c.ported.contains (0, 0) || c.ported.contains (0, 1)))

/-- The request of a port at a bank. -/
def Core.askAt (c : Core) (port mem bank : Nat) : Option (Asker × Nat) :=
  if c.portFree port mem then (c.ask port mem).filter (fun r => decide (bankOf r.2 = bank)) else none

/-! ### What a granted access does -/

/-- A row is no longer held by a read range of the operation. -/
def Op.released (o : Op) (mem row : Nat) : Op := { o with holds := o.holds.map (Hold.release mem row false) }

/-- A wide access of an operation (R367, R369, R377, R402, R441). -/
def Dev.wideGrant (d : Dev) (n : Nat) (o : Op) (mem row : Nat) : Dev :=
  let upd (d : Dev) (f : Op → Op) : Dev := d.updCore n (·.updOp o.seq f)
  match o.kind with
  | .mma m todo got cgot wdone =>
    if mem < 2 then
      d.readRow n mem row fun bs d => upd d fun q => { q with kind := .mma m todo.tail (got ++ [((mem, row), bs)]) cgot wdone }.released mem row
    else if cgot.length < m.cSrc.length then
      d.readRow n mem row fun bs d => upd d fun q => { q with kind := .mma m todo got (cgot ++ [bs]) wdone }
    else
      upd (d.store n mem row (mmaPieces m got (cgot.getD wdone []) wdone)) fun q => { q with kind := .mma m todo got cgot (wdone + 1) }
  | .vload r m row0 srow grp fmt bs part fpc have_ =>
    d.readRow n mem row fun bytes d =>
      let data := have_.getD bytes
      let lane (sc : List Byte) (i : Nat) : W32 :=
        let e := part * 128 + i
        toB32 fpc fmt ((data.drop (e * fmtSize fmt)).take (fmtSize fmt)) (scaleOf bs grp sc e)
      let fill (sc : List Byte) : OpKind := .regs [.v r ((List.range 128).map (lane sc))]
      match have_, srow with
      | none, none => upd d fun q => { q with kind := fill [], left := 4, holds := [] }
      | none, some _ => upd d fun q => { q with kind := .vload r m row0 srow grp fmt bs part fpc (some bytes), left := 4 }.released mem row
      | some _, _ => upd d fun q => { q with kind := fill bytes, holds := [] }
  | .vstore m row0 off bytes srow soff scales stage =>
    if stage = 0 then
      upd (d.store n mem row [(off, bytes)]) fun q => { q with
        kind := .vstore m row0 off bytes srow soff scales (if scales.isEmpty then 2 else 1), left := 1 }
    else
      upd (d.store n mem row [(soff, scales)]) fun q => { q with kind := .vstore m row0 off bytes srow soff scales 2, left := 1 }
  | .count r mode fmt thr fpc m rows k =>
    d.readRow n mem row fun bs d => upd d fun q =>
      { q with kind := .count r mode fmt thr fpc m rows.tail (k + countRow mode fmt thr fpc bs) }.released mem row
  | .ember todo got resid iter =>
    d.readRow n mem row fun bs d => upd d fun q => { q with kind := .ember todo.tail (got ++ bs) resid iter }
  | _ => d

/-- A narrow access of an operation (R443). -/
def Dev.narrowGrant (d : Dev) (n : Nat) (o : Op) : Dev :=
  match o.kind with
  | .load r mem row off size =>
    let c := d.core n
    let v := ofBytes (c.spRead mem row off size)
    let w : RegWrite := if size = 4 then .f r (BitVec.ofNat 32 v) else .x r (BitVec.ofNat 64 v)
    let d := d.checkRead n mem row [off / 8] false
    if c.readable mem row [off / 8] then d.updCore n (·.updOp o.seq (fun q => { q with kind := .regs [w], left := 2, holds := [] }))
    else d
  | .store mem row off bytes => (d.store n mem row [(off, bytes)]).dropOp n o
  | _ => d

/-- Send a row of a dma.wr, read with its scale row: it is converted and written to memory (R383, R433, R944). -/
def Dev.outRow (d : Dev) (n : Nat) (j : Job) (t : Dma) (row srow : List Byte) : Dev :=
  let c := d.core n
  let g := if t.moved = 0 then t.reseed.getD c.gd else c.gd
  let o := dmaOut t row srow t.nextRow.2.2 g
  let d := d.updCore n (fun c => { c with gd := o.2 })
  d.write j.tenant (j.detached || (d.tenant j.tenant).detach) (t.rowAddr t.moved) o.1

/-- No later row of the transfer uses the scale row of row `i`. -/
def Dma.lastOfGroup (t : Dma) (i : Nat) : Bool :=
  let sr := (t.rows.getD i (0, none, 0)).2.1
  sr.isSome && (t.rows.drop (i + 1)).all (fun r => r.2.1 != sr)

/-- The transfer after one more row: the row's ranges are released. -/
def Dma.step (t : Dma) : Dma :=
  let r := t.nextRow
  let hs := t.holds.map (Hold.release t.mem r.1 t.rd)
  let hs := match r.2.1 with
    | some sr => if t.lastOfGroup t.moved then hs.map (Hold.release t.mem sr t.rd) else hs
    | none => hs
  { t with moved := t.moved + 1, data := none, holds := hs }

/-- Change the transfer at the head of the DMA queue. -/
def Core.updDma (c : Core) (f : Dma → Dma) : Core := { c with dmaq := match c.dmaq with
  | t :: q => f t :: q
  | [] => [] }

/-- Change the remote transfer at the head of its queue. -/
def Core.updRemote (c : Core) (f : Remote → Remote) : Core := { c with rq := match c.rq with
  | t :: q => f t :: q
  | [] => [] }

/-- A transfer that got an error is given up. -/
def Core.dmaDrop (c : Core) : Core := { c with dmaq := c.dmaq.tail, dmaDone := c.dmaDone + 1 }

/-- A remote transfer that met an error is given up. -/
def Core.remDrop (c : Core) : Core := { c with rq := c.rq.tail, remDone := c.remDone + 1 }

/-- The DMA engine reads the next row of the dma.wr at its head, in order to send it (R944). -/
def Dev.dmaRead (d : Dev) (n row : Nat) : Dev :=
  match (d.core n).dmaq, d.coreJob n with
  | t :: _, some (_, j) =>
    let c := d.core n
    if !c.readable t.mem row allWords then (d.updCore n Core.dmaDrop).checkRead n t.mem row allWords false
    else d.readRow n t.mem row fun bs d =>
      match t.data, t.scaleRow with
      | none, some _ => d.updCore n (·.updDma (fun t => { t with data := some bs }))
      | none, none => (d.outRow n j t bs []).updCore n (·.updDma Dma.step)
      | some data, _ => (d.outRow n j t data bs).updCore n (·.updDma Dma.step)
  | _, _ => d

/-- The DMA engine reads the next row of the remote transfer at its head and sends it (R389, R944). -/
def Dev.remoteRead (d : Dev) (n row : Nat) : Dev :=
  match (d.core n).rq with
  | t :: _ =>
    if !(d.core n).readable t.mem row allWords then (d.updCore n Core.remDrop).checkRead n t.mem row allWords false
    else d.readRow n t.mem row fun bs d => d.updCore n (·.updRemote (fun t => { t with
      rows := t.rows.tail, sent := t.sent ++ [bs], holds := t.holds.map (Hold.release t.mem row false) }))
  | [] => d

/-- A granted request is carried out. -/
def Dev.carryOut (d : Dev) (n port mem : Nat) (a : Asker) (row : Nat) : Dev :=
  match a with
  | .op o => if port = 4 then d.narrowGrant n o else d.wideGrant n o mem row
  | .dma => d.dmaRead n row
  | .remote => d.remoteRead n row

/-! ### A bank cycle (R446-R451) -/

/-- The first wide port with a request in the cyclic order MXE, VU, DMA, INBOUND after `last` (R449). -/
def firstWide (last : Nat) (p : Nat → Bool) : Option Nat := ([1, 2, 3, 4].map (fun i => (last + i) % 4)).find? p

/-- The port that a bank grants, of those that ask: the reserved narrow cycle, the first wide port, the narrow port, the debug window
(port 5) (R449, R450). -/
def Bank.pick (b : Bank) (p : Nat → Bool) : Option Nat :=
  let narrow := if p 4 then some 4 else if p 5 then some 5 else none
  if 8 ≤ b.starve && narrow.isSome then narrow
  else match firstWide b.last p with
    | some w => some w
    | none => narrow

/-- The bank after a grant to `port`; `narrow` says that a narrow request waits. -/
def Bank.granted (b : Bank) (port : Nat) (narrow : Bool) : Bank :=
  if port < 4 then { last := port, starve := if narrow then b.starve + 1 else 0, used := true } else { b with starve := 0, used := true }

/-- One cycle of a bank; `ext` is the port at which the row of a command asks besides. It answers whether that row was granted: the
command then makes the access itself. The debug window shares the NARROW port with the core, which goes before it. -/
def Dev.bankCycle (d : Dev) (n mem bank : Nat) (ext : Option Nat) : Dev × Bool :=
  let c := d.core n
  let k := mem * 8 + bank
  let b := SMap.get {} c.banks k
  let p (port : Nat) : Bool :=
    if ext = some port then c.portFree port mem && !(port == 5 && (!c.portFree 4 mem || (c.ask 4 mem).isSome))
    else (c.askAt port mem bank).isSome
  if b.used then (d, false)
  else match b.pick p with
    | none => (d, false)
    | some port =>
      let d := d.updCore n (fun c => { c with
        banks := SMap.set {} c.banks k (b.granted port (p 4 || p 5)), ported := c.ported ++ [(port, mem)] })
      if ext = some port then (d, true)
      else match c.askAt port mem bank with
        | some r => (d.carryOut n port mem r.1 r.2, false)
        | none => (d, false)

/-- The row of a command waits at `port` until its bank grants it: the core's CCLKs pass, at most `k` of them, and the bank grants what
else asks in its turn (R449, R450, R452). -/
def Dev.access (d : Dev) (n mem row port : Nat) : Nat → Dev
  | 0 => d
  | k + 1 =>
    let r := d.bankCycle n mem (bankOf row) (some port)
    if r.2 then r.1 else (r.1.cycle n).access n mem row port k

/-- More CCLKs than any access waits (Table 11-4). -/
def accessBound : Nat := 32

/-- A row of a command writes pieces of a row through `port`. -/
def Dev.storeAt (d : Dev) (n mem row port : Nat) (ps : List (Nat × List Byte)) : Dev :=
  (d.access n mem row port accessBound).store n mem row ps

/-- SCRATCHPAD_GRANT: a bank grants an access. `up` is an upset of a word of this bank that has come before it: row, word, and whether
two bits are wrong. -/
def Dev.grant (d : Dev) (n mem bank : Nat) (up : Option (Nat × Nat × Bool)) : Dev :=
  let d := match up with
    | some (row, w, two) => if bankOf row = bank && decide (row < memRows mem) then d.updCore n (·.upset mem row w two) else d
    | none => d
  (d.bankCycle n mem bank none).1

/-- The debug window reads the word at byte `off` of a row through the NARROW port (R94, R482, R483). What an uncorrectable word shows is
not stated: a free value (log 1). -/
def Dev.windowRead (d : Dev) (n mem row off : Nat) : Nat × Dev :=
  let d := d.access n mem row 5 accessBound
  let c := d.core n
  if c.readable mem row [off / 8] then (ofBytes (c.spRead mem row off 8), d.checkRead n mem row [off / 8] false)
  else (let r := d.draw; ((Config.freeWord r.1).toNat, r.2))

/-- The debug window writes bytes of a word; a part of a word that holds an uncorrectable error is not written (R485). -/
def Dev.windowWrite (d : Dev) (n mem row off : Nat) (bs : List Byte) : Dev :=
  let d := d.access n mem row 5 accessBound
  let part := partWords off bs.length
  ((((d.core n).badWords 1 mem row part).foldl (fun d _ => d.correct n mem row) d)).updCore n (·.put mem row off bs)

/-- The banks of rows that the DMA engine has moved, one by one, on a core that does not run: no other port asked (R449). -/
def Core.dmaGranted (c : Core) (rows : List (Nat × Nat)) : Core :=
  { c with banks := rows.foldl (fun m r => SMap.upd {} m (r.1 * 8 + bankOf r.2) (fun b => { b with last := 2, starve := 0 })) c.banks }

end Sys2Proof.Machine
end

