-- ==== Sys2Proof/Machine/CoreDecode.lean ====
section
/-!
DEFINITION. Machine/CoreDecode.lean: the decoder of core instruction words (07, 08, 09): total, and none for every undefined opcode and
every non-zero reserved field (R16, R287, R312, R357).
-/
namespace Sys2Proof.Machine

/-- The scalar operand layout (Table 7-5). -/
structure ScalarF where
  d : Nat
  a : Nat
  b : Nat
  c : Nat
  aux : Nat
  imm : Nat

/-- Fields of the scalar layout. -/
def scalarF (n : Nat) : ScalarF :=
  { d := bits n 103 5, a := bits n 98 5, b := bits n 93 5, c := bits n 88 5, aux := bits n 64 24, imm := bits n 0 64 }

/-- The tile operand layout (Table 9-1). -/
structure TileF where
  t0 : TileOp
  t1 : TileOp
  h2 : Nat
  o2 : Nat
  f2 : Nat
  b2 : Nat
  xa : Nat
  xb : Nat
  xc : Nat
  md : Nat

/-- Fields of the tile layout. -/
def tileF (n : Nat) : TileF :=
  { t0 := { h := bits n 102 6, o := bits n 92 10, n := bits n 82 10, f := bits n 78 4, b := bit1 n 77 }
    t1 := { h := bits n 71 6, o := bits n 61 10, n := bits n 51 10, f := bits n 47 4, b := bit1 n 46 }
    h2 := bits n 40 6, o2 := bits n 30 10, f2 := bits n 26 4, b2 := bits n 25 1,
    xa := bits n 20 5, xb := bits n 15 5, xc := bits n 10 5, md := bits n 0 10 }

/-- The decoded form where every field of the list is zero: they are reserved (R287). -/
def zeros (l : List Nat) (o : Option CoreOp) : Option CoreOp := if l.all (· == 0) then o else none

/-- v register fields: bit 4 is reserved (R288). -/
def vregs (l : List Nat) (o : Option CoreOp) : Option CoreOp := if l.all (· < 16) then o else none

/-- p register fields: bits 4:3 are reserved (R288). -/
def pregs (l : List Nat) (o : Option CoreOp) : Option CoreOp := if l.all (· < 8) then o else none

/-- AUX as a rounding selector (R324). -/
def auxRm : Nat → Option Rm
  | 0 => some .dyn
  | 1 => some .rne
  | 2 => some .rtz
  | _ => none

/-- A form with a rounding selector. -/
def withRm (aux : Nat) (f : Rm → CoreOp) : Option CoreOp := (auxRm aux).map f

/-- Integer operations by minor opcode (Table 8-1). -/
def aluOf : Nat → Option AluK
  | 0 => some .add | 1 => some .sub | 2 => some .and | 3 => some .or | 4 => some .xor | 5 => some .shl | 6 => some .shr
  | 7 => some .sra | 8 => some .min | 9 => some .max | 10 => some .minU | 11 => some .maxU | _ => none

/-- Multiply and divide operations by minor opcode (Table 8-2). -/
def mdOf : Nat → Option MdK
  | 0 => some .mulU | 1 => some .mulS | 2 => some .mulhU | 3 => some .mulhS | 4 => some .divU | 5 => some .divS
  | 6 => some .remU | 7 => some .remS | _ => none

/-- Compares by minor opcode (Table 8-7). -/
def cmpOf : Nat → Option CmpK
  | 0 => some .eq | 1 => some .ne | 2 => some .lt | 3 => some .ge | 4 => some .ltu | 5 => some .geu | _ => none

/-- binary32 compares by minor opcode. -/
def fcmpOf : Nat → Option FcmpK
  | 0 => some .eq | 1 => some .lt | 2 => some .le | 3 => some .un | _ => none

/-- Predicate operations by minor opcode. -/
def plogOf : Nat → Option PlogK
  | 0 => some .and | 1 => some .or | 2 => some .xor | 3 => some .andn | _ => none

/-- Majors 0x00-0x03 (Tables 8-1, 8-2, 8-4). -/
def decodeInt (major minor : Nat) (s : ScalarF) : Option CoreOp :=
  match major, minor with
  | 0x00, 0x0C => zeros [s.aux, s.imm] (pregs [s.c] (some (.sel s.d s.a s.b s.c)))
  | 0x00, m => zeros [s.c, s.aux, s.imm] ((aluOf m).map fun k => .alu k s.d s.a (.reg s.b))
  | 0x01, m =>
    if 5 ≤ m ∧ m ≤ 7 ∧ 64 ≤ s.imm then none
    else zeros [s.b, s.c, s.aux] ((aluOf m).map fun k => .alu k s.d s.a (.imm (BitVec.ofNat 64 s.imm)))
  | 0x02, m => zeros [s.c, s.aux, s.imm] ((mdOf m).map fun k => .md k s.d s.a s.b)
  | 0x03, m =>
    if 64 ≤ s.aux then none else
    let imm := BitVec.ofNat 64 s.imm
    match m with
    | 0 => zeros [s.b, s.c] (some (.ld false s.d s.a s.aux imm))
    | 1 => zeros [s.d, s.c] (some (.st false s.a s.b s.aux imm))
    | 2 => zeros [s.b, s.c] (some (.ld true s.d s.a s.aux imm))
    | 3 => zeros [s.d, s.c] (some (.st true s.a s.b s.aux imm))
    | _ => none
  | _, _ => none

/-- Majors 0x20, 0x21 (Table 8-5). -/
def decodeFloat (major minor : Nat) (s : ScalarF) : Option CoreOp :=
  match major, minor with
  | 0x20, 0x00 => zeros [s.c, s.imm] (withRm s.aux (.fbin .add s.d s.a s.b))
  | 0x20, 0x01 => zeros [s.c, s.imm] (withRm s.aux (.fbin .sub s.d s.a s.b))
  | 0x20, 0x02 => zeros [s.c, s.imm] (withRm s.aux (.fbin .mul s.d s.a s.b))
  | 0x20, 0x03 => zeros [s.imm] (withRm s.aux (.fma s.d s.a s.b s.c))
  | 0x20, 0x04 => zeros [s.c, s.aux, s.imm] (some (.fbin .min s.d s.a s.b .dyn))
  | 0x20, 0x05 => zeros [s.c, s.aux, s.imm] (some (.fbin .max s.d s.a s.b .dyn))
  | 0x20, 0x06 => zeros [s.b, s.c, s.aux, s.imm] (some (.fsign true s.d s.a))
  | 0x20, 0x07 => zeros [s.b, s.c, s.aux, s.imm] (some (.fsign false s.d s.a))
  | 0x20, 0x08 => zeros [s.c, s.imm] (withRm s.aux (.fdiv s.d s.a s.b))
  | 0x20, 0x09 => zeros [s.b, s.c, s.imm] (withRm s.aux (.fsqrt s.d s.a))
  | 0x21, 0x00 => zeros [s.b, s.c, s.aux, s.imm] (some (.fcvt .mvX s.d s.a .dyn))
  | 0x21, 0x01 => zeros [s.b, s.c, s.aux, s.imm] (some (.fcvt .mvF s.d s.a .dyn))
  | 0x21, 0x02 => zeros [s.b, s.c, s.imm] (withRm s.aux (.fcvt .sL s.d s.a))
  | 0x21, 0x03 => zeros [s.b, s.c, s.imm] (withRm s.aux (.fcvt .sLu s.d s.a))
  | 0x21, 0x04 => zeros [s.b, s.c, s.imm] (withRm s.aux (.fcvt .lS s.d s.a))
  | 0x21, 0x05 => zeros [s.b, s.c, s.imm] (withRm s.aux (.fcvt .luS s.d s.a))
  | 0x21, 0x06 =>
    if 2 ^ 32 ≤ s.imm then none else zeros [s.a, s.b, s.c, s.aux] (some (.fli s.d (BitVec.ofNat 32 s.imm)))
  | _, _ => none

/-- Majors 0x30-0x34 (Tables 8-6, 8-7). -/
def decodeBranch (major minor : Nat) (s : ScalarF) : Option CoreOp :=
  let imm := BitVec.ofNat 64 s.imm
  match major, minor with
  | 0x30, 0x00 => zeros [s.d, s.a, s.b, s.c, s.aux] (some (.jmp imm))
  | 0x30, 0x01 => zeros [s.d, s.b, s.c, s.aux, s.imm] (some (.jmpr s.a))
  | 0x30, 0x02 => zeros [s.a, s.b, s.c, s.aux] (some (.call s.d imm))
  | 0x30, 0x03 => zeros [s.b, s.c, s.aux] (some (.loop s.d s.a imm))
  | 0x31, m => zeros [s.c, s.aux, s.imm] (pregs [s.d] ((cmpOf m).map fun k => .cmp k s.d s.a (.reg s.b)))
  | 0x32, m => zeros [s.b, s.c, s.aux] (pregs [s.d] ((cmpOf m).map fun k => .cmp k s.d s.a (.imm imm)))
  | 0x33, m => zeros [s.c, s.aux, s.imm] (pregs [s.d] ((fcmpOf m).map fun k => .fcmp k s.d s.a s.b))
  | 0x34, m => zeros [s.c, s.aux, s.imm] (pregs [s.d, s.a, s.b] ((plogOf m).map fun k => .plog k s.d s.a s.b))
  | _, _ => none

/-- ember.save and job.done share their row fields (Table 8-10). -/
def decodeJob (minor : Nat) (s : ScalarF) : Option CoreOp :=
  if 2 ^ 16 ≤ s.imm then none else
  match minor with
  | 0x00 =>
    if 2 ^ 10 ≤ s.aux then none
    else zeros [s.d, s.c] (some (.emberSave s.a s.b (bits s.aux 0 6) (bits s.aux 6 4) s.imm))
  | 0x01 =>
    if 2 ^ 18 ≤ s.aux then none
    else zeros [s.d] (some (.jobDone s.a s.b s.c (bits s.aux 0 6) (bits s.aux 6 4) (bits s.aux 10 8) s.imm))
  | 0x02 => zeros [s.d, s.b, s.c, s.aux, s.imm] (pregs [s.a] (some (.specAccept s.a)))
  | _ => none

/-- Majors 0x40-0x43 (Tables 8-8 to 8-10). -/
def decodeSystem (major minor : Nat) (s : ScalarF) : Option CoreOp :=
  match major, minor with
  | 0x40, 0x00 => if 9 ≤ s.aux then none else zeros [s.a, s.b, s.c, s.imm] (some (.srRead s.d s.aux))
  | 0x40, 0x01 => if s.aux ≠ 8 then none else zeros [s.d, s.b, s.c, s.imm] (some (.srWrite s.a))
  | 0x41, 0x00 => zeros [s.d, s.c, s.aux, s.imm] (some (.syncAdd s.a (.reg s.b)))
  | 0x41, 0x01 =>
    if 2 ^ 32 ≤ s.imm then none
    else zeros [s.d, s.b, s.c, s.aux] (some (.syncAdd s.a (.imm (BitVec.ofNat 64 s.imm))))
  | 0x41, 0x02 => zeros [s.d, s.c, s.aux, s.imm] (some (.syncSet s.a s.b))
  | 0x41, 0x03 => zeros [s.b, s.c, s.aux, s.imm] (some (.syncRead s.d s.a))
  | 0x41, 0x04 => zeros [s.d, s.c, s.aux, s.imm] (some (.syncWait s.a s.b))
  | 0x42, 0x00 => if 64 ≤ s.imm then none else zeros [s.d, s.a, s.b, s.c, s.aux] (some (.phase s.imm))
  | 0x43, m => decodeJob m s
  | _, _ => none

/-- vld and vst (R367, R368). -/
def decodeVmem (minor : Nat) (s : ScalarF) : Option CoreOp :=
  let h := bits s.aux 0 6
  let f := bits s.aux 6 4
  let bs := bit1 s.aux 10
  let part := bits s.aux 11 2
  let expl := bit1 s.aux 13
  if 2 ^ 14 ≤ s.aux ∨ 2 ^ 16 ≤ s.imm then none else
  match minor with
  | 0 => if expl then none else zeros [s.b, s.c] (vregs [s.d] (some (.vld s.d s.a h f bs part s.imm)))
  | 1 => zeros [s.d] (vregs [s.b] (some (.vst s.a s.b s.c h f bs part expl s.imm)))
  | _ => none

/-- Majors 0x50-0x58 (Tables 9-3, 9-4). -/
def decodeVector (major minor : Nat) (s : ScalarF) : Option CoreOp :=
  match major, minor with
  | 0x50, m => decodeVmem m s
  | 0x51, 0x00 => zeros [s.c, s.imm] (vregs [s.d, s.a, s.b] (withRm s.aux (.vbin .add s.d s.a s.b)))
  | 0x51, 0x01 => zeros [s.c, s.imm] (vregs [s.d, s.a, s.b] (withRm s.aux (.vbin .sub s.d s.a s.b)))
  | 0x51, 0x02 => zeros [s.c, s.imm] (vregs [s.d, s.a, s.b] (withRm s.aux (.vbin .mul s.d s.a s.b)))
  | 0x51, 0x03 => zeros [s.imm] (vregs [s.d, s.a, s.b, s.c] (withRm s.aux (.vfma s.d s.a s.b s.c)))
  | 0x51, 0x04 => zeros [s.c, s.aux, s.imm] (vregs [s.d, s.a, s.b] (some (.vbin .min s.d s.a s.b .dyn)))
  | 0x51, 0x05 => zeros [s.c, s.aux, s.imm] (vregs [s.d, s.a, s.b] (some (.vbin .max s.d s.a s.b .dyn)))
  | 0x51, 0x06 => zeros [s.b, s.c, s.aux, s.imm] (vregs [s.d, s.a] (some (.vsign true s.d s.a)))
  | 0x51, 0x07 => zeros [s.b, s.c, s.aux, s.imm] (vregs [s.d, s.a] (some (.vsign false s.d s.a)))
  | 0x52, 0x00 => zeros [s.b, s.c, s.aux, s.imm] (vregs [s.d] (some (.vbcast s.d s.a)))
  | 0x52, 0x01 => zeros [s.c, s.aux, s.imm] (vregs [s.a] (some (.vext s.d s.a s.b)))
  | 0x52, 0x02 => zeros [s.c, s.aux, s.imm] (vregs [s.d] (some (.vins s.d s.a s.b)))
  | 0x53, 0x00 => zeros [s.b, s.c, s.imm] (vregs [s.a] (withRm s.aux (.vsum s.d s.a)))
  | 0x53, 0x01 => zeros [s.c, s.imm] (vregs [s.a, s.b] (withRm s.aux (.vdot s.d s.a s.b)))
  | 0x53, 0x02 => zeros [s.b, s.c, s.aux, s.imm] (vregs [s.a] (some (.vamax s.d s.a)))
  | 0x58, 0x00 => zeros [s.aux, s.imm] (vregs [s.d, s.c, s.a, s.b] (some (.tsum s.d s.c s.a s.b)))
  | 0x58, 0x01 => zeros [s.aux, s.imm] (vregs [s.d, s.a, s.b, s.c] (some (.vres s.d s.a s.b s.c)))
  | 0x58, 0x02 => zeros [s.b, s.c, s.aux, s.imm] (vregs [s.a] (some (.vexp s.d s.a)))
  | _, _ => none

/-- The fields of tile 1 that a form without a second tile leaves reserved. -/
def TileF.no1 (t : TileF) : List Nat := [t.t1.h, t.t1.o, t.t1.n]
/-- The fields of tile 2. -/
def TileF.no2 (t : TileF) : List Nat := [t.h2, t.o2, t.f2, t.b2]

/-- mxe.mma, the local DMA and the remote instructions (R374, R375, R381, R389, R393). -/
def decodeTile (major minor : Nat) (t : TileF) : Option CoreOp :=
  match major, minor with
  | 0x80, 0x00 =>
    zeros [t.f2, t.b2, bits t.md 7 3]
      (some (.mma t.t0 t.t1 t.h2 t.o2 t.xa t.xb t.xc (bit1 t.md 0) (bits t.md 1 4) (bits t.md 5 2)))
  | 0xA0, 0x00 =>
    zeros (t.no1 ++ t.no2 ++ [bits t.md 1 9]) (some (.dmaRd t.t0 t.t1.f t.t1.b t.xa t.xb t.xc (bit1 t.md 0)))
  | 0xA0, 0x01 => zeros (t.no1 ++ t.no2 ++ [t.md]) (some (.dmaWr t.t0 t.t1.f t.t1.b t.xa t.xb t.xc))
  | 0xA1, 0x00 =>
    if t.t0.f ≠ 7 ∨ t.t1.f ≠ 7 then none
    else zeros (t.no2 ++ [b2n t.t0.b, b2n t.t1.b, t.t1.n, t.xa, t.md])
      (some (.rwPut t.t0.h t.t0.o t.t0.n t.t1.h t.t1.o t.xb t.xc))
  | 0xA1, 0x01 =>
    if t.t0.f ≠ 7 ∨ t.t1.f ≠ 7 then none
    else zeros (t.no2 ++ [b2n t.t0.b, b2n t.t1.b, t.t1.o, t.t1.n, t.xa, t.xc, t.md])
      (some (.ringPush t.t0.h t.t0.o t.t0.n t.t1.h t.xb))
  | _, _ => none

/-- Majors 0xA2-0xA5 (Table 9-5, R402). -/
def decodeRing (major minor : Nat) (s : ScalarF) : Option CoreOp :=
  match major, minor with
  | 0xA2, 0x00 => if 64 ≤ s.aux then none else zeros [s.a, s.b, s.c, s.imm] (some (.ringHead s.d s.aux))
  | 0xA2, 0x01 => if 64 ≤ s.aux then none else zeros [s.a, s.b, s.c, s.imm] (some (.ringAvail s.d s.aux))
  | 0xA2, 0x02 => if 64 ≤ s.aux then none else zeros [s.d, s.b, s.c, s.imm] (some (.ringPop s.a s.aux))
  | 0xA3, 0x00 => if 64 ≤ s.aux then none else zeros [s.d, s.a, s.c, s.imm] (some (.arrWait s.b s.aux))
  | 0xA3, 0x01 => if 64 ≤ s.aux then none else zeros [s.a, s.b, s.c, s.imm] (some (.arrRead s.d s.aux))
  | 0xA3, 0x02 => if 64 ≤ s.aux then none else zeros [s.d, s.a, s.c, s.imm] (some (.arrSet s.b s.aux))
  | 0xA4, 0x00 => zeros [s.d, s.a, s.b, s.c, s.aux, s.imm] (some .xferFence)
  | 0xA5, 0x00 =>
    if 2 ^ 18 ≤ s.aux ∨ 2 ^ 16 ≤ s.imm then none
    else zeros [s.c] (some (.rcount s.d s.a s.b (bits s.aux 0 6) (bits s.aux 6 5) (bits s.aux 11 3) (bits s.aux 14 4) s.imm))
  | _, _ => none

/-- The predicate field of a word (Table 7-3). -/
def wordPred (n : Nat) : Pred := { inv := bit1 n 127, idx := BitVec.ofNat 3 (bits n 124 3) }

/-- Decode an instruction word: its predicate and its form; none where R16 makes it an Illegal Instruction by its opcode or a
reserved field. `CoreOp.reserved` and `predReserved` name the other reserved values. -/
def decodeCore (w : BitVec 128) : Option (Pred × CoreOp) :=
  let n := w.toNat
  let major := bits n 116 8
  let minor := bits n 108 8
  let s := scalarF n
  let o :=
    if major < 0x20 then decodeInt major minor s
    else if major < 0x30 then decodeFloat major minor s
    else if major < 0x40 then decodeBranch major minor s
    else if major < 0x50 then decodeSystem major minor s
    else if major < 0x80 then decodeVector major minor s
    else if major < 0xA2 then decodeTile major minor (tileF n)
    else decodeRing major minor s
  match o with
  | some op => if op.reserved || predReserved (wordPred n) then none else some (wordPred n, op)
  | none => none

end Sys2Proof.Machine
end

