-- ==== Sys2Proof/Machine/EventOps.lean ====
section
/-!
DEFINITION. Machine/EventOps.lean: what the events of a core share: operations in flight, waits, rows moved by the DMA engine and by
the remote planes, poison, fetch, run-ahead.
-/
namespace Sys2Proof.Machine

/-! ### Operations in flight -/

/-- The results of an operation whose latency is over, other than a sync read (R291, R402). -/
def Op.results (o : Op) : Option (List RegWrite) :=
  match o.kind with
  | .regs ws => if o.unit = .sync then none else some ws
  | .count d _ _ _ _ _ rows n => if rows = [] then some [.x d (BitVec.ofNat 64 n)] else none
  | _ => none

/-- The oldest long operation whose latency is over writes its results and leaves. -/
def Dev.longDone (d : Dev) (n : Nat) : Dev :=
  match (d.core n).ops.find? (fun o => decide (o.left = 0) && o.results.isSome) with
  | some o => (d.updCore n (·.writeRegs (o.results.getD []))).dropOp n o
  | none => d

/-- The product whose result rows are all written and whose latency is over leaves (R377-R380). -/
def Dev.mxeDone (d : Dev) (n : Nat) : Dev :=
  let p (o : Op) : Bool := match o.kind with
    | .mma m todo _ _ wdone => todo.isEmpty && decide (m.cRows.length ≤ wdone) && decide (o.left = 0)
    | _ => false
  match (d.core n).ops.find? p with
  | some o => d.dropOp n o
  | none => d

/-- A vst whose last write has been granted is done one CCLK later (R942). -/
def Dev.vstDone (d : Dev) (n : Nat) : Dev :=
  let p (o : Op) : Bool := match o.kind with
    | .vstore _ _ _ _ _ _ _ stage => decide (2 ≤ stage) && decide (o.left = 0)
    | _ => false
  match (d.core n).ops.find? p with
  | some o => d.dropOp n o
  | none => d

/-- The ember save that has copied its rows and whose replacement cycle has come becomes the recorded ember (R34, R345, R346). -/
def Dev.emberReplace (d : Dev) (n : Nat) : Dev :=
  let p (o : Op) : Bool := match o.kind with
    | .ember todo _ _ _ => todo.isEmpty && decide (o.left = 0)
    | _ => false
  match (d.core n).ops.find? p with
  | some o => match o.kind with
    | .ember _ bs resid iter =>
      let e : Ember := { rows := bs.length / 512, resid := resid, iter := iter.toNat, time := d.glb.time }
      let d := d.updCore n (fun c => { c with estore := Memory.writeL 0 c.estore 0 bs, ember := some e })
      let tag := ((d.coreJob n).map (fun j => j.2.tag)).getD 0
      (d.dropOp n o).trace n 0x02 (traceData e.iter tag)
    | _ => d
  | none => d

/-- job.done retires: the outcome of the job is fixed (R40, R349-R351); a comparator that has fired goes before (R42). -/
def Dev.retire (d : Dev) (n : Nat) : Dev :=
  let c := d.core n
  match d.coreJob n, c.wait with
  | some (k, j), .done status a b x h rows first _ =>
    if !c.ops.isEmpty || c.dbg.halted then d
    else if d.expired j then d.quench k
    else
      let rs := if rows = 0 then [] else c.logical false (c.handle h) first rows
      d.endJob k
        { final := BitVec.ofNat 8 status, detail := if status = 8 then (c.getX x).setWidth 32 else 0, time := d.glb.time,
          resid := c.getF b, iter := iterOf (c.getX a), ember := 0, rows := rs, written := rs.isEmpty, retry := false,
          emberTime := (d.emberOf j).map Ember.time, fclk := d.fno, idx := 0 }
  | _, _ => d

/-- The value of a core READ returns (R338). -/
def Dev.syncReturn (d : Dev) (n : Nat) : Dev :=
  let p (o : Op) : Bool := decide (o.unit = .sync) && match o.kind with
    | .regs _ => true
    | _ => false
  match (d.core n).ops.find? p with
  | some o => match o.kind with
    | .regs ws => (d.updCore n (·.writeRegs ws)).dropOp n o
    | _ => d
  | none => d

/-! ### Waits -/

/-- The wait of a core is over: issue resumes and a run-ahead window ends (R535). -/
def Core.resume (c : Core) : Core :=
  { c with wait := .none, spec := { c.spec with ra := none, waitCyc := 0 } }

/-- The core waits and `p` holds of its wait: it resumes. -/
def Dev.resumeIf (d : Dev) (n : Nat) (p : Core → Bool) : Dev :=
  if p (d.core n) && !(d.core n).dbg.halted then d.updCore n Core.resume else d

/-- A satisfied WAIT_GE. -/
def Core.syncSat (c : Core) : Bool :=
  match c.wait with
  | .sync _ _ sat => sat
  | _ => false

/-- An arr.wait whose counter has reached its value (R398). -/
def Core.arrSat (c : Core) : Bool :=
  match c.wait with
  | .arr _ _ sat => sat
  | _ => false

/-- An xfer.fence with every earlier transfer complete. -/
def Core.fenceSat (c : Core) : Bool := decide (c.wait = .fence) && c.xfersDone

/-- A waiting ring.push has room: it issues (R394). -/
def Dev.pushResume (d : Dev) (n : Nat) : Dev :=
  let c := d.core n
  match c.wait, d.coreJob n with
  | .ring t need, some (_, j) =>
    if need ≤ c.ringFree t.dst t.handle && decide (c.rq.length < 8) && !c.dbg.halted then
      (d.updCore n Core.resume).ringIssue n j t
    else d
  | _, _ => d

/-- The destination core `n` reports the head count of ring `h` to the cores of its set (R394). -/
def Dev.headReport (d : Dev) (n h : Nat) : Dev :=
  match d.coreJob n with
  | some (_, j) =>
    let v := SMap.get 0 (d.core n).rows.hc h
    d.updCores j.cores (fun c =>
      { c with rows := { c.rows with hcSeen := SMap.set 0 c.rows.hcSeen (ringKey (d.core n).idx h) v } })
  | none => d

/-! ### Poison and transfers -/

/-- A poisoned flit, or row, reaches a core: the job ends FAULT with syndrome `synd` and the consumption is recorded (R850,
R851). -/
def Dev.consume (d : Dev) (n synd flit : Nat) : Dev :=
  match d.coreJob n with
  | some (_, j) =>
    (d.record { cls := 3, source := 0, index := n, code := 0x0014, info := place flit 6 58 + synd, job := j.forRec }).coreFault
      n synd noAddr
  | none => d

/-- The first poisoned flit of an extent. -/
def Dev.firstPoison (d : Dev) (a n : Nat) : Option Nat := (flitsOf a n).find? (fun f => SMap.get false d.mem.poison f)

/-- Core `n` reads DRAM: a flit that is valid in its run-ahead partition is served from there, without DRAM service (R539). -/
def Dev.coreRead (d : Dev) (n a len : Nat) : Dev :=
  let h := (d.core n).spec.hints
  { d with mem := ((flitsOf a len).filter (fun f => !(SMap.get [] h (portOf f)).contains f)).foldl (Mem.countFlit · false) d.mem }

/-- A row of a dma.rd is resident: it counts (R386), and a row of an ASYNC transfer is no longer PENDING (R567). -/
def Core.resident (c : Core) (t : Dma) : Core :=
  let r := t.nextRow
  let c := c.arrive t.actr
  if !t.async || c.haz.mode = 0 then c
  else
    let c := c.pendSub t.mem r.1 2
    match r.2.1 with
    | some sr => if t.lastOfGroup t.moved then c.pendSub t.mem sr 2 else c
    | none => c

/-- A row of a dma.rd, `m` in memory, is written through the DMA port, its scales with it (R383, R433-R436, R441). -/
def Dev.inRow (d : Dev) (n : Nat) (t : Dma) (m : List Byte) : Dev :=
  let r := t.nextRow
  let c := d.core n
  let o := dmaIn t m (if t.moved = 0 then t.reseed.getD c.gd else c.gd)
  let d := (d.updCore n (fun c => { c with gd := o.g })).storeAt n t.mem r.1 2 [(0, o.bytes)]
  let d := match r.2.1 with
    | some sr => if o.scales.isEmpty then d else d.storeAt n t.mem sr 2 [(r.2.2 * (512 / t.bs), o.scales)]
    | none => d
  d.updCore n (fun c => (c.resident t).updDma Dma.step)

/-- Move the next row of the dma.rd at the head of core `n`'s queue; `host` is what host space holds there. -/
def Dev.dmaRow (d : Dev) (n : Nat) (host : List Byte) : Dev :=
  match (d.core n).dmaq, d.coreJob n with
  | t :: _, some (_, j) =>
    if !t.rd || decide (t.rows.length ≤ t.moved) then d else
    let a := t.rowAddr t.moved
    if inHost a t.rowLen then (d.hostRead j.tenant a t.rowLen).inRow n t (fitTo t.rowLen host)
    else match d.firstPoison a t.rowLen with
      | some f => (d.coreRead n a t.rowLen).consume n 0x33 f
      | none => (d.coreRead n a t.rowLen).inRow n t (d.peek a t.rowLen)
  | _, _ => d

/-- The DMA port reads the row, or the scale row, that the dma.wr at the head of core `n`'s queue sends next. -/
def Dev.dmaSend (d : Dev) (n : Nat) : Dev :=
  match (d.core n).dmaq with
  | t :: _ => match t.asks with
    | some r => (d.access n t.mem r 2 accessBound).dmaRead n r
    | none => d
  | [] => d

/-- Host space must answer a transfer that reads it. -/
def Dev.dmaReadable (d : Dev) (j : Job) (t : Dma) : Bool :=
  !t.rd || !inHost t.addr 1 || d.hostReads j.tenant j.detached

/-- Move what the transfer at the head still has to move, one row after another, in at most `k` accesses. -/
def Dev.dmaRows (d : Dev) (n : Nat) : Nat → List Byte → Dev
  | 0, _ => d
  | k + 1, host =>
    match (d.core n).dmaq with
    | t :: _ => if t.rd then (d.dmaRow n host).dmaRows n k (host.drop t.rowLen) else (d.dmaSend n).dmaRows n k host
    | [] => d

/-- A transfer leaves the queue once all its rows have moved. -/
def Core.dmaPop (c : Core) : Core :=
  match c.dmaq with
  | t :: q => if t.rows.length ≤ t.moved then { c with dmaq := q, dmaDone := c.dmaDone + 1 } else c
  | [] => c

/-- Accesses that the rows a transfer still has to move need. -/
def Dma.accesses (t : Dma) : Nat := (t.rows.length - t.moved) * (if t.rd then 1 else 2)

/-- The transfer at the head of the queue completes (R388). -/
def Dev.dmaComplete (d : Dev) (n : Nat) (host : List Byte) : Dev :=
  match (d.core n).dmaq, d.coreJob n with
  | t :: q, some (_, j) =>
    if d.dmaReadable j t then
      let d := d.dmaRows n t.accesses host
      if (d.core n).dmaq.length = q.length + 1 then d.updCore n Core.dmaPop else d
    else d
  | _, _ => d

/-- A row of an ASYNC dma.rd becomes resident (R386). -/
def Dev.dmaResident (d : Dev) (n : Nat) (host : List Byte) : Dev :=
  match (d.core n).dmaq, d.coreJob n with
  | t :: _, some (_, j) => if t.async && d.dmaReadable j t then d.dmaRow n host else d
  | _, _ => d

/-- An error response to a DMA access (R88, R308). -/
def Dev.dmaError (d : Dev) (n : Nat) : Dev :=
  if (d.core n).dmaq.isEmpty then d else (d.updCore n Core.dmaDrop).coreFault n 0x20 noAddr

/-- A row has arrived at a core: its place among those not yet written (R392). -/
def placeInbound (r : Inbound) : List Inbound → List Inbound
  | [] => [r]
  | x :: xs => if x.fclk = r.fclk && decide (r.src < x.src) then r :: x :: xs else x :: placeInbound r xs

/-- The logical row that an arrived row is written to: the tail of its ring, or its own (R391, R466). -/
def Core.inboundRow (c : Core) (r : Inbound) : Nat :=
  let hd := c.handle r.handle
  hd.base + (if r.ring then SMap.get 0 c.rows.tc r.handle % hd.count else r.row)

/-- What a written row counts: its arrival counter, the tail of its ring, the detector (R391, R466, R567). -/
def Core.rowIn (c : Core) (r : Inbound) : Core :=
  let hd := c.handle r.handle
  let at_ := c.inboundRow r
  let c := c.arrive hd.actr
  let c := if r.ring then
      { c with rows := { c.rows with tc := SMap.upd 0 c.rows.tc r.handle (fun v => (v + 1) % (2 * hd.count)) } }
    else c
  if c.haz.mode = 0 then c else c.pendSub hd.mem at_ 1

/-- The FCLK cycle ends at core `n`: it writes one row that has arrived (R391, R392), after any arr.set of the cycle (R399). -/
def Dev.writeInbound (d : Dev) (n : Nat) : Dev :=
  let c := d.core n
  match c.inb with
  | [] => d.updCore n Core.arrEnd
  | r :: rs =>
    let d := (d.updCore n (fun c => { c with inb := rs })).storeAt n (c.handle r.handle).mem (c.inboundRow r) 3 [(0, r.bytes)]
    d.updCore n (fun c => (c.rowIn r).arrEnd)

/-- The DMA port reads the row that the remote transfer at the head of core `n`'s queue sends next, where none is on its way. -/
def Dev.remoteSend (d : Dev) (n : Nat) : Dev :=
  match (d.core n).rq with
  | t :: _ => match t.sent, t.rows with
    | [], r :: _ => (d.access n t.mem r 2 accessBound).remoteRead n r
    | _, _ => d
  | [] => d

/-- The next row of the remote transfer at the head of core `n`'s queue arrives (R389-R393, R944); a poisoned one is not
written (R851). -/
def Dev.remoteRow (d : Dev) (n : Nat) (fab : Fabric) : Dev :=
  let d := d.remoteSend n
  let c := d.core n
  match c.rq, d.coreJob n with
  | t :: _, some (_, j) => match t.sent with
    | bs :: rest =>
      let dst := nth 0 j.cores t.dst
      let d := d.updCore n (·.updRemote (fun t => { t with sent := rest, row := t.row + 1 }))
      let d := d.fabricMove fab (coreNode n) (coreNode dst)
      if fabricLost fab then d.consume dst 0x36 0
      else
        let r : Inbound := { fclk := d.fno, src := c.idx, ring := t.ring, handle := t.handle, row := t.row, bytes := bs }
        d.updCore dst (fun k => { k with inb := placeInbound r k.inb })
    | [] => d
  | _, _ => d

/-- The remote transfer at the head of the queue completes once each of its rows has been written (R397). -/
def Dev.remoteComplete (d : Dev) (n : Nat) : Dev :=
  match (d.core n).rq, d.coreJob n with
  | t :: q, some (_, j) =>
    if t.rows.isEmpty && t.sent.isEmpty && (d.core (nth 0 j.cores t.dst)).inb.all (fun r => r.src != (d.core n).idx) then
      d.updCore n (fun c => { c with rq := q, remDone := c.remDone + 1 })
    else d
  | _, _ => d

/-! ### Fetch (R295, R296, R330) -/

/-- A line fill completes: that of a demand miss of the next instruction (R296), or of run-ahead (R534). A demand fill takes the slot of a
run-ahead fill that is in flight, which is abandoned (R536); a poisoned line is never written (R850), and only the demand fill faults
(Table 13-2). `line` counts from the code base. -/
def Dev.missFill (d : Dev) (n line : Nat) : Dev :=
  match d.coreJob n with
  | none => d
  | some (_, j) => match d.prog j.prog with
    | none => d
    | some p =>
      let c := d.core n
      let l := (p.base + p.codeOfs) / 64 + line
      let bad := SMap.get false d.mem.poison l
      if c.run && p.inCode c.regs.pc && !c.spec.hit l && p.line c.regs.pc == l && decide (c.wait = .none) then
        let d := (d.coreRead n (l * 64) 64).updCore n (fun c =>
          { c.pmcAdd 0x0A 1 with spec := { c.spec with raFill := none } })
        if bad then d.consume n 0x31 l else d.updCore n (fun c => { c with spec := c.spec.touch l })
      else if c.spec.raFill = some l then
        (d.coreRead n (l * 64) 64).updCore n (fun c =>
          { c with spec := { (if bad then c.spec else c.spec.touch l) with raFill := none } })
      else d

/-- Where a run-ahead or wrong-path branch continues: its target, whether it is taken, and whether that is known (`ok`) or predicted
(R532, Table 13-1). -/
def CoreOp.raNext (op : CoreOp) (q : Pred) (c : Core) (ok : Bool) : W64 :=
  let pc := c.regs.pc
  let cond := !predAlways q
  let pick (cond : Bool) (t : W64) (taken : Bool) : W64 :=
    if (if ok then taken else c.spec.predTaken cond pc) then t else pc + 1
  match op with
  | .jmp imm => pick cond (pc + imm) (c.predOn q)
  | .jmpr a => if ok then (if c.predOn q then c.getX a else pc + 1) else pick cond (c.spec.ras.headD (pc + 1)) true
  | .call _ imm => pick cond (pc + imm) (c.predOn q)
  | .loop d a imm => pick true (pc + imm) (c.predOn q && (c.getX a - 1) != 0 && d != 0)
  | _ => pc + 1

/-- How many instructions can be fetched on the wrong path from `pc`, `k` at most: from lines that are in the cache (R529). -/
def Dev.wrongPath (d : Dev) (n : Nat) (p : Prog) : Nat → W64 → Nat
  | 0, _ => 0
  | k + 1, pc =>
    let c := d.core n
    if !p.inCode pc || !c.spec.hit (p.line pc) then 0
    else
      let w := BitVec.ofNat 128 (ofBytes (d.peek (p.base + p.codeOfs + 16 * pc.toNat) 16))
      match decodeCore w with
      | some (q, op) => d.wrongPath n p k (op.raNext q (c.setPc pc) false) + 1
      | none => d.wrongPath n p k (pc + 1) + 1

/-- A mispredicted branch resolves (R330, R529): `k` instructions were fetched and decoded on the wrong path, as far as lines were
present. -/
def Dev.resolve (d : Dev) (n k : Nat) : Dev :=
  let c := d.core n
  if c.spec.wrong && decide (c.spec.redirect = 0) then
    let most := match (d.coreJob n).bind (fun e => d.prog e.2.prog) with
      | some p => d.wrongPath n p k c.spec.wrongPc
      | none => 0
    d.updCore n (fun c =>
      { ((c.pmcAdd 0x07 most).pmcAdd 0x08 most).pmcAdd 0x0B 1 with spec := { c.spec with wrong := false } })
  else d

/-- An illegal word stands at the issue stage: a precise fault (R16-R18). One CCLK of the core passes. -/
def Dev.illegal (d : Dev) (n : Nat) (w : BitVec 128) : Dev :=
  match d.coreJob n with
  | none => d
  | some (_, j) => match d.prog j.prog with
    | none => d
    | some p =>
      let c := d.core n
      if !c.run || c.dbg.halted || d.atBreak n || (decodeCore w).isSome then d
      else if !c.ready p then d.cycle n
      else (d.coreFault n 0x01 c.regs.pc.toNat).cycle n

/-- Execution runs past the last instruction: a fault at that instruction, in the cycle in which the next one would issue (R330, R950). -/
def Dev.codeEnd (d : Dev) (n : Nat) : Dev :=
  match d.coreJob n with
  | none => d
  | some (_, j) => match d.prog j.prog with
    | none => d
    | some p =>
      let c := d.core n
      if !c.run || c.dbg.halted || decide (c.wait ≠ .none) || c.spec.wrong || decide (c.spec.redirect ≠ 0) || p.inCode c.regs.pc then d
      else d.coreFault n 0x02 (p.codeLen / 16 - 1)

/-! ### Run-ahead (R531-R542) -/

/-- Enter run-ahead (R531): while the wait still holds issue. -/
def Dev.raEnter (d : Dev) (n : Nat) : Dev :=
  let c := d.core n
  if c.wait.raWait && !c.waitOver && decide (16 ≤ c.spec.waitCyc) && c.spec.eff.getLsbD 0 && c.spec.ra.isNone && c.run &&
    !c.dbg.halted then
    let r : RunAhead :=
      { x := c.regs.x, f := c.regs.f, p := c.regs.p, bad := c.ops.flatMap Op.dst, pc := c.regs.pc, issued := 0, fills := 0,
        hints := 0, stopped := false, dirty := [], dirtyAll := false }
    d.updCore n (fun c => { c with spec := { c.spec with ra := some r } })
  else d

/-- The core as a run-ahead instruction sees it: the shadow registers in place of its own. -/
def Core.shadow (c : Core) (r : RunAhead) : Core := { c with regs := { c.regs with x := r.x, f := r.f, p := r.p, pc := r.pc } }

/-- An instruction that ends run-ahead issue (R534). -/
def CoreOp.stopsRunAhead : CoreOp → Bool
  | .emberSave _ _ _ _ _ | .jobDone _ _ _ _ _ _ _ | .specAccept _ | .phase _ | .srWrite _ | .syncAdd _ _ | .syncSet _ _
  | .syncRead _ _ | .syncWait _ _ | .arrWait _ _ | .arrRead _ _ | .arrSet _ _ | .ringPush _ _ _ _ _ | .ringHead _ _
  | .ringAvail _ _ | .ringPop _ _ | .dmaWr _ _ _ _ _ _ | .rwPut _ _ _ _ _ _ _ | .xferFence => true
  | _ => false

/-- The row (memory, logical row) that a run-ahead ld or ld.f reads; none where it would fault. -/
def Core.raLoad (c : Core) (j : Job) (isF : Bool) (a h : Nat) (imm : W64) : Option (Nat × Nat) :=
  let ofs := (c.getX a + imm).toNat
  let hd := c.handle h
  if narrowSynds hd ofs (if isF then 4 else 8) ≠ [] then none
  else some (hd.mem, c.readRow (decide (j.st = .presolving)) hd (ofs / 512))

/-- Results that a run-ahead instruction forms, on the shadow registers; none where run-ahead does not execute it (R533). -/
def CoreOp.raEval (op : CoreOp) (c : Core) (j : Job) (now : W64) : Option (List RegWrite) :=
  let fpc := c.regs.fpc
  match op with
  | .alu k d a b => some [.x d (k.eval (c.getX a) (c.opnd b))]
  | .sel d a b p => some [.x d (if c.getP p then c.getX a else c.getX b)]
  | .md k d a b => some [.x d (k.eval (c.getX a) (c.getX b))]
  | .ld isF d a h imm =>
    let ofs := (c.getX a + imm).toNat
    match c.raLoad j isF a h imm with
    | none => none
    | some (m, r) =>
      let v := ofBytes (c.spRead m r (ofs % 512) (if isF then 4 else 8))
      some [if isF then .f d (BitVec.ofNat 32 v) else .x d (BitVec.ofNat 64 v)]
  | .st _ _ _ _ _ => some []
  | .fbin k d a b rm => some [.f d (k.eval fpc (c.rmode rm) (c.getF a) (c.getF b))]
  | .fma d a b e rm => some [.f d (f32Fma fpc (c.rmode rm) (c.getF a) (c.getF b) (c.getF e))]
  | .fsign clear d a => some [.f d (signOp clear (c.getF a))]
  | .fdiv d a b rm => some [.f d (f32Div fpc (c.rmode rm) (c.getF a) (c.getF b))]
  | .fsqrt d a rm => some [.f d (f32Sqrt fpc (c.rmode rm) (c.getF a))]
  | .fcvt k d a rm => some [k.eval fpc (c.rmode rm) d (c.getX a) (c.getF a)]
  | .fli d w => some [.f d w]
  | .jmp _ => some []
  | .jmpr _ => some []
  | .call d _ => some [.x d (c.regs.pc + 1)]
  | .loop d a _ => some [.x d (c.getX a - 1)]
  | .cmp k d a b => some [.p d (k.eval (c.getX a) (c.opnd b))]
  | .fcmp k d a b => some [.p d (k.eval fpc (c.getF a) (c.getF b))]
  | .plog k d a b => some [.p d (k.eval (c.getP a) (c.getP b))]
  | .srRead d sr => some [.x d (c.special j now sr)]
  | _ => none

/-- Apply the results of a run-ahead instruction to the shadow registers; v registers are not kept. -/
def RunAhead.put (r : RunAhead) (w : RegWrite) : RunAhead :=
  match w with
  | .x i v => if i = 0 then r else { r with x := SMap.set 0 r.x i v }
  | .f i v => { r with f := SMap.set 0 r.f i v }
  | .p i b => if i = 0 then r else { r with p := SMap.set false r.p i b }
  | .v _ _ => r

/-- Flits a hint reads: the first 64 of the extent of a dma.rd that lies in the tenant's windows (R537). -/
def raHint (d : Dev) (c : Core) (j : Job) (op : CoreOp) (bad : List RegId) : List Nat :=
  match op with
  | .dmaRd t f1 _ xa xb xc _ =>
    let rows := dmaRows t f1 (firstRow t.o (c.getX xa))
    let len := if f1 = 2 then 512 else memRowLen t.f f1
    let stride := if f1 = 2 || xc = 0 then len else (c.getX xc).toNat
    let a := (c.getX xb).toNat
    let n := (rows.length - 1) * stride + len
    if !c.spec.eff.getLsbD 1 || [RegId.x xa, .x xb, .x xc].any bad.contains || decide (2 ^ 63 ≤ a) || !d.inReach j.tenant a n
    then [] else (flitsOf a n).take 64
  | _ => []

/-- Flits enter the core's partition, first in, first out, 8 per port (R538). -/
def CoreSpec.hint (s : CoreSpec) (fl : List Nat) : CoreSpec :=
  { s with hints := fl.foldl (fun m f => SMap.upd [] m (portOf f) (fun l => (f :: l).take 8)) s.hints }

/-- The scratchpad rows that an instruction of the window would write: some (memory, row) list, or none where they are not known. -/
def CoreOp.raWrites (op : CoreOp) (c : Core) (j : Job) (known : Bool) : Option (List (Nat × Nat)) :=
  let pres := decide (j.st = .presolving)
  let rows (h : Nat) (is : List Nat) : Option (List (Nat × Nat)) :=
    if known then some (is.map (fun i => ((c.handle h).mem, c.writeRow pres (c.handle h) i))) else none
  match op with
  | .st _ a _ h imm => rows h [(c.getX a + imm).toNat / 512]
  | .vst a _ _ h f b32 _ _ imm =>
    let t := tileRow f (blockSize b32) (dataRow (c.getX a) imm)
    rows h (t.row :: t.srow.toList)
  | .mma t0 _ h2 o2 _ _ xc _ _ q => rows h2 (span (firstRow o2 (c.getX xc)) ((t0.n + q) / 4 + 1))
  | .dmaRd t f1 _ xa _ _ _ => rows t.h (touched (dmaRows t f1 (firstRow t.o (c.getX xa))))
  | _ => some []

/-- One run-ahead instruction in the shadow state `r`. -/
def Dev.raStep (d : Dev) (n : Nat) (j : Job) (r : RunAhead) (q : Pred) (op : CoreOp) : Dev :=
  let c := (d.core n).shadow r
  let pq := RegId.p q.idx.toNat
  let ok := !(op.srcs.any r.bad.contains) && !(r.bad.contains pq)
  let off := !r.bad.contains pq && !c.predOn q
  let stale := match op with
    | .ld isF _ a h imm => r.dirtyAll || ((c.raLoad j isF a h imm).any r.dirty.contains)
    | _ => false
  let ws := op.raEval c j d.glb.time
  let fl := if c.predOn q && !r.bad.contains pq then raHint d c j op r.bad else []
  let dsts := realRegs op.dsts
  let r' :=
    if off then r
    else if ok && ws.isSome && !stale then
      { (ws.getD []).foldl RunAhead.put r with bad := r.bad.filter (fun x => !dsts.contains x) }
    else { r with bad := r.bad ++ dsts }
  let r' := if off then r' else match op.raWrites c j (!(op.srcs.any r.bad.contains)) with
    | some l => { r' with dirty := r'.dirty ++ l }
    | none => { r' with dirtyAll := true }
  let hints := if fl ≠ [] then r.hints + 1 else r.hints
  let d := { d with mem := fl.foldl (Mem.countFlit · false) d.mem }
  d.updCore n fun k =>
    let k := k.pmcAdd 0x09 fl.length
    let r' := { r' with
      pc := op.raNext q c ok, issued := r.issued + 1, hints := hints,
      stopped := r.stopped || decide (128 ≤ r.issued + 1) || decide (4 ≤ hints) }
    { k with spec := { k.spec.hint fl with ra := some r' } }

/-- The bank cycle of a run-ahead ld of row `row`: no other port asks there, the cycle is not reserved, no committed narrow instruction
needs the port, and no write of the row is in flight (R455, R542). -/
def Core.raGrants (c : Core) (mem row : Nat) : Bool :=
  let bank := bankOf row
  let b := SMap.get {} c.banks (mem * 8 + bank)
  !b.used && decide (b.starve < 8) && !c.narrowPortBusy mem && [0, 1, 2].all (fun p => (c.askAt p mem bank).isNone) &&
  !c.rangeBlocked (mkHold false mem [row])

/-- The row is read in this bank cycle, for run-ahead. -/
def Dev.raRead (d : Dev) (n mem row off : Nat) : Dev :=
  let k := mem * 8 + bankOf row
  (d.updCore n (fun c => { c with banks := SMap.upd {} c.banks k (fun b => { b with used := true, starve := 0 }) })).checkRead n mem row
    [off / 8] true

/-- The instruction that run-ahead decoded issues, or waits for its bank cycle. -/
def Dev.raGo (d : Dev) (n : Nat) (j : Job) (r : RunAhead) (q : Pred) (op : CoreOp) : Dev :=
  let c := (d.core n).shadow r
  let reads := match op with
    | .ld isF _ a h imm =>
      if op.srcs.any r.bad.contains || r.bad.contains (.p q.idx.toNat) || !c.predOn q then none
      else (c.raLoad j isF a h imm).map (fun e => (e, (c.getX a + imm).toNat % 512))
    | _ => none
  match reads with
  | none => d.raStep n j r q op
  | some ((m, row), off) => if c.raGrants m row then (d.raStep n j r q op).raRead n m row off else d

/-- Run-ahead meets the instruction word `w` (R532-R536, R542). One CCLK of the core passes. -/
def Dev.raIssue (d : Dev) (n : Nat) (w : BitVec 128) : Dev :=
  let stop (d : Dev) : Dev := d.updCore n (fun c => { c with spec := { c.spec with
    ra := c.spec.ra.map (fun r => { r with stopped := true }) } })
  match (d.core n).spec.ra, d.coreJob n with
  | some r, some (_, j) => match d.prog j.prog with
    | none => d
    | some p =>
      let c := d.core n
      if c.waitOver || r.stopped || c.dbg.halted then d.cycle n
      else if !p.inCode r.pc then (stop d).cycle n
      else
        let l := p.line r.pc
        if c.spec.hit l then
          match decodeCore w with
          | none => (stop d).cycle n
          | some (q, op) =>
            (if op.stopsRunAhead then stop d
              else (d.updCore n (fun c => { c with spec := c.spec.touch l })).raGo n j r q op).cycle n
        else if c.spec.raFill.isSome then d.cycle n
        else
          (d.updCore n (fun c => { c with spec := { c.spec with
            raFill := some l, ra := some { r with fills := r.fills + 1, stopped := decide (4 ≤ r.fills + 1) } } })).cycle n
  | _, _ => d

end Sys2Proof.Machine
end

