-- ==== Sys2Proof/Machine/NetOps.lean ====
section
/-!
DEFINITION. Machine/NetOps.lean: frames that the device builds and queues for sending: PST messages, responses and notices, their
encapsulation (20).
-/
namespace Sys2Proof.Machine

/-- Ethernet port `p`. -/
def Dev.eth (d : Dev) (p : Nat) : Eth := SMap.get {} d.eths p
/-- Change Ethernet port `p`. -/
def Dev.updEth (d : Dev) (p : Nat) (f : Eth → Eth) : Dev := { d with eths := SMap.upd {} d.eths p f }
/-- Session `s`. -/
def Dev.session (d : Dev) (s : Nat) : Option Session := SMap.get none d.net.sessions s
/-- Create, replace or remove session `s`. -/
def Dev.setSession (d : Dev) (s : Nat) (o : Option Session) : Dev :=
  { d with net := { d.net with sessions := SMap.set none d.net.sessions s o } }
/-- Change session `s`. -/
def Dev.updSession (d : Dev) (s : Nat) (f : Session → Session) : Dev := d.setSession s ((d.session s).map f)

/-- SEQ `a` is newer than `b` (R135). -/
def seqNewer (a b : W32) : Bool := decide (0 < (a - b).toInt)

/-- PTP time of a device time (R753). -/
def Dev.ptp (d : Dev) (t : Nat) : Nat := (10 * t + d.net.ptpOfs.toNat) % 2 ^ 64

/-! ### Encapsulation (R765, Table 20-4) -/

/-- The PST header. -/
def pstHeader (type session seq len reqTag : Nat) : List Byte :=
  [1, BitVec.ofNat 8 type] ++ toBytes session 2 ++ toBytes seq 4 ++ toBytes len 2 ++ [0, 0] ++ toBytes reqTag 4

/-- 802.1Q tag; none for VID 0. -/
def vlanTag (vid pcp : Nat) : List Byte := if vid = 0 then [] else toBytesBE 0x8100 2 ++ toBytesBE (pcp * 8192 + vid) 2

/-- Sum of big-endian 16-bit words, a last odd byte in the high half. -/
def sum16 : List Byte → Nat
  | [] => 0
  | [a] => a.toNat * 256
  | a :: b :: bs => a.toNat * 256 + b.toNat + sum16 bs

/-- Fold a sum once. -/
def fold16 (n : Nat) : Nat := n % 65536 + n / 65536
/-- The Internet checksum. -/
def cksum (bs : List Byte) : Nat := 65535 - fold16 (fold16 (sum16 bs))

/-- A UDP datagram; `pseudo` is the pseudo-header without the length. -/
def udp (pseudo : List Byte) (src dst : Nat) (msg : List Byte) : List Byte :=
  let len := msg.length + 8
  let head := toBytesBE src 2 ++ toBytesBE dst 2 ++ toBytesBE len 2
  let c := cksum (pseudo ++ toBytesBE len 2 ++ head ++ msg)
  head ++ toBytesBE (if c = 0 then 65535 else c) 2 ++ msg

/-- An IPv4 packet. The spec gives no type of service, identification, DF bit or time to live: they are those of `w` (log 1). -/
def ipv4 (w : Nat) (src dst : Nat) (proto : Nat) (body : List Byte) : List Byte :=
  let h1 := [0x45, BitVec.ofNat 8 w] ++ toBytesBE (20 + body.length) 2 ++ toBytesBE (bits w 8 16) 2 ++
    toBytesBE (0x4000 * bits w 24 1) 2 ++ [BitVec.ofNat 8 (bits w 32 8), BitVec.ofNat 8 proto]
  let h2 := toBytes src 4 ++ toBytes dst 4
  h1 ++ toBytesBE (cksum (h1 ++ [0, 0] ++ h2)) 2 ++ h2 ++ body

/-- An IPv6 packet. The spec gives no traffic class, flow label or hop limit: they are those of `w` (log 1). -/
def ipv6 (w : Nat) (src dst : Nat) (next : Nat) (body : List Byte) : List Byte :=
  toBytesBE (6 * 2 ^ 28 + bits w 0 28) 4 ++ toBytesBE body.length 2 ++
    [BitVec.ofNat 8 next, BitVec.ofNat 8 (bits w 32 8)] ++ toBytes src 16 ++ toBytes dst 16 ++ body

/-- An Ethernet frame up to the end of its payload, padded to the least length. -/
def etherFrame (dst src vid pcp type : Nat) (body : List Byte) : List Byte :=
  let f := toBytes dst 6 ++ toBytes src 6 ++ vlanTag vid pcp ++ toBytesBE type 2 ++ body
  f ++ List.replicate (60 - f.length) 0

/-- A PST message to a peer, in a session's encapsulation (R765). -/
def Dev.pstFrame (d : Dev) (s : Session) (p mac ip port vid : Nat) (msg : List Byte) : List Byte × Dev :=
  let c := (d.eth p).cfg
  if s.encap = 0 then (etherFrame mac c.mac vid s.pcp 0x88B5 msg, d)
  else
    let r := d.draw
    let w := (Config.freeWord r.1).toNat
    if s.encap = 1 then
      let u := udp (toBytes c.ipv4 4 ++ toBytes ip 4 ++ [0, 17]) c.udpPort port msg
      (etherFrame mac c.mac vid s.pcp 0x0800 (ipv4 w c.ipv4 ip 17 u), r.2)
    else
      let u := udp (toBytes c.ipv6 16 ++ toBytes ip 16 ++ [0, 17]) c.udpPort port msg
      (etherFrame mac c.mac vid s.pcp 0x86DD (ipv6 w c.ipv6 ip 17 u), r.2)

/-- Queue a frame for sending on port `p` (R757). -/
def Dev.enqueue (d : Dev) (p pcp : Nat) (f : EthFrame) : Dev :=
  d.updEth p (fun e => { e with tx := SMap.upd [] e.tx (nth 0 e.cfg.qmap pcp) (fun l => l ++ [f]) })

/-! ### Slots (R774, R777, R778) -/

/-- The lowest free slot of a session. -/
def Session.freeSlot (s : Session) : Option Nat :=
  let k := SMap.firstFree s.slots 0
  if k < s.pSlots then some k else none

/-- A slot is released; a closed session whose last slot is released is gone (R770). -/
def Dev.freeSlot (d : Dev) (s k : Nat) : Dev :=
  let d := d.updSession s (fun x => { x with slots := SMap.set none x.slots k none })
  match d.session s with
  | some x => if !x.open_ && !x.dormant && x.slots.isEmpty then d.setSession s none else d
  | none => d

/-- What the last byte, or the loss, of a response releases: the slot and the completion-ring entry or overflow slot (R777). -/
def Dev.releaseResp (d : Dev) (r : Nat × Nat × Nat × Option Nat) : Dev :=
  let d := d.freeSlot r.1 r.2.1
  let d := d.updQueue r.2.2.1 (fun q => match r.2.2.2 with
    | none => { q with cqFreed := q.cqFreed + 1 }
    | some i => { q with ovfMask := q.ovfMask &&& ~~~(1#4 <<< i) })
  d.headWb r.2.2.1

/-- FINAL values that give result rows (Table 1-3). -/
def finalHasRows (f : Nat) : Bool := f == 0 || f == 1 || f == 8 || decide (0x80 ≤ f)

/-- The SOLVE_RESPONSE of a completion (R776, Table 20-6): `ent` is the entry as written, `fin` and `endT` its FINAL and end
instant, `result` the address of its rows. On a port whose link is down it is lost at once (R778). -/
def Dev.pstResponse (d : Dev) (sn k u : Nat) (ovf : Option Nat) (ent : List Byte) (fin endT result : Nat) : Dev :=
  match d.session sn with
  | none => d
  | some s => match SMap.get none s.slots k with
    | none => d
    | some sl =>
      if !(d.eth sl.port).link then
        (d.updEth sl.port (fun e => { e with respLost := satInc e.respLost })).releaseResp (sn, k, u, ovf)
      else
        let rr := if finalHasRows fin then s.rRows else 0
        let body := ent ++ toBytes (d.ptp endT) 8 ++ [BitVec.ofNat 8 rr] ++ List.replicate 7 0 ++ d.peek result (512 * rr)
        let d := d.countRead result (512 * rr)
        let msg := pstHeader 0x02 sn sl.seq.toNat body.length sl.reqTag.toNat ++ body
        let r := d.pstFrame s sl.port sl.mac sl.ip sl.udp sl.vid msg
        r.2.enqueue sl.port s.pcp { bytes := r.1, resp := some (sn, k, u, ovf) }

end Sys2Proof.Machine
end

