-- ==== Sys2Proof/Machine/SyncOps.lean ====
section
/-!
DEFINITION. Machine/SyncOps.lean: the sync block: host accesses to counters and arm slots, the order of application, watches, arms
and their fires (06).
-/
namespace Sys2Proof.Machine

/-! ### Access by the host (R250, R938, R275) -/

/-- Function `f` may name a counter or slot of block `b`: the PF of any allocated block, a VF of its own tenant's. -/
def Dev.blockOpen (d : Dev) (f b : Nat) : Bool :=
  let o := SMap.get 0 d.syn.owner b
  if f = 0 then decide (o ≠ 0) else decide (o = f + 1)

/-- A refused host access (Table 6-2): counted, and its counter or slot number recorded. -/
def Dev.accErr (d : Dev) (f num : Nat) : Dev :=
  { d with syn := { d.syn with
      accErr := satInc d.syn.accErr
      errInfo := BitVec.ofNat 32 (place num 0 17 + place f 24 7 + place 1 31 1) } }

/-! ### What an applied operation sets off (R254, R262-R264) -/

/-- The slot has fired in FCLK cycle `now` (R263). -/
def Arm.firedIn (a : Arm) (now : Nat) : Bool := a.firedAt == now + 1

/-- The slot after its counter has come to `v` by an operation applied in FCLK cycle `now`; one that has fired in this cycle is re-based
without a second fire (R264). -/
def Arm.see (a : Arm) (now v : Nat) : Arm :=
  let t := a.thresh.toNat
  let s := a.step.toNat
  if !a.armed || decide (v < t) then a
  else if decide (1 ≤ s) && decide (256 * s ≤ v - t) then
    { a with thresh := BitVec.ofNat 64 (v + s), skip := true, due := !a.firedIn now, rebased := !a.firedIn now }
  else { a with due := true }

/-- A core's wake arm after counter `c` has come to a satisfying value for thresholds up to `v`. -/
def Core.seeCtr (k : Core) (c v : Nat) : Core :=
  match k.wait with
  | .sync i t false => if i = c && decide (t.toNat ≤ v) then { k with wait := .sync i t true } else k
  | _ => k

/-- A job's watches after counter `c` has come to `v`: WAITCTR while it waits, MEASCTR while it runs ahead of its measurement. -/
def Job.seeCtr (j : Job) (c v : Nat) : Job :=
  let j := if decide (j.st = .waiting) && j.waitCtr == some c && decide (j.waitVal ≤ v) then { j with watchSat := true } else j
  if decide (j.st = .presolving) && j.measCtr == some c && decide (j.measVal ≤ v) then { j with measSat := true } else j

/-- Every watch and arm on counter `c` sees the value `v` that follows an applied ADD or SET. -/
def Dev.ctrSeen (d : Dev) (c v : Nat) : Dev :=
  { d with
    cores := SMap.mapV {} (fun _ k => k.seeCtr c v) d.cores
    stk := { d.stk with jobs := SMap.mapV none (fun _ j => j.map (·.seeCtr c v)) d.stk.jobs }
    syn := { d.syn with arms := SMap.mapV {} (fun _ a => if a.ctr.toNat = c then a.see d.fno v else a) d.syn.arms } }

/-! ### Application (R248, R252, R253, R255, R260, R848) -/

/-- The running SLE is to learn that counter `c` changes to `v`, where it is CMTCTR (R655). -/
def Sle.seeCommit (s : Sle) (c : Nat) (old v : W64) : Sle :=
  if decide (s.st = .running) && s.cfg.cmt == some c && v != old then { s with commits := s.commits ++ [v] } else s

/-- The value of counter `c` becomes `v`; a BAD counter ignores it. -/
def Dev.ctrPut (d : Dev) (c : Nat) (v : W64) (wrap : Bool) : Dev :=
  if SMap.get false d.syn.bad c then d
  else
    let s := d.sle.seeCommit c (SMap.get 0 d.syn.ctr c) v
    ({ d with syn := { d.syn with ctr := SMap.set 0 d.syn.ctr c v, wrap := d.syn.wrap || wrap }, sle := s }).ctrSeen c v.toNat

/-- The result of a core READ: the value stands ready to return. -/
def Dev.ctrRead (d : Dev) (c n seq : Nat) : Dev :=
  let v := d.ctrVal c
  d.updCore n (fun k => { k with ops := k.ops.map (fun o =>
    if o.seq = seq then
      match o.kind with
      | .syncRead r _ => { o with kind := .regs [.x r v] }
      | _ => o
    else o) })

/-- One operation is applied. -/
def Dev.synApply (d : Dev) (p : SynPend) : Dev :=
  match p.op with
  | .add x =>
    let s := (SMap.get 0 d.syn.ctr p.ctr).toNat + x.toNat
    d.ctrPut p.ctr (BitVec.ofNat 64 s) (decide (2 ^ 64 ≤ s))
  | .set v => d.ctrPut p.ctr v false
  | .read n seq => d.ctrRead p.ctr n seq

/-- The operation may be applied: the writes that a core's ADD or SET follows are visible (R255). -/
def Dev.synReady (d : Dev) (p : SynPend) : Bool :=
  p.src < 6 || (decide (p.needDma ≤ (d.core (p.src - 6)).dmaDone) && decide (p.needRem ≤ (d.core (p.src - 6)).remDone))

/-- The oldest operation of a source on a counter, and the others. -/
def takePend (c src : Nat) : List SynPend → Option (SynPend × List SynPend)
  | [] => none
  | p :: ps =>
    if p.ctr = c && p.src = src then some (p, ps) else (takePend c src ps).map (fun r => (r.1, p :: r.2))

/-- The oldest operation of source `src` on counter `c` is applied, if it may be. -/
def Dev.applySrc (d : Dev) (c src : Nat) : Dev :=
  match takePend c src d.syn.pend with
  | none => d
  | some (p, rest) => if d.synReady p then ({ d with syn := { d.syn with pend := rest } }).synApply p else d

/-- The operations on counter `c` that reach the block in one FCLK from the sources in `srcs`, in source order (R252). -/
def Dev.counterApply (d : Dev) (c : Nat) (srcs : BitVec 24) : Dev :=
  (List.range 24).foldl (fun d s => if srcs.getLsbD s then d.applySrc c s else d) d

/-- The host's operations on counter `c` that wait are applied, in order (R939). -/
def Dev.flushHost (d : Dev) (c : Nat) : Dev :=
  (List.range (d.syn.pend.filter (fun p => p.src == 0 && p.ctr == c)).length).foldl (fun d _ => d.applySrc c 0) d

/-- An operation of function `f`, received before place `upto`, is not yet applied: a read of the function waits (R939). -/
def Dev.synBehind (d : Dev) (f upto : Nat) : Bool := d.syn.pend.any (fun p => p.src == 0 && p.fn == f && decide (p.id < upto))

/-! ### Host accesses -/

/-- SET by the host, as function `f` (R248, R275). -/
def Dev.synCtrWrite (d : Dev) (f c : Nat) (narrow : Bool) (v : W64) : Dev :=
  if !d.blockOpen f (c / 256) then d.accErr f c
  else if narrow then { d with syn := { d.syn with accErr := satInc d.syn.accErr } }
  else d.synPush { ctr := c, op := .set v, src := 0, needDma := 0, needRem := 0, fn := f }

/-- ADD by the host (R248). -/
def Dev.synAddWrite (d : Dev) (f c : Nat) (x : W32) : Dev :=
  if !d.blockOpen f (c / 256) then d.accErr f c
  else d.synPush { ctr := c, op := .add x, src := 0, needDma := 0, needRem := 0, fn := f }

/-- Arm slot `a`. -/
def Dev.arm (d : Dev) (a : Nat) : Arm := SMap.get {} d.syn.arms a
/-- Change arm slot `a`. -/
def Dev.updArm (d : Dev) (a : Nat) (f : Arm → Arm) : Dev := { d with syn := { d.syn with arms := SMap.upd {} d.syn.arms a f } }

/-- The vectors that a slot of tenant `t` may name (Table 21-4). -/
def vecOk (t v : Nat) : Bool := if t = 0 then decide (16 ≤ v) && decide (v < 2048) else decide (1 ≤ v) && decide (v < 64)

/-- The arming of a slot is refused (R266). -/
def Dev.armBad (d : Dev) (a ctr action : Nat) : Bool :=
  let t := SMap.get 0 d.syn.owner (a / 16) - 1
  let m := (d.arm a).target.toNat
  !d.ownsCtr t ctr ||
  (if action = 0 then !vecOk t m
   else match d.queue m with
     | some q => decide (q.tenant ≠ t) || q.pst.isSome
     | none => true)

/-- A write of `SYN_ARM_CTL` (R261, R266, R938). A reserved ACTION counts as 0 (R20). -/
def Dev.armCtl (d : Dev) (src : WarnSrc) (f a : Nat) (w : W32) : Dev :=
  if !d.blockOpen f (a / 16) then d.accErr f a
  else
    let n := w.toNat
    let ctr := bits n 0 17
    let rsv := decide (2 ≤ bits n 24 2)
    let action := if rsv then 0 else bits n 24 2
    let d := if rsv then d.cfgWarn src (0x380008 + a * 32) else d
    let d := d.updArm a (fun s => { s with
      ctr := BitVec.ofNat 17 ctr, action := BitVec.ofNat 2 action, armed := false, due := false, rebased := false })
    if !bit1 n 31 then d
    else if d.armBad a ctr action then (d.updArm a (fun s => { s with invTgt := true })).accErr f a
    else
      let d := d.flushHost ctr
      d.updArm a (fun s => { s with armed := true, due := d.ctrGe ctr s.thresh })

/-! ### Fires (R262, R263, R267, R268) -/

/-- The slot has a fire to make: an applied operation has satisfied it, or its counter satisfies it still (R262, R263). -/
def Dev.armSat (d : Dev) (s : Arm) : Bool := s.armed && (s.due || d.ctrGe s.ctr.toNat s.thresh)

/-- A satisfied slot fires, once per FCLK cycle at most (R263): its action is under way and THRESH moves on. -/
def Dev.armFire (d : Dev) (a : Nat) : Dev :=
  let s := d.arm a
  if !d.armSat s || s.firedIn d.fno then d
  else
    let y := d.syn
    let y := if s.action = 1 then { y with rel := y.rel ++ [(a, s.target.toNat)] }
      else if y.irq.any (fun e => e.1 == a) then y
      else { y with irq := y.irq ++ [(a, SMap.get 0 y.owner (a / 16) - 1, s.target.toNat)] }
    let th := if s.rebased then s.thresh else s.thresh + s.step.setWidth 64
    let on := decide (s.step ≠ 0)
    let s := { s with
      thresh := th
      fires := satInc s.fires
      armed := on
      due := false
      rebased := false
      firedAt := d.fno + 1 }
    { d with syn := { y with arms := SMap.set {} y.arms a s } }

/-- The first entry of slot `a`, and the others. -/
def takeSlot {α : Type} (a : Nat) : List (Nat × α) → Option (α × List (Nat × α))
  | [] => none
  | e :: es => if e.1 = a then some (e.2, es) else (takeSlot a es).map (fun r => (r.1, e :: r.2))

/-- A RELEASE fire reaches its queue (R246, R267): the tail advances by one entry, or the fire is discarded where the ring is full. -/
def Dev.armRelease (d : Dev) (a : Nat) : Dev :=
  match takeSlot a d.syn.rel with
  | none => d
  | some (u, rest) =>
    let d := { d with syn := { d.syn with rel := rest } }
    match d.queue u with
    | none => d
    | some q =>
      let t := (q.tail + 1) % q.desc.sqSize
      if t = q.head then d.updArm a (fun s => { s with relFull := true })
      else (d.updQueue u (fun q => { q with tail := t, stopped := false })).headWb u

/-- The MSI-X message of an IRQ fire is raised (R268). -/
def Dev.armIrq (d : Dev) (a : Nat) : Dev :=
  match takeSlot a d.syn.irq with
  | none => d
  | some (e, rest) => ({ d with syn := { d.syn with irq := rest } }).raiseVec e.1 e.2

/-- An uncorrectable error marks a counter BAD (R848). -/
def Dev.ctrUe (d : Dev) (c : Nat) : Dev :=
  ({ d with syn := { d.syn with bad := SMap.set false d.syn.bad c true } }).record
    { cls := 5, source := 2, code := 0x0016, info := c }

end Sys2Proof.Machine
end

