-- ==== Sys2Proof/Machine/JobOps.lean ====
section
/-!
DEFINITION. Machine/JobOps.lean: a job from fetch to completion: doorbells, fetch and admission, dispatch, loading, the ending steps of
Table 1-2 (01, 05, 21, 23).
-/
namespace Sys2Proof.Machine

/-! ### Ends of jobs that never reach a core -/

/-- The job ends without a run (or without a further one) as REJECTED_LATE or EXPIRED_IN_QUEUE, at the Stoker's decision
(Table 1-5); a job that never ran reports the epoch of the decision. -/
def Dev.expire (d : Dev) (k final detail : Nat) : Dev :=
  d.updJob k (fun j => if j.fin.isSome then j else { j with
    st := .ending
    epoch := if j.n = 0 then d.kiln.epoch else j.epoch
    fin := some { final := BitVec.ofNat 8 final, detail := BitVec.ofNat 32 detail, time := d.glb.time, resid := 0x7FC00000,
                  iter := 0, ember := 0, rows := [], written := true, retry := false, emberTime := none, fclk := d.fno, idx := 0 } })

/-- The drain-switch change in progress destroys tenant `t`. -/
def Dev.drainDestroys (d : Dev) (t : Nat) : Bool := d.kiln.drain.any (fun c => decide (c.change = .tenantDestroy t))

/-- A TENANT_DESTROY of tenant `t` is in progress (R625). -/
def Dev.destroying (d : Dev) (t : Nat) : Bool := d.drainDestroys t || d.kiln.deferred.any (fun x => decide (x.op = .tenantDestroy t))

/-- The reason code with which a job that is not dispatched ends now, the first of Table 5-6 that applies (R225, R231): a READY job that
failed a check at fetch with that check's code; 0x01 and 0x02 once the deadline is reached; 0x04 where its queue is being destroyed (R172),
which the hold of a drain-switch change delays for a READY job (Table 5-6), unless that change destroys its tenant (R625 step 1). -/
def Dev.endCode (d : Dev) (j : Job) : Option Nat :=
  let dead := decide (j.deadline ≤ d.now)
  let gone := ((d.queue j.queue).map Queue.dying).getD true
  match j.st with
  | .waiting => if dead then some 0x01 else if gone then some 0x04 else none
  | .ready =>
    if j.code ≠ 0 then some j.code else if dead then some 0x02 else if gone && (!d.held j.queue || d.drainDestroys j.tenant) then some 0x04 else none
  | _ => none

/-- Job `k` ends as EXPIRED_IN_QUEUE where a reason of Table 5-6 applies. -/
def Dev.expireDue (d : Dev) (k : Nat) : Dev :=
  match (d.job k).bind d.endCode with
  | some c => d.expire k 0x04 c
  | none => d

/-- Job `k` ends as EXPIRED_IN_QUEUE where it is in state `s` and its deadline has been reached (R231). -/
def Dev.expireAt (d : Dev) (k : Nat) (s : JobState) : Dev :=
  match d.job k with
  | some j => if j.st = s && decide (j.deadline ≤ d.now) then d.expireDue k else d
  | none => d

/-- The jobs of queue `u` that are admitted and not dispatched end where a reason applies (R172). -/
def Dev.expireQueue (d : Dev) (u : Nat) : Dev :=
  (d.jobKeys (fun j => j.queue == u && (decide (j.st = .waiting) || decide (j.st = .ready)))).foldl Dev.expireDue d

/-! ### Doorbells (R213-R217, R241, R769, R841) -/

/-- A decoded doorbell write: queue, index, OVFACK, CQ. -/
structure Bell where
  queue : Nat
  index : Nat
  ovf : Bool
  cq : Bool
  deriving DecidableEq, Repr

/-- The created queue whose direct doorbell is at an offset of function `f`'s page (R205). -/
def Dev.queueAt (d : Dev) (f ofs : Nat) : Option Nat :=
  (d.stk.queues.find? (fun e => match e.2 with
    | some q => q.tenant == f && q.dbofs == ofs && ofs != 0
    | none => false)).map Prod.fst

/-- Decode a doorbell write in function `f`'s page (R213); none where it names no queue or a reserved bit is not zero.
Bits 28:16 of a direct doorbell, which R213 does not name, count as reserved (log 36). -/
def Dev.bell (d : Dev) (f ofs w : Nat) : Option Bell :=
  let b : Option Bell :=
    if ofs = 0 then
      if bits w 16 16 ≠ 0 || bits w 48 13 ≠ 0 || bit1 w 62 then none
      else some { queue := bits w 0 16, index := bits w 32 16, ovf := bit1 w 61, cq := bit1 w 63 }
    else if bits w 16 13 ≠ 0 || bit1 w 30 || bits w 32 32 ≠ 0 || ofs % 8 ≠ 0 then none
    else (d.queueAt f ofs).map (fun u => { queue := u, index := bits w 0 16, ovf := bit1 w 29, cq := bit1 w 31 })
  b.filter (fun b => !b.ovf || decide (b.index < 16))

/-- An ignored doorbell write (R214). -/
def Dev.dbError (d : Dev) : Dev := { d with stk := { d.stk with dbErr := satInc d.stk.dbErr } }

/-- Entries that a completion-head write of `i` releases: none where it would pass an entry not yet written (R217, R841).
Where every slot holds an entry, a write equal to the present head releases them all (log 145). -/
def Queue.cqRelease (q : Queue) (i : Nat) : Option Nat :=
  let size := q.desc.cqSize
  let held := q.cqWritten - q.cqFreed
  let k := (i + size - q.cqFreed % size) % size
  let k := if k = 0 && held = size then size else k
  if k ≤ held then some k else none

/-- The effect of a doorbell write on its queue; none where it is ignored. One with OVFACK releases overflow slots,
whatever its bit CQ says (log 144). -/
def Queue.ring (q : Queue) (b : Bell) : Option Queue :=
  if q.pst.isSome then none
  else if b.ovf then some { q with ovfMask := q.ovfMask &&& ~~~(BitVec.ofNat 4 b.index), stopped := false }
  else if b.cq then
    if q.desc.cqSize ≤ b.index then none
    else (q.cqRelease b.index).map (fun k => { q with cqFreed := q.cqFreed + k, stopped := false })
  else if q.desc.sqSize ≤ b.index then none
  else some { q with tail := b.index, stopped := false }

/-- A doorbell write by function `f` at an offset of its page. -/
def Dev.doorbell (d : Dev) (f ofs : Nat) (w : W64) : Dev :=
  match d.bell f ofs w.toNat with
  | none => d.dbError
  | some b => match d.queue b.queue with
    | none => d.dbError
    | some q =>
      if q.tenant ≠ f then d.dbError
      else match q.ring b with
        | none => d.dbError
        | some q' => (d.setQueue b.queue (some q')).headWb b.queue

/-! ### Fetch and admission (R207, R219-R225, R837) -/

/-- Entries of the job table in use. -/
def Dev.jobCount (d : Dev) : Nat := d.stk.jobs.length

/-- A queue can be fetched from (R219): not while it or its tenant is being destroyed (R172, R625). -/
def Dev.canFetch (d : Dev) (q : Queue) : Bool :=
  !d.stk.fatal && q.bind.isSome && !q.dying && !d.destroying q.tenant && !q.stopped && decide (q.infl < q.desc.maxInfl) && decide (d.jobCount < 16384) &&
  (decide (0 < q.free) || q.freeSlot.isSome) && decide (q.head ≠ q.tail)

/-- Queues that can be fetched from, with their class. -/
def Dev.fetchable (d : Dev) : List (Nat × Nat) :=
  d.stk.queues.filterMap fun e => match e.2 with
    | some q => if d.canFetch q then some (e.1, q.desc.cls) else none
    | none => none

/-- The queue that the Stoker takes the next entry from: the one being visited, up to 8 entries, else the next in turn of the lowest
class. -/
def Dev.fetchPick (d : Dev) : Option Nat :=
  let l := d.fetchable
  let cont := match d.stk.visit with
    | some (u, k) => if decide (k < 8) && l.any (fun e => e.1 == u) then some u else none
    | none => none
  match cont with
  | some u => some u
  | none => match lowest (l.map Prod.snd) with
    | none => none
    | some c =>
      let us := (l.filter (fun e => e.2 == c)).map Prod.fst
      match us.find? (fun u => decide (SMap.get 0 d.stk.rr c ≤ u)) with
      | some u => some u
      | none => us.head?

/-- The Stoker's place in its visits after taking an entry from queue `u` of class `c`. -/
def Stk.visited (s : Stk) (u c : Nat) : Stk :=
  let k := match s.visit with
    | some (v, k) => if v = u && decide (k < 8) then k + 1 else 1
    | none => 1
  { s with visit := some (u, k), rr := SMap.set 0 s.rr c (u + 1) }

/-- An extent lies in tenant `t`'s reach or in host space. -/
def Dev.reachable (d : Dev) (t a n : Nat) : Bool := d.inReach t a n || inHost a n

/-- First failing check among rows 0x10-0x14 of Table 5-6; 0 where all pass (R225). -/
def Dev.fetchCheck (d : Dev) (q : Queue) (j : Job) : Nat :=
  let ref (o : Nat) : Bool := bits (j.bytes o 4) 17 14 != 0
  let bad (c : Option Nat) : Bool := match c with
    | some c => !d.ownsCtr q.tenant c
    | none => false
  let slot (s : Nat) : Bool := s != 0xFFFF && decide (q.desc.kCount ≤ s)
  if bits (j.bytes 4 2) 3 13 ≠ 0 || decide (511 < j.prows) || ref 40 || ref 44 || ref 56 then 0x10
  else if (decide (j.prows ≠ 0) && (j.param % 64 != 0 || !d.reachable q.tenant j.param (512 * j.prows))) ||
      j.result % 64 != 0 || !d.reachable q.tenant j.result 4096 then 0x11
  else if bad j.waitCtr || bad j.sigCtr || (j.presolveFlag && bad j.measCtr) then 0x12
  else if slot j.kslot || slot j.knext then 0x13
  else if j.presolveFlag && (!q.desc.presolve || q.desc.prRows != j.prows) then 0x14
  else 0

/-- DEADLINE − now as a signed difference (R222). -/
def Dev.slack (d : Dev) (deadline : Nat) : Int := (BitVec.ofNat 64 deadline - d.glb.time).toInt

/-- Declared time-to-first-ember of the program bound to a queue. -/
def Dev.ttfeOf (d : Dev) (q : Queue) : Nat :=
  match q.bind with
  | some b => ((d.prog b.prog).map Prog.ttfe).getD 0
  | none => 0

/-- A job as fetched from queue `u`. -/
def Dev.newJob (d : Dev) (u : Nat) (q : Queue) (entry : BitVec 512) : Job :=
  { queue := u, tenant := q.tenant, entry := entry, st := .ready, seq := d.stk.seq,
    ovf := if 0 < q.free then none else q.freeSlot, code := 0, watchSat := false, measSat := false, prog := 0, n := 0,
    epoch := 0, cores := [], predicted := false, loading := false, squashing := false, delivered := false, accepted := false,
    start := none, emberFrom := none, fired := false, squashed := false, retried := false, overrun := false, emberLate := false,
    outRsv := false, detached := false, fin := none, pst := none, desc := q.desc, halt := none, stopped := false, again := false }

/-- Session and slot of the PST request that an entry of queue `u` carries: of a session of the queue's tenant (R774, R776, R618). -/
def Dev.pstOf (d : Dev) (u : Nat) (j : Job) : Option (Nat × Nat) :=
  let s := bits j.tag 20 12
  let k := bits j.tag 0 10
  match d.session s with
  | some x =>
    if !x.dormant && decide (x.qBase ≤ u) && decide (u < x.qBase + x.qCount) && decide ((d.queue u).map Queue.tenant = some x.tenant) &&
      (SMap.get none x.slots k).isSome then some (s, k)
    else none
  | none => none

/-- Admit a fetched job under key `k` (R222-R225). -/
def Dev.admitJob (d : Dev) (k : Nat) (q : Queue) (j : Job) : Dev :=
  let sl := d.slack j.deadline
  let ttfe : Int := d.ttfeOf q
  if sl < ttfe then (d.setJob k (some j)).expire k 0x03 (min (ttfe - sl).toNat 0xFFFFFFFF)
  else
    let code := d.fetchCheck q j
    match j.waitCtr with
    | some c =>
      if code = 0 then d.setJob k (some { j with st := .waiting, watchSat := d.ctrGe c (BitVec.ofNat 64 j.waitVal) })
      else d.setJob k (some { j with code := code })
    | none => d.setJob k (some { j with code := code })

/-- Stop fetch from queue `u` and record the failed fetch of the entry at `a` (R806). -/
def Dev.fetchStop (d : Dev) (u a : Nat) : Dev :=
  (d.updQueue u (fun q => { q with stopped := true })).record
    { cls := 7, source := 1, code := 0x0022, info := a }

/-- Address of the next entry to fetch. -/
def Queue.nextEntry (q : Queue) : Nat := q.desc.sqBase + 64 * q.head

/-- The Stoker fetches the next entry of queue `u`; `host` is the entry where the ring lies in host space. -/
def Dev.fetch (d : Dev) (u : Nat) (host : BitVec 512) (fab : Fabric) : Dev :=
  match d.queue u with
  | none => d
  | some q =>
    let a := q.nextEntry
    let inH := inHost a 64
    if d.fetchPick ≠ some u || (inH && !d.hostReads q.tenant false) then d
    else
      let d := { d with stk := d.stk.visited u q.desc.cls }
      if fabricLost fab || !inH && d.poisoned a 64 then ((if inH then d.hostRead q.tenant a 64 else d.countRead a 64).fabricRead fab a 1).fetchStop u a
      else
        let e := if inH then host else BitVec.ofNat 512 (ofBytes (d.peek a 64))
        let d := (if inH then d.hostRead q.tenant a 64 else d.countRead a 64).fabricRead fab a 1
        let j := d.newJob u q e
        let j := { j with pst := d.pstOf u j }
        let d := d.updQueue u (fun q => { q with
          head := (q.head + 1) % q.desc.sqSize
          infl := q.infl + 1
          credits := if j.ovf.isNone then q.credits + 1 else q.credits
          ovfRes := match j.ovf with
            | some i => q.ovfRes ||| (1#4 <<< i)
            | none => q.ovfRes })
        let d := { d with stk := { d.stk with seq := d.stk.seq + 1 } }
        (d.admitJob (SMap.firstFree d.stk.jobs 0) q j).headWb u

/-- The watch of a WAITING job reports: READY, or expired where its deadline has been reached (R224, R269, R270). -/
def Dev.watchReport (d : Dev) (k : Nat) : Dev :=
  match d.job k with
  | some j =>
    if j.st ≠ .waiting || !j.watchSat then d
    else if j.deadline ≤ d.now then d.expireDue k
    else d.updJob k (fun j => { j with st := .ready })
  | none => d

/-! ### Outbound space (R807, R808, R840) -/

/-- Bytes of the outbound buffer. -/
def outTotal : Nat := 131072
/-- The entry of a job that never reached a core waits for outbound space: its sink is a ring in host space. -/
def Dev.waitsOut (d : Dev) (j : Job) : Bool :=
  j.fin.isSome && !j.onCores && j.ovf.isNone &&
  (match d.queue j.queue with
    | some q => decide (2 ^ 63 ≤ q.desc.cqBase)
    | none => false)

/-- How many such entries come before one with end instant `t` (fetch order `s`). -/
def Dev.outAhead (d : Dev) (t s : Nat) : Nat :=
  (d.jobKeys (fun i => d.waitsOut i &&
    (match i.fin with
      | some f => decide (f.time.toNat < t) || (decide (f.time.toNat = t) && decide (i.seq < s))
      | none => false))).length

/-- All such entries. -/
def Dev.outWait (d : Dev) : Nat := (d.jobKeys d.waitsOut).length

/-- A sink of a job of the queue lies in host space (R807). -/
def Job.hostSinks (j : Job) (e : Desc) : Bool := decide (2 ^ 63 ≤ j.result) || decide (2 ^ 63 ≤ e.cqBase) || decide (2 ^ 63 ≤ e.headWb)

/-! ### Ranking and dispatch (R226-R237) -/

/-- Rank of a READY job. -/
def Job.rank (j : Job) (cls : Nat) : List Nat := [cls, j.deadline, j.queue, j.seq]

/-- Lexicographic order of ranks. -/
def rankLt : List Nat → List Nat → Bool
  | a :: as, b :: bs => decide (a < b) || (decide (a = b) && rankLt as bs)
  | [], _ :: _ => true
  | _, [] => false

/-- Every core of tenant `t` holds the reservation `r` (R507). -/
def Dev.raised (d : Dev) (t r : Nat) : Bool := (d.coresOf t).all (fun n => decide (r ≤ (d.core n).tok.rho))

/-- A READY job may be dispatched: its queue is bound, not held by a drain, and its reservation is in place. -/
def Dev.dispatchable (d : Dev) (j : Job) : Option Nat :=
  match d.queue j.queue with
  | none => none
  | some q => match q.bind with
    | none => none
    | some b => match d.prog b.prog with
      | none => none
      | some p => if j.st = .ready && !d.held j.queue && d.raised j.tenant p.rsv then some q.desc.cls else none

/-- The highest-ranked READY job of tenant `t` among those that may be dispatched. -/
def Dev.best (d : Dev) (t : Nat) : Option Nat :=
  (d.stk.jobs.foldl (fun (b : Option (Nat × List Nat)) e => match e.2 with
    | some j =>
      if j.tenant ≠ t then b
      else match d.dispatchable j with
        | none => b
        | some c => match b with
          | some x => if rankLt (j.rank c) x.2 then some (e.1, j.rank c) else b
          | none => some (e.1, j.rank c)
    | none => b) none).map Prod.fst

/-- Free ACTIVE cores of tenant `t`, ascending: one that has joined the tenant is free once it holds ρ_T (R228, R509). -/
def Dev.freeCores (d : Dev) (t : Nat) : List Nat :=
  (d.coresOf t).filter (fun n => (d.core n).job.isNone && !(d.core n).held && !(d.core n).fencing && !(d.core n).tok.fresh)

/-- A descriptor takes effect at the queue's job boundary (R608); a moved ring starts empty. -/
def Queue.boundary (q : Queue) : Queue :=
  match q.next with
  | none => q
  | some e =>
    let sq := decide (e.sqBase ≠ q.desc.sqBase) || decide (e.sqLog ≠ q.desc.sqLog)
    let cq := decide (e.cqBase ≠ q.desc.cqBase) || decide (e.cqLog ≠ q.desc.cqLog)
    { q with
      desc := e, next := none
      head := if sq then 0 else q.head
      tail := if sq then 0 else q.tail
      cqWritten := if cq then 0 else q.cqWritten
      cqFreed := if cq then 0 else q.cqFreed }

/-- COUNT of a handle of the image; 0 for none. -/
def Prog.handleCount (p : Prog) (h : Option Nat) : Nat :=
  match h with
  | some h => (decodeHandle (nth 0 p.handles h)).count
  | none => 0

/-- Reason code of a failing dispatch check (R230, R231); 0 where it passes. -/
def Dev.dispatchCheck (d : Dev) (e : Desc) (j : Job) (p : Prog) : Nat :=
  if p.handleCount (some p.paramH) < j.prows + 1 || decide (p.handleCount p.kindH < e.kRows) then 0x15
  else if j.deadline ≤ d.now then 0x02
  else if e.strict && decide (j.deadline - d.now < p.ttfe) then 0x03
  else 0

/-- A core is given to a job: the handle table, the clearing on a change of tenant, the start state of the run (R461, R297, R528, R541,
R36, R556, R572). -/
def Core.assign (c : Core) (k i : Nat) (j : Job) (p : Prog) (prog n : Nat) : Core :=
  let sp := if c.spec.lastTenant = some j.tenant then c.spec
    else { c.spec with icache := [], bht := [], ras := [], hints := [], lastTenant := some j.tenant }
  let tbl := ((List.range 64).zip p.handles).foldl (fun m e => SMap.set 0 m e.1 e.2) []
  let c := { c with
    job := some k, idx := i, ember := none
    spec := { sp with eff := sp.ctl }
    haz := { c.haz with mode := c.haz.ctl }
    rows := { c.rows with handles := tbl } }
  c.startRun p j.tenant prog n

/-- The job goes to the cores `ns` (R228, R229, R235-R237). -/
def Dev.launch (d : Dev) (k : Nat) (j : Job) (u : Nat) (q : Queue) (b : Binding) (p : Prog) (ns : List Nat) (rsv : Bool) : Dev :=
  let sat := match j.measCtr with
    | some c => d.ctrGe c (BitVec.ofNat 64 j.measVal)
    | none => true
  let pres := j.presolveFlag && q.desc.presolve && !sat
  let d := d.updJob k (fun j => { j with
    st := if pres then .presolving else .running
    prog := b.prog, n := b.n, epoch := d.kiln.epoch, cores := ns, predicted := pres, loading := true, squashing := false
    delivered := false, measSat := false, accepted := false, start := none, emberFrom := none, desc := q.desc
    stopped := false, again := j.again || j.retried, outRsv := rsv, detached := j.detached || (d.tenant j.tenant).detach })
  let d := if rsv then { d with pcie := { d.pcie with outRsv := d.pcie.outRsv + 4160 } } else d
  let d := (ns.zip (List.range ns.length)).foldl (fun d e => d.updCore e.1 (fun c => c.assign k e.2 j p b.prog b.n)) d
  d.trace 0x20 0x01 (traceData u j.tag)

/-- Assign a core set to READY job `k` and make the dispatch check. -/
def Dev.assignSet (d : Dev) (k : Nat) (j : Job) (u : Nat) (q : Queue) (b : Binding) (p : Prog) : Dev :=
  let q' := q.boundary
  let free := d.freeCores j.tenant
  let rsv := j.hostSinks q'.desc
  if free.length < b.n || (rsv && decide (outTotal < d.pcie.outRsv + 64 * d.outWait + 4160)) then d
  else
    let d := (d.setQueue u (some q')).headWb u
    let code := d.dispatchCheck q'.desc j p
    if code ≠ 0 then d.expire k 0x04 code else d.launch k j u q' b p (free.take b.n) rsv

/-- The first READY job of tenant `t` that failed a check at fetch (R225). -/
def Dev.firstFailed (d : Dev) (t : Nat) : Option Nat :=
  (d.jobKeys (fun j => j.tenant == t && decide (j.st = .ready) && decide (j.code ≠ 0))).head?

/-- The Stoker's next action for the READY jobs of tenant `t`. -/
def Dev.dispatch (d : Dev) (t : Nat) : Dev :=
  if d.stk.fatal then d
  else match d.firstFailed t with
    | some k => d.expireDue k
    | none => match d.best t with
      | none => d
      | some k => match d.job k with
        | none => d
        | some j => match d.queue j.queue with
          | none => d
          | some q => match q.bind with
            | none => d
            | some b => match d.prog b.prog with
              | none => d
              | some p => d.assignSet k j j.queue q b p

/-! ### Loading (R232-R234, Table 5-7) -/

/-- Address of a kindling slot; 0 for none. -/
def Desc.slotAddr (e : Desc) (s : Nat) : Nat := if s = 0xFFFF then 0 else e.kBase + s * (e.kRows + e.prRows) * 512

/-- The job header. -/
def Job.header (j : Job) : List Byte :=
  toBytes j.entry.toNat 64 ++ toBytes j.queue 4 ++ toBytes j.epoch.toNat 4 ++ toBytes (j.desc.slotAddr j.kslot) 8 ++
    toBytes (j.desc.slotAddr j.knext) 8 ++ [BitVec.ofNat 8 (b2n j.predicted), BitVec.ofNat 8 j.n] ++ List.replicate 422 0

/-- Address and number of the parameter rows that a load brings (R232, R235). A pre-solving job without a kindling slot has none
to take predicted rows from: it loads its header alone (log 147). -/
def Job.paramSrc (j : Job) : Nat × Nat :=
  if j.predicted then (if j.kslot = 0xFFFF then (0, 0) else (j.desc.slotAddr j.kslot + 512 * j.desc.kRows, j.prows))
  else (j.param, j.prows)

/-- Address and number of the kindling rows (R233). -/
def Job.kindSrc (j : Job) : Nat × Nat := if j.kslot = 0xFFFF then (0, 0) else (j.desc.slotAddr j.kslot, j.desc.kRows)

/-- The bytes of an extent: from DRAM, or what host space holds there; and what is left of `host`. -/
def Dev.loadBytes (d : Dev) (s : Nat × Nat) (host : List Byte) : List Byte × List Byte :=
  let n := 512 * s.2
  if n = 0 then ([], host)
  else if inHost s.1 n then (fitTo n host, host.drop n)
  else (d.peek s.1 n, host)

/-- The load of a job reads host space. -/
def Job.loadsHost (j : Job) : Bool :=
  (decide (j.paramSrc.2 ≠ 0) && inHost j.paramSrc.1 1) || (decide (j.kindSrc.2 ≠ 0) && inHost j.kindSrc.1 1)

/-- The first poisoned flit that the load meets. -/
def Dev.loadPoison (d : Dev) (j : Job) : Option Nat :=
  match d.firstPoison j.paramSrc.1 (512 * j.paramSrc.2) with
  | some f => some f
  | none => d.firstPoison j.kindSrc.1 (512 * j.kindSrc.2)

/-- The reads of an extent of a load for tenant `t`: DRAM flits, or requests to host space. -/
def Dev.countLoad (t : Nat) (d : Dev) (s : Nat × Nat) : Dev :=
  if inHost s.1 1 then d.hostRead t s.1 (512 * s.2) else d.countRead s.1 (512 * s.2)

/-- Rows of a load from the first row of a handle on, through the DMA port of a core that does not run. -/
def Core.loadRows (c : Core) (h : HDesc) (bs : List Byte) : Core :=
  ((chunks 512 bs.length bs).zipIdx.foldl (fun c e => c.put h.mem (h.base + e.2) 0 e.1) c).dmaGranted
    ((span h.base (bs.length / 512)).map (fun r => (h.mem, r)))

/-- Rows of the load on one core (R232, R233). -/
def Core.load (c : Core) (p : Prog) (params kind : List Byte) : Core :=
  let c := c.loadRows (c.handle p.paramH) params
  match p.kindH with
  | some h => if kind.isEmpty then c else c.loadRows (c.handle h) kind
  | none => c

/-- No write to a versioned row that a squash let go on is in flight on the set (R473). -/
def Dev.squashed (d : Dev) (j : Job) : Bool := j.cores.all (fun n => !((d.core n).rows.drop && (d.core n).ops.any Op.versioned))

/-- Every row of the load of job `k` is resident: the entry point starts, unless a squash restart is due (R234, R551). -/
def Dev.loadDone (d : Dev) (k : Nat) (host : List Byte) : Dev :=
  match d.job k with
  | none => d
  | some j => match d.prog j.prog with
    | none => d
    | some p =>
      if !j.loading || j.fin.isSome || (j.loadsHost && !d.hostReads j.tenant j.detached) || !d.squashed j then d
      else match d.loadPoison j with
        | some f => d.consume j.lead 0x32 f
        | none =>
          let a := d.loadBytes j.paramSrc host
          let b := d.loadBytes j.kindSrc a.2
          let d := Dev.countLoad j.tenant (Dev.countLoad j.tenant d j.paramSrc) j.kindSrc
          let d := d.updCores j.cores (fun c => (c.squashStart p j).load p (j.header ++ a.1) b.1)
          let d := d.updJob k (fun j => { j with loading := false })
          if j.squashing then d
          else j.cores.foldl (fun d n => d.setClaim n (nth 0 p.claims 0)) (d.updCores j.cores (fun c => { c with run := true }))

/-- The restart after a squash issues its first instruction (R551, R550). -/
def Dev.restart (d : Dev) (k : Nat) : Dev :=
  match d.job k with
  | none => d
  | some j => match d.prog j.prog with
    | none => d
    | some p =>
      if !j.squashing || j.loading || j.fin.isSome then d
      else
        let d := d.updJob k (fun j => { j with squashing := false, start := some d.glb.time, emberFrom := some d.glb.time })
        j.cores.foldl (fun d n => d.setClaim n (nth 0 p.claims 0)) (d.updCores j.cores (fun c => { c with run := true }))

/-- The Stoker's watch reports that MEASCTR has reached MEASVAL (R544). -/
def Dev.deliver (d : Dev) (k : Nat) : Dev :=
  match d.job k with
  | some j => if j.st = .presolving && j.measSat && j.fin.isNone then d.updJob k (fun j => { j with delivered := true }) else d
  | none => d

/-- After a commit a core flips once no versioned write is in flight (R472). -/
def Core.flip (c : Core) : Core :=
  if !c.rows.flip || c.ops.any Op.versioned || c.dmaq.any Dma.versioned then c
  else
    { c with rows := { c.rows with
      sel := c.rows.shd.foldl (fun m e => if e.2 then SMap.upd false m e.1 (fun b => !b) else m) c.rows.sel
      shd := [], flip := false } }

/-! ### The ending steps of Table 1-2 -/

/-- No DMA write or remote transfer of the set is still draining, no row that has arrived is unwritten, and every counter operation that its cores issued is applied
(Table 1-2 step 4, R259). -/
def Dev.drained (d : Dev) (j : Job) : Bool :=
  j.cores.all (fun n => (d.core n).dmaq.isEmpty && (d.core n).rq.isEmpty && (d.core n).inb.isEmpty && !(d.syn.pend.any (fun p => p.src == 6 + n)))

/-- No ember by START plus time-to-first-ember (R62, R550). -/
def Dev.emberCheck (d : Dev) (k : Nat) : Dev :=
  match d.job k with
  | none => d
  | some j => match j.emberFrom, d.prog j.prog with
    | some t, some p =>
      if j.st ≠ .running || j.fin.isSome || decide (d.now < t.toNat + p.ttfe) then d
      else if (d.core j.lead).ember.isSome then d.updJob k (fun j => { j with emberFrom := none })
      else
        (d.updJob k (fun j => { j with emberFrom := none, emberLate := true })).updCore j.lead
          (·.flag (fun e => { e with emberLate := true }))
    | _, _ => d

/-- The comparator of a dispatched job fires (R29, R30). -/
def Dev.comparator (d : Dev) (k : Nat) : Dev :=
  match d.job k with
  | none => d
  | some j =>
    if !j.onCores || !d.expired j then d
    else if j.fin.isSome then d.updJob k (fun j => { j with fired := true })
    else d.quench k

/-- An uncorrectable error in row `r` of the ember store at step 5: FAULT, no rows (R49). -/
def Dev.emberUe (d : Dev) (k r : Nat) (j : Job) (f : JobEnd) : Dev :=
  ((d.record { cls := 3, source := 0, index := j.lead, code := 0x0013, info := r, job := j.forRec }).updCore j.lead
    (·.recordFault j 0x35 noAddr)).updJob k (fun j =>
      { j with fin := some { d.faultEnd j (faultDetail 0x35 noAddr) 0 with time := f.time, emberTime := f.emberTime } })

/-- The result rows are read through the DMA port of the lead core; an uncorrectable error there ends the job FAULT (R482-R484). -/
def Dev.readResult (d : Dev) (j : Job) (rows : List (Nat × Nat)) : Dev :=
  rows.foldl (fun d r => d.checkRead j.lead r.1 r.2 allWords false) (d.updCore j.lead (·.dmaGranted rows))

/-- A row whose bytes the spec does not state (log 1). -/
def Dev.freeRow (d : Dev) : List Byte := (List.range 64).flatMap (fun i => toBytes (Config.freeWord (d.free + i)).toNat 8)

/-- Step 5: the ember or result rows go to the result pointer (R46, R49, R352). -/
def Dev.resultRows (d : Dev) (k : Nat) (ue : Option Nat) : Dev :=
  match d.job k with
  | none => d
  | some j => match j.fin with
    | none => d
    | some f =>
      let d := d.stopJob k
      if f.written || j.halt.isSome || !j.onCores || !d.drained j then d
      else
        let c := d.core j.lead
        let bad := (ue.map (fun r => decide (r < f.ember))).getD false
        if bad then d.emberUe k (ue.getD 0) j f
        else
          let d := if f.ember ≠ 0 then d else d.readResult j f.rows
          if ((d.job k).bind Job.fin).any (fun g => decide (g.final ≠ f.final)) then d
          else
            let bs := if f.ember ≠ 0 then Memory.readN 0 c.estore 0 (512 * f.ember)
              else f.rows.flatMap (fun r => if c.readable r.1 r.2 allWords then c.spRow r.1 r.2 else d.freeRow)
            let d := { d with free := if f.rows.all (fun r => c.readable r.1 r.2 allWords) then d.free else d.free + 64 }
            let d := if bs.isEmpty then d else d.write j.tenant j.detached j.result bs
            d.updJob k (fun j => { j with fin := some { f with written := true } })

/-- END minus an earlier instant in 24 bits, and whether it saturates (R56). Where device time was stepped back and END lies
before the instant, the spec states no value: a free one (log 1). -/
def Dev.ofs24 (d : Dev) (fin : W64) (t : Option W64) : Nat × Bool × Dev :=
  match t with
  | none => (0, false, d)
  | some s =>
    let x := (fin - s).toInt
    if x < 0 then (let r := d.draw; ((Config.freeWord r.1).toNat % 2 ^ 24, false, r.2))
    else if 0xFFFFFF < x then (0xFFFFFF, true, d)
    else (x.toNat, false, d)

/-- STATUS of a completion (Table 1-3, R51): 0x07 for a job that was fenced and dispatched again, or fenced and squashed. -/
def Job.status (j : Job) (f : JobEnd) : BitVec 8 :=
  if j.retried && (j.again || j.squashed) then 0x07 else if j.squashed then 0x05 else f.final

/-- The completion entry (Table 5-3). -/
def Job.completion (j : Job) (f : JobEnd) (so eo : Nat) (sat ovf phase : Bool) : List Byte :=
  toBytes j.tag 4 ++ toBytes f.detail.toNat 4 ++ toBytes f.time.toNat 6 ++ [j.status f, f.final] ++ toBytes f.resid.toNat 4 ++
    toBytes so 3 ++ [BitVec.ofNat 8 j.epoch.toNat] ++ toBytes eo 3 ++
    [BitVec.ofNat 8 (cflags j.squashed j.retried j.overrun j.emberLate sat ovf)] ++ toBytes f.iter 3 ++
    [BitVec.ofNat 8 (j.n % 32 + 128 * b2n phase)]

/-- A core that leaves ACTIVE loses power: what stays is its state register, COR_FAULT, COR_SPERR, its remaps and what other blocks
hold for it (R580, R481). -/
def Core.powerDown (c : Core) (s : CoreState) : Core :=
  { st := s, prior := c.prior, cause := c.cause, persist := c.persist, testOk := c.testOk, remaps := c.remaps, spares := c.spares,
    fault := c.fault, sperr := c.sperr, tok := { stall := c.tok.stall }, dbg := { c.dbg with halted := false, skip := false },
    nextSeq := c.nextSeq, held := c.held }

/-- A core whose fence sequence is over becomes FENCED; its reservation and leases return (R509), and a promotion is owed. -/
def Dev.fenced (d : Dev) (n : Nat) : Dev :=
  let c := d.core n
  let d := { d with blw := { d.blw with returning := d.blw.returning + c.lease, rsvBack := d.blw.rsvBack + c.tok.rho } }
  let d := d.updCore n (fun c => { c.powerDown .fenced with testOk := false })
  { d with kiln := { d.kiln with promote := d.kiln.promote ++ [(n, c.alloc)] } }

/-- A core is released at the end of Table 1-2 (R516, R508, R554). -/
def Dev.releaseCore (d : Dev) (n : Nat) : Dev :=
  let d := d.updCore n (fun c =>
    let c := { c with rows := { c.rows with flip := c.rows.flip && !(c.ops.any Op.versioned) } }
    let c := c.flip
    { c with
      job := none, run := false, wait := .none, dmaq := [], rq := []
      rows := { c.rows with shd := [], flip := false, drop := false }
      inb := []
      dbg := { c.dbg with halted := false, skip := false }
      regs := { c.regs with budgOn := false, budgDue := false } })
  let c := d.core n
  if c.fencing then d.fenced n
  else
    let drop := match c.tok.lower with
      | some r => c.tok.rho - r
      | none => 0
    let d := { d with blw := { d.blw with returning := d.blw.returning + c.lease, rsvBack := d.blw.rsvBack + drop } }
    d.updCore n (fun c => { c with ops := [], tok := { c.tok with
      rho := c.tok.rho - drop, lower := none, claim := 0, please := 0, ilease := 0, iend := 0, preq := none, ireq := none, held := false } })

/-- Release the whole set of a job. -/
def Dev.releaseSet (d : Dev) (j : Job) : Dev := j.cores.foldl Dev.releaseCore d

/-- A program that a function reset has unloaded goes when no job runs it (R810). -/
def Dev.unloadIdle (d : Dev) : Dev :=
  if d.progs.any (fun e => (e.2.map Prog.dying).getD false) then
    { d with progs := SMap.keep (fun p o => !(o.map Prog.dying).getD false || decide (d.jobKeys (fun j => j.onCores && j.prog == p) ≠ [])) d.progs }
  else d

/-- A fenced job with RETRY returns to READY; its cores and its outbound reservation are released (R238, Table 15-4). Where its
queue is being destroyed it ends as any job that is not dispatched (R172). -/
def Dev.backToReady (d : Dev) (k : Nat) (j : Job) : Dev :=
  let d := if j.outRsv then { d with pcie := { d.pcie with outRsv := d.pcie.outRsv - 4160 } } else d
  let d := (d.updJob k (fun j => { j with
    st := .ready, fin := none, retried := true, stopped := false, cores := [], loading := false, squashing := false, start := none
    emberFrom := none, accepted := false, delivered := false, outRsv := false })).releaseSet j
  let d := d.unloadIdle
  d.expireDue k

/-- The queue after a completion write in ring slot or overflow slot (R211, R220, R221). -/
def Queue.completed (q : Queue) (ovf : Option Nat) : Queue :=
  let q := { q with infl := q.infl - 1 }
  match ovf with
  | some i => { q with ovfRes := q.ovfRes &&& ~~~(1#4 <<< i), ovfMask := q.ovfMask ||| (1#4 <<< i) }
  | none => { q with credits := q.credits - 1, cqWritten := q.cqWritten + 1 }

/-- PHASE of the next completion-ring entry (R211). -/
def Queue.phase (q : Queue) : Bool := q.cqWritten / q.desc.cqSize % 2 == 0

/-- Steps 6 to 9 of Table 1-2 for a job whose rows are written: the entry, SIGCTR, the interrupt or response, the release. -/
def Dev.finishJob (d : Dev) (k : Nat) (j : Job) (f : JobEnd) (u : Nat) (q : Queue) : Dev :=
  let s := d.ofs24 f.time j.start
  let e := s.2.2.ofs24 f.time f.emberTime
  let d := e.2.2
  let det := j.detached || (!j.onCores && (d.tenant j.tenant).detach)
  let phase := j.ovf.isSome || q.phase
  let ent := j.completion f s.1 e.1 (s.2.1 || e.2.1) j.ovf.isSome phase
  let at_ := match j.ovf with
    | some i => q.ovfl + 32 * i
    | none => q.desc.cqBase + 32 * (q.cqWritten % q.desc.cqSize)
  let d := if d.waitsOut j then { d with pcie := { d.pcie with outRsv := d.pcie.outRsv + 64 } } else d
  let d := (d.setQueue u (some (q.completed j.ovf))).headWb u
  let d := (d.setJob k none).write j.tenant det at_ ent
  let d := { d with stk := { d.stk with
    rejCnt := if f.final = 0x03 then satInc d.stk.rejCnt else d.stk.rejCnt
    expCnt := if f.final = 0x04 then satInc d.stk.expCnt else d.stk.expCnt } }
  let d := d.trace 0x20 0x03 (traceData ((j.status f).toNat + 256 * f.final.toNat) j.tag)
  let d := match j.sigCtr with
    | some c => if d.ownsCtr j.tenant c then d.synApply { ctr := c, op := .add 1, src := 2, needDma := 0, needRem := 0, fn := 0 } else d
    | none => d
  let d := if q.desc.irq && !j.noIrq && !det then d.raiseVec j.tenant q.desc.vector else d
  let d := match j.pst with
    | some p => d.pstResponse p.1 p.2 u j.ovf ent f.final.toNat f.time.toNat j.result
    | none => d
  (d.releaseSet j).unloadIdle

/-- A job of the same queue with an earlier end instant has not written its completion. The entry of a job that never reached a core
keeps the order of the end instants; Table 1-2 may let the entry of one that did go before (R212). -/
def Dev.endsBehind (d : Dev) (j : Job) (f : JobEnd) : Bool :=
  !j.onCores && decide (d.jobKeys (fun i => i.queue == j.queue && (i.fin.map (fun g => decide (g.time.toNat < f.time.toNat))).getD false) ≠ [])

/-- The completion step of job `k` (R47, R212, R221, R808). -/
def Dev.complete (d : Dev) (k : Nat) : Dev :=
  match d.job k with
  | none => d
  | some j => match j.fin with
    | none => d
    | some f =>
      let d := d.stopJob k
      let j := (d.job k).getD j
      if !f.written || j.halt.isSome || !d.drained j || d.endsBehind j f then d
      else if f.retry then d.backToReady k j
      else if d.waitsOut j && decide (outTotal < d.pcie.outRsv + 64 * (d.outAhead f.time.toNat j.seq + 1)) then d
      else match d.queue j.queue with
        | some q => d.finishJob k j f j.queue q
        | none => d

/-- The link has accepted bytes of the outbound buffer (R807, R840). -/
def Dev.outFree (d : Dev) (n : Nat) : Dev := { d with pcie := { d.pcie with outRsv := d.pcie.outRsv - n } }

end Sys2Proof.Machine
end

