-- ==== Sys2Proof/Machine/Crypto.lean ====
section
/-!
DEFINITION. Machine/Crypto.lean: SHA-384 and the verification of an ECDSA signature over P-384, as R122, R180 and R863 name them. The spec
names the algorithms and gives no more of them: their text is that of FIPS 180-4 and FIPS 186-4 (PRESUMED, log 141).
-/
namespace Sys2Proof.Machine

/-! ### SHA-384 -/

/-- Rotate a 64-bit word right. -/
def rotr64 (x n : Nat) : Nat := x >>> n ||| (x <<< (64 - n)) % 2 ^ 64

/-- Round constants 0-39. -/
def shaK0 : List Nat := [
  0x428a2f98d728ae22, 0x7137449123ef65cd, 0xb5c0fbcfec4d3b2f, 0xe9b5dba58189dbbc,
  0x3956c25bf348b538, 0x59f111f1b605d019, 0x923f82a4af194f9b, 0xab1c5ed5da6d8118,
  0xd807aa98a3030242, 0x12835b0145706fbe, 0x243185be4ee4b28c, 0x550c7dc3d5ffb4e2,
  0x72be5d74f27b896f, 0x80deb1fe3b1696b1, 0x9bdc06a725c71235, 0xc19bf174cf692694,
  0xe49b69c19ef14ad2, 0xefbe4786384f25e3, 0x0fc19dc68b8cd5b5, 0x240ca1cc77ac9c65,
  0x2de92c6f592b0275, 0x4a7484aa6ea6e483, 0x5cb0a9dcbd41fbd4, 0x76f988da831153b5,
  0x983e5152ee66dfab, 0xa831c66d2db43210, 0xb00327c898fb213f, 0xbf597fc7beef0ee4,
  0xc6e00bf33da88fc2, 0xd5a79147930aa725, 0x06ca6351e003826f, 0x142929670a0e6e70,
  0x27b70a8546d22ffc, 0x2e1b21385c26c926, 0x4d2c6dfc5ac42aed, 0x53380d139d95b3df,
  0x650a73548baf63de, 0x766a0abb3c77b2a8, 0x81c2c92e47edaee6, 0x92722c851482353b]
/-- Round constants 40-79. -/
def shaK1 : List Nat := [
  0xa2bfe8a14cf10364, 0xa81a664bbc423001, 0xc24b8b70d0f89791, 0xc76c51a30654be30,
  0xd192e819d6ef5218, 0xd69906245565a910, 0xf40e35855771202a, 0x106aa07032bbd1b8,
  0x19a4c116b8d2d0c8, 0x1e376c085141ab53, 0x2748774cdf8eeb99, 0x34b0bcb5e19b48a8,
  0x391c0cb3c5c95a63, 0x4ed8aa4ae3418acb, 0x5b9cca4f7763e373, 0x682e6ff3d6b2b8a3,
  0x748f82ee5defb2fc, 0x78a5636f43172f60, 0x84c87814a1f0ab72, 0x8cc702081a6439ec,
  0x90befffa23631e28, 0xa4506cebde82bde9, 0xbef9a3f7b2c67915, 0xc67178f2e372532b,
  0xca273eceea26619c, 0xd186b8c721c0c207, 0xeada7dd6cde0eb1e, 0xf57d4f7fee6ed178,
  0x06f067aa72176fba, 0x0a637dc5a2c898a6, 0x113f9804bef90dae, 0x1b710b35131c471b,
  0x28db77f523047d84, 0x32caab7b40c72493, 0x3c9ebe0a15c9bebc, 0x431d67c49c100d4c,
  0x4cc5d4becb3e42b6, 0x597f299cfc657e2a, 0x5fcb6fab3ad6faec, 0x6c44198c4a475817]

/-- Start value of the eight working words. -/
def shaInit : List Nat := [
  0xcbbb9d5dc1059ed8, 0x629a292a367cd507, 0x9159015a3070dd17, 0x152fecd8f70e5939,
  0x67332667ffc00b31, 0x8eb44a8768581511, 0xdb0c2e0d64f98fa7, 0x47b5481dbefa4fa4]

/-- The message schedule, newest word first: `n` more words. -/
def shaSchedule : Nat → List Nat → List Nat
  | 0, w => w
  | n + 1, w =>
    let x := nth 0 w 1
    let y := nth 0 w 14
    let s1 := rotr64 x 19 ^^^ rotr64 x 61 ^^^ (x >>> 6)
    let s0 := rotr64 y 1 ^^^ rotr64 y 8 ^^^ (y >>> 7)
    shaSchedule n ((s1 + nth 0 w 6 + s0 + nth 0 w 15) % 2 ^ 64 :: w)

/-- One round on the working words; `kw` is the sum of round constant and schedule word. -/
def shaRound (v : List Nat) (kw : Nat) : List Nat :=
  match v with
  | [a, b, c, d, e, f, g, h] =>
    let t1 := h + (rotr64 e 14 ^^^ rotr64 e 18 ^^^ rotr64 e 41) + ((e &&& f) ^^^ ((2 ^ 64 - 1 - e) &&& g)) + kw
    let t2 := (rotr64 a 28 ^^^ rotr64 a 34 ^^^ rotr64 a 39) + ((a &&& b) ^^^ (a &&& c) ^^^ (b &&& c))
    [(t1 + t2) % 2 ^ 64, a, b, c, (d + t1) % 2 ^ 64, e, f, g]
  | v => v

/-- One block of 128 bytes. -/
def shaBlock (v : List Nat) (block : List Byte) : List Nat :=
  let w0 := ((chunks 8 16 block).map ofBytesBE).reverse
  let w := (shaSchedule 64 w0).reverse
  let r := ((shaK0 ++ shaK1).zip w).foldl (fun v x => shaRound v (x.1 + x.2)) v
  (v.zip r).map (fun x => (x.1 + x.2) % 2 ^ 64)

/-- The padded message. -/
def shaPad (m : List Byte) : List Byte :=
  m ++ [0x80] ++ List.replicate ((111 + 128 - m.length % 128) % 128) 0 ++ toBytesBE (8 * m.length) 16

/-- SHA-384: 48 bytes. -/
def sha384 (m : List Byte) : List Byte :=
  let p := shaPad m
  (((chunks 128 (p.length / 128) p).foldl shaBlock shaInit).take 6).flatMap (fun x => toBytesBE x 8)

/-! ### P-384 -/

/-- The prime of the field. -/
def p384 : Nat := 2 ^ 384 - 2 ^ 128 - 2 ^ 96 + 2 ^ 32 - 1
/-- The order of the base point. -/
def p384Order : Nat := 0xffffffffffffffffffffffffffffffffffffffffffffffffc7634d81f4372ddf581a0db248b0a77aecec196accc52973
/-- The coefficient b of the curve y² = x³ - 3x + b. -/
def p384B : Nat := 0xb3312fa7e23ee7e4988e056be3f82d19181d9c6efe8141120314088f5013875ac656398d8a2ed19d2a85c8edd3ec2aef

/-- A point in Jacobian coordinates: (x / z², y / z³); z = 0 is the point at infinity. -/
structure CurvePoint where
  x : Nat
  y : Nat
  z : Nat

/-- The base point. -/
def p384Base : CurvePoint :=
  { x := 0xaa87ca22be8b05378eb1c71ef320ad746e1d3b628ba79b9859f741e082542a385502f25dbf55296c3a545e3872760ab7
    y := 0x3617de4a96262c6f5d9e98bf9292dc29f8f41dbd289a147ce9da3113b5f0b8c00a60b1ce1d7e819d7a431d7c90ea0e5f
    z := 1 }

/-- Subtraction in the field. -/
def subP (a b : Nat) : Nat := (a + (p384 - b % p384)) % p384
/-- Multiplication in the field. -/
def mulP (a b : Nat) : Nat := a * b % p384

/-- Doubling. -/
def CurvePoint.double (a : CurvePoint) : CurvePoint :=
  let d := mulP a.z a.z
  let g := mulP a.y a.y
  let b := mulP a.x g
  let e := 3 * mulP (subP a.x d) (a.x + d) % p384
  let x := subP (mulP e e) (8 * b)
  { x := x, y := subP (mulP e (subP (4 * b) x)) (8 * mulP g g), z := mulP (2 * a.y) a.z }

/-- Addition. -/
def CurvePoint.add (a b : CurvePoint) : CurvePoint :=
  if a.z = 0 then b
  else if b.z = 0 then a
  else
    let aa := mulP a.z a.z
    let bb := mulP b.z b.z
    let u := mulP a.x bb
    let s := mulP a.y (mulP b.z bb)
    let h := subP (mulP b.x aa) u
    let r := subP (mulP b.y (mulP a.z aa)) s
    if h = 0 then (if r = 0 then a.double else { x := 1, y := 1, z := 0 })
    else
      let hh := mulP h h
      let hhh := mulP h hh
      let v := mulP u hh
      let x := subP (subP (mulP r r) hhh) (2 * v)
      { x := x, y := subP (mulP r (subP v x)) (mulP s hhh), z := mulP h (mulP a.z b.z) }

/-- `i` · base + `k` · `q`, over the low `n` bits of both, added to 2ⁿ · `acc`. -/
def sumMul (i k : Nat) (q both : CurvePoint) : Nat → CurvePoint → CurvePoint
  | 0, acc => acc
  | n + 1, acc =>
    let acc := acc.double
    sumMul i k q both n (match i.testBit n, k.testBit n with
      | false, false => acc
      | true, false => acc.add p384Base
      | false, true => acc.add q
      | true, true => acc.add both)

/-- `a` to the power of the low `n` bits of `e`, modulo `m`, times `acc` to the power 2ⁿ. -/
def powMod (m a e : Nat) : Nat → Nat → Nat
  | 0, acc => acc
  | n + 1, acc => powMod m a e n (acc * acc % m * (if e.testBit n then a else 1) % m)

/-- A public key: an uncompressed point of the curve (0x04, X, Y). -/
def publicKey (bs : List Byte) : Option CurvePoint :=
  let x := ofBytesBE ((bs.drop 1).take 48)
  let y := ofBytesBE ((bs.drop 49).take 48)
  if bs.take 1 = [0x04] && bs.length == 97 && decide (x < p384) && decide (y < p384) &&
      decide (y * y % p384 = (x * x * x + (p384 - 3) * x + p384B) % p384) then
    some { x := x, y := y, z := 1 }
  else none

/-- The signature `sig`, r then s, of `m` verifies under the public key `key`: ECDSA over P-384 with SHA-384. -/
def ecdsaVerifies (key m sig : List Byte) : Bool :=
  let r := ofBytesBE (sig.take 48)
  let s := ofBytesBE ((sig.drop 48).take 48)
  match publicKey key with
  | none => false
  | some q =>
    if r = 0 || s = 0 || decide (p384Order ≤ r) || decide (p384Order ≤ s) then false
    else
      let w := powMod p384Order s (p384Order - 2) 384 1
      let c := sumMul (ofBytesBE (sha384 m) * w % p384Order) (r * w % p384Order) q (p384Base.add q) 384 { x := 1, y := 1, z := 0 }
      decide (c.z ≠ 0) && decide ((c.x * powMod p384 (mulP c.z c.z) (p384 - 2) 384 1) % p384 % p384Order = r)

end Sys2Proof.Machine
end

