-- ==== Sys2Proof/Machine/StoreOps.lean ====
section
/-!
DEFINITION. Machine/StoreOps.lean: the SPI NOR: boot header, firmware images, and the two-bank configuration store (03).
-/
namespace Sys2Proof.Machine

/-! ### CRC-32 (R131) -/

/-- One bit of the reflected CRC. -/
def crcBit (c : Nat) : Nat := if c % 2 = 1 then (c / 2) ^^^ 0xEDB88320 else c / 2
/-- One byte. -/
def crcByte (c : Nat) (b : Byte) : Nat :=
  crcBit (crcBit (crcBit (crcBit (crcBit (crcBit (crcBit (crcBit (c ^^^ b.toNat))))))))
/-- CRC-32 of IEEE 802.3. -/
def crc32 (bs : List Byte) : Nat := bs.foldl crcByte 0xFFFFFFFF ^^^ 0xFFFFFFFF

/-! ### Flash (R118) -/

/-- Bytes of the SPI NOR; an erased byte reads 0xFF. -/
def Dev.flashRead (d : Dev) (a n : Nat) : List Byte := Memory.readN 0xFF d.kiln.flash a n
/-- The read commands of the flash for extents (address, bytes): the ROM reads with 0x13, the firmware with 0xEC where the flash has SFDP,
else with 0x13 (R916). -/
def Dev.spiRead (d : Dev) (rom : Bool) (ext : List (Nat × Nat)) : Dev :=
  { d with out := d.out ++ ext.map (fun e => .spi (if rom || !Config.sfdp then 0x13 else 0xEC) e.1 e.2) }
/-- Erase the 64 KiB blocks of a region, one command 0xDC each (R916). -/
def Dev.flashErase (d : Dev) (a size : Nat) : Dev :=
  { d with
    kiln := { d.kiln with flash := Memory.clear d.kiln.flash a size }
    out := d.out ++ (List.range (size / 65536)).map (fun i => .spi 0xDC (a + 65536 * i) 65536) }
/-- The pages of 256 bytes that `n` bytes from address `a` meet: first address and bytes in each. -/
def flashPages (a n : Nat) : List (Nat × Nat) :=
  let lo := a / 256
  (List.range (cdiv (a + n) 256 - lo)).map (fun i =>
    let s := max a (256 * (lo + i))
    (s, min (a + n) (256 * (lo + i) + 256) - s))
/-- Program bytes, one command 0x12 for each page (R916). -/
def Dev.flashWrite (d : Dev) (a : Nat) (bs : List Byte) : Dev :=
  { d with
    kiln := { d.kiln with flash := Memory.writeL 0xFF d.kiln.flash a bs }
    out := d.out ++ (flashPages a bs.length).map (fun e => .spi 0x12 e.1 e.2) }
/-- Erase a region, program bytes at its start and read them back. -/
def Dev.flashProgram (d : Dev) (a size : Nat) (bs : List Byte) : Dev :=
  ((d.flashErase a size).flashWrite a bs).spiRead false (if bs.isEmpty then [] else [(a, bs.length)])

/-- Boot header: PREF and TRIAL; both 0 where it is invalid (R119, R120). -/
def Dev.bootHeader (d : Dev) : Bool × Bool :=
  let h := d.flashRead 0 12
  let pref := fieldAt h 6 1
  let trial := fieldAt h 7 1
  if h.take 4 = [0x50, 0x56, 0x43, 0x48] && fieldAt h 4 2 == 1 && fieldAt h 8 4 == crc32 (h.take 8) && decide (pref ≤ 1) &&
    decide (trial ≤ 1) then (pref == 1, trial == 1) else (false, false)

/-- Write the boot header. -/
def Dev.setBootHeader (d : Dev) (pref trial : Bool) : Dev :=
  let h : List Byte := [0x50, 0x56, 0x43, 0x48] ++ toBytes 1 2 ++ [BitVec.ofNat 8 (b2n pref), BitVec.ofNat 8 (b2n trial)]
  d.flashProgram 0 65536 (h ++ toBytes (crc32 h) 4)

/-! ### Firmware images (R121, R122) -/

/-- Address of an image slot. -/
def slotBase (b : Bool) : Nat := if b then 0x800000 else 0x100000
/-- Bytes of an image slot. -/
def slotSize : Nat := 7 * 2 ^ 20

/-- Payload length of an image header. -/
def imagePayload (h : List Byte) : Nat := fieldAt h 16 4

/-- A public key is one whose hash is in OTP and not revoked (R122). -/
def Fuses.trusts (f : Fuses) (key : List Byte) : Bool :=
  let h := ofBytesBE (sha384 key)
  (!f.revoked0 && h == f.keyHash0.toNat) || (!f.revoked1 && h == f.keyHash1.toNat)

/-- The image at the start of `bs` is valid (R122): what its header says, its key, its SVN and its signature over bytes 0-159 and the
payload. -/
def Fuses.imageValid (f : Fuses) (bs : List Byte) : Bool :=
  let len := imagePayload bs
  let key := (bs.drop 32).take 97
  decide (bs.take 4 = [0x50, 0x56, 0x43, 0x46]) && decide (256 + len ≤ bs.length) && fieldAt bs 4 2 == 1 && decide (1 ≤ len) &&
  decide (len ≤ 491520) && decide (fieldAt bs 20 4 < len) && ((bs.drop 24).take 8).all (· == 0) && ((bs.drop 129).take 31).all (· == 0) &&
  decide (f.svn.toNat ≤ fieldAt bs 12 4) && f.trusts key &&
  ecdsaVerifies key (bs.take 160 ++ (bs.drop 256).take len) ((bs.drop 160).take 96)

/-- What the device knows of an image. -/
def imageOf (bs : List Byte) : Image :=
  { build := BitVec.ofNat 32 (fieldAt bs 8 4), svn := BitVec.ofNat 32 (fieldAt bs 12 4), abiMinor := BitVec.ofNat 16 (fieldAt bs 6 2) }

/-- What a read of a slot takes of the flash: the header, and the payload of one that could be valid. -/
def Dev.slotExtents (d : Dev) (b : Bool) : List (Nat × Nat) :=
  let h := d.flashRead (slotBase b) 256
  let len := imagePayload h
  (slotBase b, 256) :: (if h.take 4 ≠ [0x50, 0x56, 0x43, 0x46] || decide (491520 < len) then [] else [(slotBase b + 256, len)])

/-- The valid image of a slot. -/
def Dev.slotImage (d : Dev) (b : Bool) : Option Image :=
  let bs := d.flashRead (slotBase b) (256 + 491520)
  if d.fuse.imageValid bs then some (imageOf bs) else none

/-! ### The configuration store (R130-R142) -/

/-- Address of a bank: A or B (true). -/
def bankBase (b : Bool) : Nat := if b then 0x20000 else 0x10000

/-- Sequence number and payload of a bank; none where it is invalid (R132). -/
def Dev.bank (d : Dev) (b : Bool) : Option (W32 × List Byte) :=
  let h := d.flashRead (bankBase b) 16
  let len := fieldAt h 8 4
  if h.take 4 ≠ [0x50, 0x56, 0x43, 0x53] || decide (65520 < len) then none
  else
    let p := d.flashRead (bankBase b + 16) len
    if fieldAt h 12 4 = crc32 (h.take 12 ++ p) then some (BitVec.ofNat 32 (fieldAt h 4 4), p) else none

/-- What a read of a bank takes of the flash: the header, and the payload of one that could be valid. -/
def Dev.bankExtents (d : Dev) (b : Bool) : List (Nat × Nat) :=
  let h := d.flashRead (bankBase b) 16
  let len := fieldAt h 8 4
  (bankBase b, 16) :: (if h.take 4 ≠ [0x50, 0x56, 0x43, 0x53] || decide (65520 < len) then [] else [(bankBase b + 16, len)])

/-- Erase a bank, program bytes 4 to the end, then the magic, and read the bank back (R140). -/
def Dev.writeBank (d : Dev) (b : Bool) (bs : List Byte) : Dev :=
  let d := ((d.flashErase (bankBase b) 65536).flashWrite (bankBase b + 4) (bs.drop 4)).flashWrite (bankBase b) (bs.take 4)
  d.spiRead false (d.bankExtents b)

/-- Sequence `a` is newer than `b` (R135). -/
def newer (a b : W32) : Bool := decide (0 < (a - b).toInt)

/-- The selected bank (R136): bank, sequence, payload. -/
def Dev.selected (d : Dev) : Option (Bool × W32 × List Byte) :=
  match d.bank false, d.bank true with
  | some a, some b => if newer b.1 a.1 then some (true, b) else some (false, a)
  | some a, none => some (false, a)
  | none, some b => some (true, b)
  | none, none => none

/-- Records of a payload (R133): type and data. `n` bounds their number. -/
def parseRecords : Nat → List Byte → List (Nat × List Byte)
  | 0, _ => []
  | n + 1, bs =>
    if bs.length < 4 then []
    else
      let len := fieldAt bs 2 2
      (fieldAt bs 0 2, (bs.drop 4).take len) :: parseRecords n (bs.drop (4 + cdiv len 4 * 4))

/-- One record as stored. -/
def recordBytes (r : Nat × List Byte) : List Byte :=
  toBytes r.1 2 ++ toBytes r.2.length 2 ++ fitTo (cdiv r.2.length 4 * 4) r.2

/-- Records of the selected bank. -/
def Dev.records (d : Dev) : List (Nat × List Byte) :=
  match d.selected with
  | some s => parseRecords 16384 s.2.2
  | none => []

/-- Data of a record. -/
def recordData (rs : List (Nat × List Byte)) (type : Nat) : Option (List Byte) := (rs.find? (fun r => r.1 == type)).map Prod.snd

/-- The records that a boot on defaults treats as absent (R184). -/
def bootRecords : List Nat := [0x0010, 0x0011, 0x0020, 0x0030]

/-- A record in force: the firmware that uses defaults treats those of `bootRecords` as absent until it writes them (R128, R184). -/
def Dev.record? (d : Dev) (type : Nat) : Option (List Byte) :=
  if d.glb.cfgDefault && bootRecords.contains type && !d.kiln.wrote.contains type then none else recordData d.records type

/-- The records with one replaced, added or removed (R178). -/
def putRecord (rs : List (Nat × List Byte)) (type : Nat) (data : Option (List Byte)) : List (Nat × List Byte) :=
  match data with
  | none => rs.filter (fun r => r.1 != type)
  | some b => if rs.any (fun r => r.1 == type) then rs.map (fun r => if r.1 == type then (type, b) else r) else rs ++ [(type, b)]

/-- Write the store with one record replaced, added or removed (R138-R142). `ok` says whether the flash takes the write; the
result is whether the write succeeded. A failed write leaves the target bank invalid and is recorded. -/
def Dev.storeRecord (d : Dev) (type : Nat) (data : Option (List Byte)) (ok : Bool) : Bool × Dev :=
  let sel := d.selected
  let target := match sel with
    | some s => !s.1
    | none => false
  let seq : W32 := match sel with
    | some s => s.2.1 + 1
    | none => 1
  let p := (putRecord d.records type data).flatMap recordBytes
  if ok && decide (p.length ≤ 65520) then
    let h : List Byte := [0x50, 0x56, 0x43, 0x53] ++ toBytes seq.toNat 4 ++ toBytes p.length 4
    let d := d.writeBank target (h ++ toBytes (crc32 (h ++ p)) 4 ++ p)
    (true, { d with
      glb := { d.glb with cfgBank := if target then 1 else 0, cfgSeq := seq }
      kiln := { d.kiln with wrote := if d.glb.cfgDefault && !d.kiln.wrote.contains type then type :: d.kiln.wrote else d.kiln.wrote } })
  else
    (false, (d.flashProgram (bankBase target) 65536 []).record { cls := 5, source := 3, code := 0x0032, info := type })

/-- Device settings as stored (R183): key and value. -/
def parseSettings : Nat → List Byte → List (Nat × List Byte)
  | 0, _ => []
  | n + 1, bs =>
    if bs.length < 4 then []
    else
      let len := fieldAt bs 2 2
      (fieldAt bs 0 2, (bs.drop 4).take len) :: parseSettings n (bs.drop (4 + cdiv len 4 * 4))

/-- Store one 4-byte device setting (R182). -/
def Dev.storeSetting (d : Dev) (key value : Nat) (ok : Bool) : Bool × Dev :=
  let rs := parseSettings 4096 ((recordData d.records 0x0001).getD [])
  d.storeRecord 0x0001 (some ((putRecord rs key (some (toBytes value 4))).flatMap recordBytes)) ok

end Sys2Proof.Machine
end

