-- ==== Sys2Proof/Machine/FenceOps.lean ====
section
/-!
DEFINITION. Machine/FenceOps.lean: cores that change their state: reservations, rebinds, ashing, the fence and the promotion, the
fence map, drain-switch changes, row remaps, self-tests (11, 12, 15, 16).
-/
namespace Sys2Proof.Machine

/-! ### Deferred commands -/

/-- Mailbox statuses (Table 4-3). -/
def stOk : Nat := 0
def stDeferred : Nat := 1
def stBusy : Nat := 2
def stInvalid : Nat := 3
def stUnsupported : Nat := 4
def stDenied : Nat := 5
def stNoResource : Nat := 6
def stFault : Nat := 7

/-- Remove the first entry that passes. -/
def removeFirst (p : Deferred → Bool) : List Deferred → List Deferred
  | [] => []
  | x :: xs => if p x then xs else x :: removeFirst p xs

/-- A response (Table 4-2). -/
def response (op status rflags : Nat) (seq : W32) (payload : List Byte) (detail : Nat) (epoch : W32) : List Byte :=
  toBytes op 2 ++ [BitVec.ofNat 8 status, BitVec.ofNat 8 rflags] ++ toBytes seq.toNat 4 ++ toBytes payload.length 2 ++
    toBytes detail 2 ++ toBytes epoch.toNat 4 ++ payload

/-- DETAIL of an asynchronous response: INVALID ends only LOAD_PROGRAM, and points at its ADDR (R151, R175, R561). -/
def asyncDetail (status : Nat) : Nat := if status = stInvalid then 16 else 0xFFFF

/-- The operation of a deferred command has finished: its asynchronous response is queued behind those of the commands that finished
before (R159, R161); that of a reset function is discarded (R810). -/
def Dev.queueAsync (d : Dev) (x : Deferred) (r : Nat × List Byte) : Dev :=
  if x.lost then d
  else d.updMbox x.fn (fun m => { m with
    queue := m.queue ++ [response x.opcode r.1 1 x.seq (if r.1 = stOk then r.2 else []) (asyncDetail r.1) 0] })

/-- The operation of the first deferred command that passes `p` has finished, with a status and a payload (R162). -/
def Dev.finishDef (d : Dev) (p : DefOp → Bool) (status : Nat) (payload : List Byte) : Dev :=
  match d.kiln.deferred.find? (fun x => p x.op) with
  | none => d
  | some x =>
    ({ d with kiln := { d.kiln with deferred := removeFirst (fun x => p x.op) d.kiln.deferred } }).queueAsync x (status, payload)

/-- How many cores are in a state. -/
def Dev.countSt (d : Dev) (s : CoreState) : Nat := (allCores.filter (fun n => decide ((d.core n).st = s))).length

/-- The lowest BANKED core (R583). -/
def Dev.lowestBanked (d : Dev) : Option Nat := allCores.find? (fun n => decide ((d.core n).st = .banked))

/-! ### Reservations (R504, R507-R509) -/

/-- The reservation of core `n` follows the level `r` of its tenant: a raise waits for the float, a lower level returns at once on
an idle core and with the release of a running job on another. -/
def Dev.reserveCore (r : Nat) (d : Dev) (n : Nat) : Dev :=
  let c := d.core n
  let set (f : CoreTok → CoreTok) : Dev := d.updCore n (fun c => { c with tok := f c.tok })
  if c.tok.rho < r then set (fun t => { t with raise := some r, lower := none })
  else if r < c.tok.rho && c.job.isSome then set (fun t => { t with raise := none, lower := some r })
  else
    let d := set (fun t => { t with rho := r, raise := none, lower := none, fresh := false })
    { d with blw := { d.blw with rsvBack := d.blw.rsvBack + (c.tok.rho - r) } }

/-- Every core of tenant `t` follows ρ_T. -/
def Dev.reserve (d : Dev) (t : Nat) : Dev := (d.coresOf t).foldl (Dev.reserveCore (d.rhoOf t)) d

/-! ### Bindings (R595-R597) -/

/-- N' of a binding (R595). -/
def Binding.fit (b : Binding) (p : Prog) (c : Nat) : Nat := if b.nreq = 0 then min p.nMax c else min b.nreq c

/-- c_T as bindings count it: a fenced core whose promotion is owed counts on, since a promotion leaves c_T unchanged (R594). -/
def Dev.coreCount (d : Dev) (t : Nat) : Nat :=
  (d.coresOf t).length + (d.kiln.promote.filter (fun p => p.2 == some t)).length

/-- Start a drain-switch change over the queues `us` (R609). -/
def Dev.startDrain (d : Dev) (c : Change) (opcode : Nat) (seq : W32) (fn : Option Nat) (persist : Bool) (us : List Nat) : Dev :=
  { d with kiln := { d.kiln with
    drain := some { change := c, opcode := opcode, seq := seq, fn := fn, persist := persist, queues := us, applying := false } }
    }.headWbAll

/-- A rebind joins the change in STATE 1, waits for the end of one in STATE 2, or starts a change of its own (R596, R614). -/
def Dev.joinRebind (d : Dev) (u : Nat) : Dev :=
  match d.kiln.drain with
  | none => d.startDrain .rebind 0 0 none false [u]
  | some c =>
    if c.applying then { d with kiln := { d.kiln with rebinds := d.kiln.rebinds ++ [u] } }
    else if c.queues.contains u then d
    else { d with kiln := { d.kiln with drain := some { c with queues := c.queues ++ [u] } } }.headWbAll

/-- Recompute the binding of queue `u`: removed below NMIN, else rebound, at once (`inl`, within a change) or by a change. -/
def Dev.refit (inl : Bool) (d : Dev) (u : Nat) : Dev :=
  match d.queue u with
  | none => d
  | some q => match q.bind with
    | none => d
    | some b => match d.prog b.prog with
      | none => d
      | some p =>
        let n := b.fit p (d.coreCount q.tenant)
        if n < p.nMin then
          ((d.updQueue u (fun q => { q with bind := none })).record
            { cls := 7, source := 3, code := 0x0021, info := place n 0 5 + place b.prog 32 32 }).headWb u
        else if n = b.n then d
        else if inl then d.updQueue u (fun q => { q with bind := some { b with n := n } })
        else d.joinRebind u

/-- The queues of tenant `t`. -/
def Dev.queuesOf (d : Dev) (t : Nat) : List Nat :=
  d.stk.queues.filterMap (fun e => match e.2 with
    | some q => if q.tenant = t then some e.1 else none
    | none => none)

/-- c_T has changed: recompute every binding of tenant `t`, then its reservation (R595, R504). -/
def Dev.refitTenant (d : Dev) (inl : Bool) (t : Nat) : Dev := ((d.queuesOf t).foldl (Dev.refit inl) d).reserve t

/-! ### Cores that become ACTIVE or change hands (R581, R632-R635) -/

/-- Ashing (Table 16-3): everything of a tenant is cleared; `COR_EVT`, `COR_FAULT`, `COR_SPERR`, `COR_STATE` and the remaps stay. -/
def Core.ash (c : Core) : Core :=
  { c with
    rows := {}
    tag := none
    spec := { ctl := c.spec.ctl, eff := c.spec.eff }
    sp := []
    ecc := []
    estore := []
    ember := none
    banks := []
    regs := { c.regs with x := [], f := [], p := [], v := [] } }

/-- A core powers up as an ashed ACTIVE core of tenant `t`: every register of its window is at its reset value but those that stay
powered (R580, R581). -/
def Core.activate (c : Core) (t : Nat) : Core := { (c.powerDown .active).ash with alloc := some t }

/-- Core `n` becomes ACTIVE for tenant `t` (R583, R592, R626). -/
def Dev.activate (t : Nat) (d : Dev) (n : Nat) : Dev :=
  d.updCore n (fun c => let c := c.activate t; { c with tok := { c.tok with fresh := true } })

/-- An idle ACTIVE core becomes BANKED; its reservation returns (R583, R508). -/
def Dev.bankCore (d : Dev) (n : Nat) : Dev :=
  let c := d.core n
  let d := { d with blw := { d.blw with returning := d.blw.returning + c.lease, rsvBack := d.blw.rsvBack + c.tok.rho } }
  d.updCore n (fun c => c.powerDown .banked)

/-- An idle ACTIVE core moves to tenant `t`: it is ashed and gives up its reservation (R632). -/
def Dev.moveCore (t : Nat) (d : Dev) (n : Nat) : Dev :=
  let d := { d with blw := { d.blw with rsvBack := d.blw.rsvBack + (d.core n).tok.rho } }
  d.updCore n (fun c => { c.ash with alloc := some t, tok := { c.tok with rho := 0, raise := none, lower := none, fresh := true } })

/-! ### The fence map (R604-R606, Table 15-6) -/

/-- Entries of a fence map of this device: core and cause. -/
def parseMap (dev : Nat) (bs : List Byte) : List (Nat × Nat) :=
  if fieldAt bs 0 8 = dev then
    (List.range ((bs.length - 8) / 4)).map (fun i => (fieldAt bs (8 + 4 * i) 1, fieldAt bs (9 + 4 * i) 1))
  else []

/-- The stored map. -/
def Dev.fenceMap (d : Dev) : List (Nat × Nat) := parseMap d.fuse.devid.toNat ((d.record? 0x0011).getD [])

/-- Write the map. -/
def Dev.storeMap (d : Dev) (es : List (Nat × Nat)) (ok : Bool) : Bool × Dev :=
  d.storeRecord 0x0011 (some (toBytes d.fuse.devid.toNat 8 ++
    es.flatMap (fun e => [BitVec.ofNat 8 e.1, BitVec.ofNat 8 e.2, 0, 0]))) ok

/-- Add the fence of core `n` to the map (R587). -/
def Dev.persistFence (d : Dev) (n : Nat) (ok : Bool) : Bool × Dev :=
  let r := d.storeMap (d.fenceMap.filter (fun e => e.1 != n) ++ [(n, (d.core n).cause.toNat)]) ok
  (r.1, r.2.updCore n (fun c => { c with persist := c.persist || r.1 }))

/-- Remove core `n` from the map (R604). -/
def Dev.unpersist (d : Dev) (n : Nat) (ok : Bool) : Bool × Dev :=
  let r := d.storeMap (d.fenceMap.filter (fun e => e.1 != n)) ok
  (r.1, r.2.updCore n (fun c => { c with persist := c.persist && !r.1 }))

/-! ### Fences (R584-R591) -/

/-- The record of a fence. -/
def Dev.fenceRecord (d : Dev) (n cause : Nat) : Dev :=
  d.record { cls := 4, source := 0, index := n, code := 0x0020, info := cause }

/-- What the failing core has not injected yet is dropped, sync operations included (Table 15-4). -/
def Dev.dropCore (d : Dev) (n : Nat) : Dev :=
  let d := d.updCore n (fun c => { c with
    dmaDone := c.dmaDone + c.dmaq.length, remDone := c.remDone + c.rq.length, dmaq := [], rq := [] })
  { d with syn := { d.syn with pend := d.syn.pend.filter (fun p => p.src != 6 + n) } }

/-- The fence of the job on a failing core (R589, R590, R238). -/
def Dev.fenceJob (d : Dev) (n k : Nat) (j : Job) : Dev :=
  let d := if j.halt.isSome then (d.updJob k (fun j => { j with halt := none })).markHalt j false else d
  if j.fin.isSome then d
  else if j.fired || decide (j.deadline ≤ d.now) then d.quench k
  else
    let ttfe : Int := ((d.prog j.prog).map Prog.ttfe).getD 0
    let f := d.faultEnd j (faultDetail 0x50 noAddr) (d.core n).idx
    if j.retryFlag && decide (ttfe ≤ d.slack j.deadline) then d.endJob k { f with retry := true }
    else (d.updCore n (·.recordFault j 0x50 noAddr)).endJob k f

/-- The fence sequence starts on ACTIVE core `n` (Table 15-4). -/
def Dev.fence (d : Dev) (n cause : Nat) : Dev :=
  let c := d.core n
  if c.st ≠ .active || c.fencing then d
  else
    let d := d.updCore n (fun c => { c with fencing := true, cause := BitVec.ofNat 3 cause })
    let d := (d.trace n 0x09 cause).fenceRecord n cause
    match d.coreJob n with
    | some (k, j) => (d.fenceJob n k j).dropCore n
    | none => d.fenced n

/-- A core that holds no job becomes FENCED at once (R586, R593, R601). -/
def Dev.fencePlain (d : Dev) (n cause : Nat) : Dev :=
  (d.updCore n (fun c => { c.powerDown .fenced with cause := BitVec.ofNat 3 cause, testOk := false })).fenceRecord n cause

/-! ### Promotion (R592-R594) -/

/-- A deferred FENCE_CORE of core `n`, and its PERSIST flag. -/
def Dev.fenceCmd (d : Dev) (n : Nat) : Option Bool :=
  d.kiln.deferred.findSome? (fun x => match x.op with
    | .fence c p => if c = n then some p else none
    | _ => none)

/-- The promotion owed for core `n` ends with spare `sp`: the fence is persisted and FENCE_CORE is answered. -/
def Dev.promoteEnd (d : Dev) (n : Nat) (sp : Option Nat) (store : Bool) : Dev :=
  let d := { d with kiln := { d.kiln with promote := d.kiln.promote.tail } }
  let r := if (d.core n).cause ≠ 1 || d.fenceCmd n = some true then d.persistFence n store else (true, d)
  r.2.finishDef (fun o => match o with
    | .fence c _ => decide (c = n)
    | _ => false) (if r.1 then stOk else stFault)
    [BitVec.ofNat 8 n, BitVec.ofNat 8 (sp.getD 0xFF), BitVec.ofNat 8 (d.countSt .active), 0]

/-- The core to promote: the lowest BANKED one, while ACTIVE is below A* (R582, R592). -/
def Dev.spareCore (d : Dev) : Option Nat := if d.countSt .active < d.kiln.target then d.lowestBanked else none

/-- A spare that fails its test is FENCED and the fence persisted (R593, R587). -/
def Dev.spareFails (d : Dev) (b : Nat) (store : Bool) : Dev := ((d.fencePlain b 7).persistFence b store).2

/-- ACTIVE is below A* with no promotion owed to a fence, and a core has become BANKED since: it goes to the tenant of the oldest
fenced core that found no spare, else to tenant 0 (R582, R592, R626). -/
def Dev.latePromotion (d : Dev) (pass store : Bool) : Dev :=
  match d.spareCore with
  | none => d
  | some b =>
    if pass then
      let t := d.kiln.owed.headD 0
      (({ d with kiln := { d.kiln with owed := d.kiln.owed.tail } }).activate t b).refitTenant false t
    else d.spareFails b store

/-- The oldest promotion owed: the lowest BANKED core is tested; it takes the place of the fenced core where it passes. -/
def Dev.promotion (d : Dev) (pass store : Bool) : Dev :=
  if d.kiln.fw ≠ .fw then d
  else match d.kiln.promote with
  | [] => d.latePromotion pass store
  | (n, t) :: _ =>
    let t := t.getD 0
    match d.spareCore with
      | some b =>
        if pass then ((d.activate t b).promoteEnd n (some b) store).refitTenant false t else d.spareFails b store
      | none =>
        let short := decide (d.countSt .active < d.kiln.target)
        let d := d.promoteEnd n none store
        ({ d with kiln := { d.kiln with owed := if short then d.kiln.owed ++ [t] else d.kiln.owed } }).refitTenant false t

/-! ### The queues that a drain-switch change affects (R608, R609) -/

/-- Every queue. -/
def Dev.allQueues (d : Dev) : List Nat := d.stk.queues.map Prod.fst

/-- How many BANKED cores an ACTIVE_CORES value `v` makes ACTIVE, and the cores that it takes out of ACTIVE (R582, R583). The cores that
owed promotions will bring are left to them. -/
def Dev.activeDelta (d : Dev) (v : Nat) : List Nat × Nat :=
  let act := d.activeCores
  let want := min v (18 - d.countSt .fenced - d.countSt .maint)
  (act.drop want, min (want - act.length - d.kiln.promote.length) (d.countSt .banked))

/-- Tenants whose core count an ACTIVE_CORES value changes. -/
def Dev.activeTenants (d : Dev) (v : Nat) : List Nat :=
  let x := d.activeDelta v
  ((x.1.filterMap (fun n => (d.core n).alloc)) ++ (if x.2 = 0 then [] else [0])).eraseDups

/-- The queues that a change affects as the device stands (Table 15-7). -/
def Dev.affected (d : Dev) : Change → List Nat
  | .pool _ => d.allQueues
  | .memEcc _ => d.allQueues
  | .activeCores v => (d.activeTenants v).flatMap d.queuesOf
  | .coreReturn _ => d.queuesOf 0
  | .tenantCreate _ _ _ _ _ _ _ _ _ _ => d.queuesOf 0
  | .tenantDestroy t => d.queuesOf t ++ d.queuesOf 0
  | .rebind => []

/-- Jobs of tenant `t` are held. -/
def Dev.tenantBusy (d : Dev) (t : Nat) : Bool := d.jobKeys (fun j => j.tenant == t) ≠ []

/-- Step 3 of R609 is not complete: a dispatched job of an affected queue has not ended, or, where the change destroys a tenant, a job of
that tenant (R625). -/
def Dev.drainBusy (d : Dev) (c : Drain) : Bool :=
  d.jobKeys (fun j => c.queues.contains j.queue && j.onCores) ≠ [] ||
  (match c.change with
    | .tenantDestroy t => d.tenantBusy t
    | _ => false)

/-- The change of the pool size. -/
def Change.isPool : Change → Bool
  | .pool _ => true
  | _ => false

/-- A pool change whose step 3 is complete and that is not yet applied stops new leases (R521). -/
def Dev.poolStop (d : Dev) : Bool := d.kiln.drain.any (fun c => c.change.isPool && !d.drainBusy c)

/-- Queues that the change in progress affects by now join those that it holds: one that has been created since (R608), or one of a tenant
that it has come to touch. -/
def Dev.widenDrain (d : Dev) : Dev :=
  match d.kiln.drain with
  | none => d
  | some c =>
    let more := (d.affected c.change).filter (fun u => !c.queues.contains u)
    if more.isEmpty then d
    else { d with kiln := { d.kiln with drain := some { c with queues := c.queues ++ more } } }.headWbAll

/-! ### Row remaps (R487-R496) -/

/-- Key of a spare row. -/
def spareKey (mem bank k : Nat) : Nat := mem * 64 + bank * 8 + k

/-- The lowest unused spare of a bank. -/
def Core.freeSpare (c : Core) (mem bank : Nat) : Option Nat := firstWith (fun k => !SMap.get false c.spares (spareKey mem bank k)) 8

/-- Unused spares of a bank. -/
def Core.sparesLeft (c : Core) (mem bank : Nat) : Nat := ((List.range 8).filter (fun k => !SMap.get false c.spares (spareKey mem bank k))).length

/-- Logical row `row` moves to spare `k` of its bank (R487, R492). -/
def Core.useSpare (c : Core) (mem row k : Nat) : Core :=
  { c with remaps := SMap.set 0 c.remaps (rowKey mem row) (k + 1), spares := SMap.set false c.spares (spareKey mem (bankOf row) k) true }

/-- An entry of record 0x0010 (Table 11-6). -/
def remapEntry (n mem row k : Nat) : List Byte := [BitVec.ofNat 8 n, BitVec.ofNat 8 mem] ++ toBytes (row + place k 10 3) 2

/-- Append an entry to record 0x0010 (R494, R496). -/
def Dev.storeRemap (d : Dev) (n mem row k : Nat) (ok : Bool) : Bool × Dev :=
  let old := (d.record? 0x0010).getD []
  let es := if fieldAt old 0 8 = d.fuse.devid.toNat then old.drop 8 else []
  d.storeRecord 0x0010 (some (toBytes d.fuse.devid.toNat 8 ++ es ++ remapEntry n mem row k)) ok

/-- The spare row is assigned and zeroed and the residency tag made invalid (R489 steps 3 and 4). -/
def Dev.assignSpare (d : Dev) (n mem row k : Nat) : Dev :=
  d.updCore n (fun c => { (c.useSpare mem row k).spZero mem row 1 with tag := none })

/-- A remap still waits on core `n`. -/
def Dev.remapWaits (d : Dev) (n : Nat) : Bool :=
  d.kiln.remap.any (fun r => r.1 == n) || d.kiln.deferred.any (fun x => match x.op with
    | .remap c _ _ _ => decide (c = n)
    | _ => false)

/-- Dispatch to core `n` resumes once no remap waits on it. -/
def Dev.unhold (d : Dev) (n : Nat) : Dev := d.updCore n (fun c => { c with held := d.remapWaits n })

/-- The remap that ROW_REMAP asked for on idle core `n` (R489-R492). -/
def Dev.remapCmd (d : Dev) (n mem row : Nat) (persist store : Bool) : Dev :=
  let mine (o : DefOp) : Bool := decide (o = .remap n mem row persist)
  match (d.core n).freeSpare mem (bankOf row) with
  | none => (d.finishDef mine stNoResource []).unhold n
  | some k =>
    let d := d.assignSpare n mem row k
    let r := if persist then d.storeRemap n mem row k store else (true, d)
    let left := (r.2.core n).sparesLeft mem (bankOf row)
    (r.2.finishDef mine (if r.1 then stOk else stFault) (toBytes (bankOf row * 8 + k) 2 ++ [BitVec.ofNat 8 left, 0])).unhold n

/-- The remap after an uncorrectable error on idle core `n` (R493); with no spare left an ACTIVE core is fenced (R584 cause 0x4). A core in
another state has no such transition (Table 15-2): the remap waits until it is ACTIVE again. -/
def Dev.remapUe (d : Dev) (n mem row : Nat) (store : Bool) : Dev :=
  if (d.core n).st ≠ .active && ((d.core n).freeSpare mem (bankOf row)).isNone then d else
  let d := { d with kiln := { d.kiln with remap := d.kiln.remap.erase (n, mem, row) } }
  match (d.core n).freeSpare mem (bankOf row) with
  | none => (d.fence n 4).unhold n
  | some k => ((d.assignSpare n mem row k).storeRemap n mem row k store).2.unhold n

/-- The oldest remap that waits on core `n` is applied once no job runs there. -/
def Dev.remapApply (d : Dev) (n : Nat) (store : Bool) : Dev :=
  if (d.core n).job.isSome || d.kiln.fw ≠ .fw then d
  else match d.kiln.remap.find? (fun r => r.1 == n) with
    | some r => d.remapUe n r.2.1 r.2.2 store
    | none => match d.kiln.deferred.findSome? (fun x => match x.op with
        | .remap c m r p => if c = n then some (m, r, p) else none
        | _ => none) with
      | some r => d.remapCmd n r.1 r.2.1 r.2.2 store
      | none => d

/-! ### Self-tests (R598-R602) -/

/-- A self-test of core `n` ends: the lease returns, the core goes back to its prior state or is fenced. -/
def Dev.testEnd (d : Dev) (n : Nat) (pass : Bool) (sig : W32) (store : Bool) : Dev :=
  let c := d.core n
  match d.kiln.deferred.findSome? (fun x => match x.op with
      | .maint k t => if k = n then some t else none
      | _ => none) with
  | none => d
  | some test =>
    if c.st ≠ .maint then d
    else
      let d := { d with blw := { d.blw with test := d.blw.test - 2, returning := d.blw.returning + 2 } }
      let d := d.updCore n (fun c => { c.powerDown c.prior with
        testOk := decide (c.prior = .fenced) && decide (test = 0) && pass })
      let r := if c.prior = .banked && !pass then (d.fencePlain n 7).persistFence n store else (true, d)
      r.2.finishDef (fun o => decide (o = .maint n test)) (if r.1 then stOk else stFault)
        ([BitVec.ofNat 8 n, BitVec.ofNat 8 (b2n pass), 0, 0] ++ toBytes sig.toNat 4)

/-! ### Queue destruction (R172) -/

/-- A queue being destroyed goes once its last running job has completed. -/
def Dev.queueGone (d : Dev) (u : Nat) : Dev :=
  match d.queue u with
  | some q =>
    if q.dying && decide (q.infl = 0) then
      ((d.setQueue u none).reserve q.tenant).finishDef (fun o => decide (o = .destroyQueue u)) stOk []
    else d
  | none => d

end Sys2Proof.Machine
end

