-- ==== Sys2Proof/Machine/LeaseOps.lean ====
section
/-!
DEFINITION. Machine/LeaseOps.lean: the Bellows arbiter: leases and raises of a reservation, their grant and their return (12).
-/
namespace Sys2Proof.Machine

/-! ### Leases (R507, R512-R518) -/

/-- A reservation raise waits on some core. -/
def Dev.raisePending (d : Dev) : Option Nat := allCores.find? (fun n => (d.core n).tok.raise.isSome)

/-- Lease requests: (FCLK cycle of the request, core, instruction lease, half-tokens). -/
def Dev.leaseReqs (d : Dev) : List (Nat × Nat × Bool × Nat) :=
  allCores.flatMap fun n =>
    let t := (d.core n).tok
    (t.preq.map (fun r => (r.2, n, false, r.1))).toList ++ (t.ireq.map (fun r => (r.2, n, true, r.1))).toList

/-- The request that arrived first; ties go to the lower core. -/
def Dev.firstReq (d : Dev) : Option (Nat × Nat × Bool × Nat) :=
  d.leaseReqs.foldl (fun b r => match b with
    | some x => if r.1 < x.1 then some r else some x
    | none => some r) none

/-- LEASECAP in force: it holds the thermal cap (R522, R931). -/
def Dev.leaseCap (d : Dev) : Nat := d.blw.leaseCap

/-- The arbiter grants the first lease request, when it is core `n`'s and the float and LEASECAP cover it (R510, R517, R518). It looks at the requests of
earlier FCLK cycles: those of one cycle then stand in the order of R517. -/
def Dev.leaseGrant (d : Dev) (n : Nat) : Dev :=
  match d.firstReq with
  | some (o, m, isI, a) =>
    let c := d.core n
    if m ≠ n || decide (d.fno ≤ o) || d.raisePending.isSome || d.poolStop || decide (d.float < a) || decide (d.leaseCap < d.leased + a) ||
      decide (3 < c.tok.rho + c.lease + a) then d
    else
      let d := d.updCore n (fun c => { c with tok :=
        if isI then { c.tok with ilease := c.tok.ilease + a, ireq := none }
        else { c.tok with please := c.tok.please + a, preq := none } })
      { d with blw := { d.blw with grants := satInc d.blw.grants } }
  | none => d

/-- Core `n` returns the leases that it needs no longer: those of operations whose active interval has ended, and a phase lease
above its target once D ≤ ρ + target (R514, R515). -/
def Dev.leaseReturn (d : Dev) (n : Nat) : Dev :=
  let d := d.settleLeases n
  let c := d.core n
  let target := c.tok.claim - c.tok.rho
  let k := if c.demand ≤ c.tok.rho + target then c.tok.please - target else 0
  { d.updCore n (fun c => { c with tok := { c.tok with please := c.tok.please - k } }) with
    blw := { d.blw with returning := d.blw.returning + k } }

/-- Returned half-tokens join the float: leases, then reservations given up (R508, R518). -/
def Dev.leaseJoin (d : Dev) (k : Nat) : Dev :=
  { d with blw := { d.blw with returning := d.blw.returning - k, rsvBack := d.blw.rsvBack - (k - d.blw.returning) } }

/-- The raise of core `n` is granted whole, cores in ascending order (R507, R517); a phase lease above 3 − ρ returns (R510). -/
def Dev.grantRaise (d : Dev) (n : Nat) : Dev :=
  let c := d.core n
  match c.tok.raise with
  | none => d
  | some r =>
    let trim := c.lease + r - 3
    if d.raisePending ≠ some n || decide (d.float < r - c.tok.rho) || decide (c.tok.please < trim) then d
    else
      let d := d.updCore n (fun c => { c with tok := { c.tok with rho := r, raise := none, fresh := false, please := c.tok.please - trim } })
      { d with blw := { d.blw with returning := d.blw.returning + trim } }

end Sys2Proof.Machine
end

