-- ==== Sys2Proof/Machine/Bellows.lean ====
section
/-!
DEFINITION. Machine/Bellows.lean: the meanings of the events of the Bellows and of the budget counters (12, 01).
-/
namespace Sys2Proof.Machine

/-- LEASE_GRANT (R518): The Bellows arbiter grants a lease that becomes part of the core's cover. -/
def execLeaseGrant (n : CoreN) (s : State) : Host.Outcome State Fault Refusal :=
  s.run (fun d => d.leaseGrant n.val)

/-- LEASE_RETURN (R515): A core returns a lease no longer needed. -/
def execLeaseReturn (n : CoreN) (s : State) : Host.Outcome State Fault Refusal :=
  s.run (fun d => d.leaseReturn n.val)

/-- LEASE_JOIN_FLOAT (R518): A returned lease joins the float. -/
def execLeaseJoinFloat (k : BitVec 6) (s : State) : Host.Outcome State Fault Refusal :=
  s.run (fun d => d.leaseJoin k.toNat)

/-- RESERVATION_RAISE (R507): A raise of a tenant's reservation level is granted from the float. -/
def execReservationRaise (n : CoreN) (s : State) : Host.Outcome State Fault Refusal :=
  s.run (fun d => d.grantRaise n.val)

/-- BUDGET_EXPIRE (R60): A budget counter reaches 0, setting BUDGOVR and OVERRUN. -/
def execBudgetExpire (n : CoreN) (s : State) : Host.Outcome State Fault Refusal :=
  s.run (fun d => d.budgetExpire n.val)

end Sys2Proof.Machine
end

