-- ==== Sys2Proof/Machine/Binary32.lean ====
section
/-!
DEFINITION. Machine/Binary32.lean: the meanings of the scalar binary32 instructions (08).
-/
namespace Sys2Proof.Machine

/-- FADD (R325): binary32 addition with selected rounding. -/
def execFadd (n : CoreN) (q : Pred) (d a b : Reg) (rm : Rm) (s : State) : Host.Outcome State Fault Refusal :=
  s.run (issueFbin .add n.val q d.toNat a.toNat b.toNat rm)

/-- FSUB (R325): binary32 subtraction. -/
def execFsub (n : CoreN) (q : Pred) (d a b : Reg) (rm : Rm) (s : State) : Host.Outcome State Fault Refusal :=
  s.run (issueFbin .sub n.val q d.toNat a.toNat b.toNat rm)

/-- FMUL (R325): binary32 multiplication. -/
def execFmul (n : CoreN) (q : Pred) (d a b : Reg) (rm : Rm) (s : State) : Host.Outcome State Fault Refusal :=
  s.run (issueFbin .mul n.val q d.toNat a.toNat b.toNat rm)

/-- FMIN (R325): binary32 minimum, NaN if either operand is NaN. -/
def execFmin (n : CoreN) (q : Pred) (d a b : Reg) (s : State) : Host.Outcome State Fault Refusal :=
  s.run (issueFbin .min n.val q d.toNat a.toNat b.toNat .dyn)

/-- FMAX (R325): binary32 maximum, NaN if either operand is NaN. -/
def execFmax (n : CoreN) (q : Pred) (d a b : Reg) (s : State) : Host.Outcome State Fault Refusal :=
  s.run (issueFbin .max n.val q d.toNat a.toNat b.toNat .dyn)

/-- FMADD (R325): binary32 fused multiply-add with single rounding. -/
def execFmadd (n : CoreN) (q : Pred) (d a b c : Reg) (rm : Rm) (s : State) : Host.Outcome State Fault Refusal :=
  s.run (issueFma n.val q d.toNat a.toNat b.toNat c.toNat rm)

/-- FABS (R327): Clears the sign bit as a bit copy. -/
def execFabs (n : CoreN) (q : Pred) (d a : Reg) (s : State) : Host.Outcome State Fault Refusal :=
  s.run (issueFsign true n.val q d.toNat a.toNat)

/-- FNEG (R327): Inverts the sign bit as a bit copy. -/
def execFneg (n : CoreN) (q : Pred) (d a : Reg) (s : State) : Host.Outcome State Fault Refusal :=
  s.run (issueFsign false n.val q d.toNat a.toNat)

/-- FDIV (R326): binary32 division on the shared iterative unit, 14 CCLK. -/
def execFdiv (n : CoreN) (q : Pred) (d a b : Reg) (rm : Rm) (s : State) : Host.Outcome State Fault Refusal :=
  s.run (issueFdiv n.val q d.toNat a.toNat b.toNat rm)

/-- FSQRT (R326): binary32 square root on the shared iterative unit, 16 CCLK. -/
def execFsqrt (n : CoreN) (q : Pred) (d a : Reg) (rm : Rm) (s : State) : Host.Outcome State Fault Refusal :=
  s.run (issueFsqrt n.val q d.toNat a.toNat rm)

/-- FMV_X (R327): Copies the bits of f[A] zero-extended into x[D]. -/
def execFmvX (n : CoreN) (q : Pred) (d a : Reg) (s : State) : Host.Outcome State Fault Refusal :=
  s.run (issueFcvt .mvX n.val q d.toNat a.toNat .dyn)

/-- FMV_F (R327): Copies x[A][31:0] into f[D]. -/
def execFmvF (n : CoreN) (q : Pred) (d a : Reg) (s : State) : Host.Outcome State Fault Refusal :=
  s.run (issueFcvt .mvF n.val q d.toNat a.toNat .dyn)

/-- FCVT_S_L (R325): Converts signed x[A] to binary32. -/
def execFcvtSL (n : CoreN) (q : Pred) (d a : Reg) (rm : Rm) (s : State) : Host.Outcome State Fault Refusal :=
  s.run (issueFcvt .sL n.val q d.toNat a.toNat rm)

/-- FCVT_S_LU (R325): Converts unsigned x[A] to binary32. -/
def execFcvtSLu (n : CoreN) (q : Pred) (d a : Reg) (rm : Rm) (s : State) : Host.Outcome State Fault Refusal :=
  s.run (issueFcvt .sLu n.val q d.toNat a.toNat rm)

/-- FCVT_L_S (R328): Converts f[A] to a saturated signed integer. -/
def execFcvtLS (n : CoreN) (q : Pred) (d a : Reg) (rm : Rm) (s : State) : Host.Outcome State Fault Refusal :=
  s.run (issueFcvt .lS n.val q d.toNat a.toNat rm)

/-- FCVT_LU_S (R328): Converts f[A] to a saturated unsigned integer. -/
def execFcvtLuS (n : CoreN) (q : Pred) (d a : Reg) (rm : Rm) (s : State) : Host.Outcome State Fault Refusal :=
  s.run (issueFcvt .luS n.val q d.toNat a.toNat rm)

/-- FLI (R325): Loads IMM[31:0] into f[D]. -/
def execFli (n : CoreN) (q : Pred) (d : Reg) (imm : W32) (s : State) : Host.Outcome State Fault Refusal :=
  s.run (issueFli n.val q d.toNat imm)

end Sys2Proof.Machine
end

