-- ==== Sys2Proof/Machine/MailOps.lean ====
section
/-!
DEFINITION. Machine/MailOps.lean: the mailboxes: handshake, request headers, statuses and their order, immediate and asynchronous
responses (04).
-/
namespace Sys2Proof.Machine

/-- A request as it stands in `MBX_REQ` (Table 4-1). -/
structure Req where
  fn : Nat
  op : Nat
  flags : Nat
  seq : W32
  len : Nat
  /-- bytes 10-15 -/
  spare : Nat
  pay : List Byte

/-- The request in the mailbox of function `f`. -/
def Dev.reqOf (d : Dev) (f : Nat) : Req :=
  let b := Memory.readN 0 (d.mbox f).req 0 256
  let len := fieldAt b 8 2
  { fn := f, op := fieldAt b 0 2, flags := fieldAt b 2 2, seq := BitVec.ofNat 32 (fieldAt b 4 4), len := len,
    spare := fieldAt b 10 6, pay := (b.drop 16).take len }

def Req.dry (r : Req) : Bool := bit1 r.flags 0
def Req.noDefer (r : Req) : Bool := bit1 r.flags 1
/-- A field of the payload; a field that the request omits reads 0 (R201). -/
def Req.get (r : Req) (ofs n : Nat) : Nat := fieldAt r.pay ofs n

/-- Write a response into `MBX_RESP`; RESPVALID rises (R147, R150, R160). -/
def Dev.putResp (d : Dev) (f : Nat) (async : Bool) (bs : List Byte) : Dev :=
  let d := d.updMbox f (fun m => { m with resp := Memory.writeL 0 m.resp 0 bs, busy := false, valid := true, async := async })
  if (d.mbox f).ie then d.raiseVec f 0 else d

/-- The immediate response (R147): an OK carries the payload, any other status none. -/
def Dev.respond (d : Dev) (r : Req) (status detail : Nat) (payload : List Byte) : Dev :=
  d.putResp r.fn false (response r.op status (2 * b2n r.dry) r.seq (if status = stOk then payload else []) detail d.kiln.epoch)

/-- What a command defines of its payload: its size, and the reserved fields in it. -/
structure Form where
  size : Nat
  reserved : List (Nat × Nat) := []

/-- What a command finds wrong: not permitted, offending payload fields, a conflict, an exhausted resource. -/
structure Check where
  denied : Bool := false
  bad : List (Nat × Bool) := []
  busy : Bool := false
  full : Bool := false

/-- What a command does once it is accepted. -/
inductive Act where
  /-- at once: status, payload -/
  | now (g : Dev → Nat × List Byte × Dev)
  /-- deferred -/
  | defer (op : DefOp) (g : Dev → Dev)
  /-- after its OK has been written -/
  | after (g : Dev → Dev)

/-- Lowest offset that is flagged. -/
def firstBad (l : List (Nat × Bool)) : Option Nat := lowest ((l.filter Prod.snd).map Prod.fst)

/-- Header fields with a reserved value, in their order (R23, R151, R152). A variable part shorter than the size of its DATA block is counted
as a reserved LENGTH too (R167 states no field; log 136). -/
def Req.headerBad (r : Req) (size : Nat) : Option Nat :=
  firstBad [(2, decide (4 ≤ r.flags)), (8, decide (240 < r.len) || decide (r.len < size)), (10, decide (r.spare ≠ 0))]

/-- Payload bytes that must be zero and are not: reserved fields, and bytes beyond the form (R167, R200). -/
def Req.zeroBad (r : Req) (fm : Form) : List (Nat × Bool) :=
  fm.reserved.map (fun x => (x.1, decide (r.get x.1 x.2 ≠ 0))) ++
  (span fm.size (r.len - fm.size)).map (fun i => (i, decide (r.get i 1 ≠ 0)))

/-- The status of a request that is not accepted, and DETAIL, in the order of R156. -/
def Req.verdict (r : Req) (fm : Form) (k : Check) : Option (Nat × Nat) :=
  match r.headerBad fm.size with
  | some o => some (stInvalid, o)
  | none =>
    if k.denied then some (stDenied, 0xFFFF)
    else match firstBad (r.zeroBad fm ++ k.bad) with
      | some o => some (stInvalid, 16 + o)
      | none => if k.busy then some (stBusy, 0xFFFF) else if k.full then some (stNoResource, 0xFFFF) else none

/-- Deferred commands of a function that are not answered (DEFCNT). -/
def Dev.defCount (d : Dev) (f : Nat) : Nat := (d.kiln.deferred.filter (fun x => x.fn == f && !x.lost)).length

/-- What a command is to a request: its form, its checks, what it does once accepted; and what even a refusal does. -/
structure Service where
  form : Form
  check : Check
  act : Act
  pre : Dev → Dev := id

/-- A service without an effect on refusal. -/
def Service.of (form : Form) (check : Check) (act : Act) : Service := { form := form, check := check, act := act }

/-- Answer a request (R147, R153-R157). -/
def Dev.serve (d : Dev) (r : Req) (fm : Form) (k : Check) (a : Act) : Dev :=
  match r.verdict fm k with
  | some (st, o) => d.respond r st o []
  | none => match a with
    | .now g => if r.dry then d.respond r stOk 0xFFFF [] else (let x := g d; x.2.2.respond r x.1 0xFFFF x.2.1)
    | .after g => if r.dry then d.respond r stOk 0xFFFF [] else g (d.respond r stOk 0xFFFF [])
    | .defer op g =>
      if r.noDefer || decide (4 ≤ d.defCount r.fn + (d.mbox r.fn).queue.length) then d.respond r stBusy 0xFFFF []
      else if r.dry then d.respond r stOk 0xFFFF []
      else
        let x : Deferred := { fn := r.fn, opcode := r.op, seq := r.seq, op := op }
        (g { d with kiln := { d.kiln with deferred := d.kiln.deferred ++ [x] } }).respond r stDeferred 0xFFFF []

/-- The tenant of function `f` exists (R617). -/
def Dev.tenExists (d : Dev) (t : Nat) : Bool := (d.tenant t).exist

/-- Opcodes of Table 4-4. -/
def knownOps : List Nat :=
  [0x0001, 0x0010, 0x0011, 0x0020, 0x0021, 0x0022, 0x0030, 0x0031, 0x0038, 0x0040, 0x0041, 0x0050, 0x0051, 0x0052, 0x0058, 0x0060,
   0x0061, 0x0062, 0x0063, 0x0070, 0x0078, 0x0079, 0x0080, 0x0081, 0x0082, 0x0083, 0x0090, 0x0091, 0x00A0]

/-- Opcodes that the boot ROM answers (R126). -/
def romOps : List Nat := [0x0001, 0x0080, 0x0081, 0x0082, 0x0083]

/-- Opcodes that whoever answers the mailboxes implements. -/
def Dev.implemented (d : Dev) (op : Nat) : Bool := if d.kiln.fw = .rom then romOps.contains op else knownOps.contains op

/-- The mailboxes are answered: not while the Kiln is down, and only two commands in the hold of R856. -/
def Dev.answers (d : Dev) (op : Nat) : Bool := decide (d.kiln.fw ≠ .none) && (!d.stk.hold || op == 0x0001 || op == 0x0091)

/-- The tenant that a TENANT field names (R164). -/
def tenField (f v : Nat) : Nat := if v = 0xFF then f else v
/-- The tenant a VF may not name (R164). -/
def tenDenied (f v : Nat) : Bool := f != 0 && v != 0xFF && v != f

/-- The form of SET_CONFIG: VLEN gives the length of VALUE (R152, R167). -/
def Req.cfgForm (r : Req) : Form := { size := 8 + r.get 4 2, reserved := [(6, 2)] }

/-- A core that CORE_RETURN does not accept in its state (R602). -/
def Core.noReturn (c : Core) : Bool := decide (c.st = .active) || (decide (c.st = .fenced) && !c.testOk)

/-- The field of a command that selects a variant: its offset and size and the codes that exist; and, for a request whose code is
reserved, the form, what is not permitted whatever the variant, and what offends in the fields before it. -/
structure Selector where
  ofs : Nat
  size : Nat
  codes : List Nat
  form : Form
  denied : Bool := false
  bad : List (Nat × Bool) := []

/-- The selector of a request's command. Of PST_SESSION a VF may issue QUERY alone (Table 4-4). -/
def Dev.selector (d : Dev) (r : Req) : Option Selector :=
  match r.op with
  | 0x0038 => some { ofs := 0, size := 1, codes := [0, 1], form := { size := 4 }, denied := tenDenied r.fn (r.get 1 1) }
  | 0x0040 => some { ofs := 0, size := 2, codes := [1, 2, 3, 0x10, 0x11, 0x12, 0x20], form := r.cfgForm }
  | 0x0052 => some { ofs := 1, size := 1, codes := [0, 1], form := { size := 4, reserved := [(2, 2)] },
                     bad := [(0, decide (17 < r.get 0 1) || (d.core (r.get 0 1)).noReturn)] }
  | 0x0060 => some { ofs := 0, size := 2, codes := [0, 1, 2, 3, 4, 5, 0xFFFF] ++ span 0x100 16, form := { size := 4, reserved := [(2, 2)] } }
  | 0x0070 => some { ofs := 2, size := 2, codes := [0, 1, 2, 3, 4, 5, 0xFFFF], form := { size := 4, reserved := [(1, 1)] },
                     bad := [(0, decide (1 < r.get 0 1))] }
  | 0x0078 => some { ofs := 2, size := 2, codes := [0, 1, 2, 3, 4, 0xFFFF] ++ span 0x10 16, form := { size := 4, reserved := [(1, 1)] },
                     bad := [(0, decide (1 < r.get 0 1))] }
  | 0x0079 => some { ofs := 0, size := 1, codes := [0, 1, 2], form := { size := 8, reserved := [(5, 3)] }, denied := r.fn != 0 }
  | 0x00A0 => some { ofs := 0, size := 1, codes := [0, 1], form := { size := 4, reserved := [(1, 3)] } }
  | _ => none

/-- Commands that a VF may issue (Table 4-4). -/
def vfOps : List Nat := [0x0001, 0x0010, 0x0011, 0x0020, 0x0021, 0x0022, 0x0038, 0x0041, 0x0079]

/-- Not permitted to the function at all: a PF command from a VF, or a command from the VF of a tenant that does not exist (R163,
R617). -/
def Dev.barred (d : Dev) (r : Req) : Bool :=
  r.fn != 0 && (!vfOps.contains r.op || (!d.tenExists r.fn && r.op != 0x0001 && r.op != 0x0041))

/-- A request whose opcode is not implemented, or whose selector is a reserved code, is answered here; any other waits for its
command. -/
def Dev.screen (d : Dev) (f : Nat) : Dev :=
  let r := d.reqOf f
  if !d.answers r.op then d
  else if !d.implemented r.op then d.respond r stUnsupported 0xFFFF []
  else match d.selector r with
    | some v =>
      if v.codes.contains (r.get v.ofs v.size) then d
      else d.serve r v.form { denied := d.barred r || v.denied, bad := v.bad ++ [(v.ofs, true)] } (.after id)
    | none => d

/-- RING (R144, R145). -/
def Dev.mbxRing (d : Dev) (f : Nat) : Dev :=
  let m := d.mbox f
  if m.ready && !m.busy && !m.valid then (d.updMbox f (fun m => { m with busy := true })).screen f
  else d.updMbox f (fun m => { m with ringRej := true })

/-- ACK (R148). -/
def Dev.mbxAck (d : Dev) (f : Nat) : Dev :=
  if (d.mbox f).valid then d.updMbox f (fun m => { m with valid := false, async := false }) else d

/-- The accepted request of function `f`, when it has opcode `op` and `sel` holds of its payload, is served by `h`. -/
def Dev.mail (d : Dev) (f op : Nat) (sel : Req → Bool) (h : Req → Dev → Service) : Dev :=
  let r := d.reqOf f
  if (d.mbox f).busy && r.op == op && d.answers op && d.implemented op && sel r then
    let x := h r d
    (x.pre d).serve r x.form x.check x.act
  else d

/-- A waiting asynchronous response is placed in the free response area; EPOCH is that of the placing (R160). -/
def Dev.placeAsync (d : Dev) (f : Nat) : Dev :=
  let m := d.mbox f
  match m.queue with
  | [] => d
  | b :: bs =>
    if m.busy || m.valid || decide (d.kiln.fw = .none) then d
    else (d.updMbox f (fun m => { m with queue := bs })).putResp f true (b.take 12 ++ toBytes d.kiln.epoch.toNat 4 ++ b.drop 16)

end Sys2Proof.Machine
end

