-- ==== Sys2Proof/Machine/CamOps.lean ====
section
/-!
DEFINITION. Machine/CamOps.lean: the camera ports: CAM_CONFIG, frames and drops, the pipeline, outputs and descriptors (19).
-/
namespace Sys2Proof.Machine

/-- Camera port `p`. -/
def Dev.cam (d : Dev) (p : Nat) : Cam := SMap.get {} d.cams p
/-- Change camera port `p`. -/
def Dev.updCam (d : Dev) (p : Nat) (f : Cam → Cam) : Dev := { d with cams := SMap.upd {} d.cams p f }

/-! ### Blocks (R747, Table 19-6) -/

/-- Size of the DATA of a block. -/
def camSize (blk : Nat) : Nat :=
  match blk with
  | 0 => 12
  | 1 => 28
  | 2 => 40
  | 3 => 24
  | 4 => 56
  | 5 => 4
  | _ => 0

/-- Reserved fields of a block that are not zero, and the check of R251: by offset in DATA. -/
def Dev.camBad (d : Dev) (blk : Nat) (b : List Byte) : List (Nat × Bool) :=
  let g := fieldAt b
  match blk with
  | 0 => [(3, decide (3 < g 3 1)), (11, decide (g 11 1 ≠ 0))]
  | 1 => [(0, decide (3 < g 0 1)), (3, decide (g 3 1 ≠ 0))]
  | 3 => [(0, decide (3 < g 0 1)), (1, decide (g 1 7 ≠ 0))]
  | 4 => [(13, decide (3 < g 13 1)), (42, decide (g 42 2 ≠ 0))]
  | 5 => [(0, decide (bits (g 0 4) 17 14 ≠ 0) ||
      (bit1 (g 0 4) 31 && decide (SMap.get 0 d.syn.owner (bits (g 0 4) 0 17 / 256) = 0)))]
  | _ => []

/-- `k` fields of `n` bytes from an offset on. -/
def fieldsAt (b : List Byte) (ofs n k : Nat) : List Nat := (List.range k).map (fun i => fieldAt b (ofs + n * i) n)

/-- A block updates a set. -/
def CamCfg.block (c : CamCfg) (blk : Nat) (b : List Byte) : CamCfg :=
  let g := fieldAt b
  match blk with
  | 0 =>
    { c with
      lanes := g 0 1
      vc := g 1 1
      dt := g 2 1
      enable := bit1 (g 3 1) 0
      nonCont := bit1 (g 3 1) 1
      rate := g 4 2
      width := g 6 2
      height := g 8 2
      bayer := g 10 1 }
  | 1 =>
    { c with
      snrEn := bit1 (g 0 1) 0
      tnrEn := bit1 (g 0 1) 1
      snrK := g 1 1
      tnrK := g 2 1
      snrTh := fieldsAt b 4 2 4
      tnrTh := fieldsAt b 12 2 4
      tnrBase := g 20 8 }
  | 2 =>
    { c with
      bl := fieldsAt b 0 2 4
      wb := fieldsAt b 8 2 4
      ccm := (fieldsAt b 16 2 9).map (fun v => Sys2Proof.Machine.sx v 16)
      ccmOfs := (fieldsAt b 34 2 3).map (fun v => Sys2Proof.Machine.sx v 16) }
  | 3 =>
    { c with
      lscEn := bit1 (g 0 1) 0
      toneEn := bit1 (g 0 1) 1
      lscBase := g 8 8
      toneBase := g 16 8 }
  | 4 =>
    { c with
      outBase := g 0 8
      bufSize := g 8 4
      nbuf := g 12 1
      lumaEn := bit1 (g 13 1) 0
      y16 := bit1 (g 13 1) 1
      tfmt := g 14 1
      tplanes := g 15 1
      lcrop := fieldsAt b 16 2 4
      tcrop := fieldsAt b 24 2 4
      sx := g 32 1
      sy := g 33 1
      tpitch := g 34 2
      mean := fieldsAt b 36 2 3
      gain := (fieldsAt b 44 4 3).map (BitVec.ofNat 32) }
  | _ => { c with frameCtr := if bit1 (g 0 4) 31 then some (bits (g 0 4) 0 17) else none }

/-- CAM_CONFIG with a block: OK carries the active commit number (R742). -/
def Dev.camBlock (r : Req) (d : Dev) : Service :=
  let p := r.get 0 1
  let blk := r.get 2 2
  let b := r.pay.drop 4
  Service.of { size := 4 + camSize blk, reserved := [(1, 1)] }
    { denied := d.barred r, bad := (0, decide (1 < p)) :: (d.camBad blk b).map (fun x => (4 + x.1, x.2)) }
    (.now fun d => (stOk, toBytes (d.cam p).commit.toNat 4, d.updCam p (fun c => { c with shadow := c.shadow.block blk b })))

/-! ### Layout (R726, R733) -/

def CamCfg.lw (c : CamCfg) : Nat := nth 0 c.lcrop 2
def CamCfg.lh (c : CamCfg) : Nat := nth 0 c.lcrop 3
def CamCfg.tw (c : CamCfg) : Nat := nth 0 c.tcrop 2 / c.sx
def CamCfg.th (c : CamCfg) : Nat := nth 0 c.tcrop 3 / c.sy
def CamCfg.lpitch (c : CamCfg) : Nat := cdiv (c.lw * (if c.y16 then 2 else 1)) 64 * 64
def CamCfg.lumaSize (c : CamCfg) : Nat := if c.lumaEn then c.lpitch * c.lh else 0
def CamCfg.tofs (c : CamCfg) : Nat := 0x2000 + cdiv c.lumaSize 4096 * 4096
def CamCfg.tsize (c : CamCfg) : Nat := c.tplanes * c.tpitch * c.th
def CamCfg.refSize (c : CamCfg) : Nat := cdiv (c.width * c.height * 2) 4096 * 4096
/-- Address of the buffer of a frame. -/
def CamCfg.buffer (c : CamCfg) (seq : Nat) : Nat := c.outBase + seq % c.nbuf * c.bufSize
/-- Address of a reference buffer. -/
def CamCfg.refBuf (c : CamCfg) (seq : Nat) : Nat := c.tnrBase + seq % 2 * c.refSize

/-- Bits per pixel of a data type. -/
def CamCfg.depth (c : CamCfg) : Nat := 8 + 2 * (c.dt - 0x2A)

/-! ### APPLY (R742-R748) -/

/-- A crop outside the frame, or with an odd coordinate or size. -/
def CamCfg.cropBad (c : CamCfg) (l : List Nat) : Bool :=
  l.any (fun v => v % 2 != 0) || decide (c.width < nth 0 l 0 + nth 0 l 2) || decide (c.height < nth 0 l 1 + nth 0 l 3)

/-- Tenant whose reach holds the buffers: the owner of FRAMECTR, or tenant 0; none where the counter has no owner. -/
def Dev.camTenant (d : Dev) (c : CamCfg) : Option Nat :=
  match c.frameCtr with
  | none => some 0
  | some k =>
    let o := SMap.get 0 d.syn.owner (k / 256)
    if o = 0 then none else some (o - 1)

/-- The values of the set that R748 refuses. -/
def CamCfg.valuesBad (c : CamCfg) : Bool :=
  let fin (w : W32) : Bool := match decode32 true w with
    | .fin _ _ _ => true
    | _ => false
  !([1, 2, 4].contains c.lanes) || decide (3 < c.vc) || !([0x2A, 0x2B, 0x2C, 0x2D].contains c.dt) || decide (c.rate < 80) ||
    decide (2500 < c.rate) || c.width % 2 != 0 || decide (c.width < 64) || decide (8192 < c.width) || c.height % 2 != 0 ||
    decide (c.height < 64) || decide (12582912 < c.width * c.height) || decide (3 < c.bayer) ||
    decide (16 < c.snrK) || decide (15 < c.tnrK) || (c.snrTh ++ c.tnrTh ++ c.bl).any (fun v => decide (16383 < v)) ||
    c.cropBad c.lcrop || c.cropBad c.tcrop || decide (c.sx = 0) || decide (16 < c.sx) || decide (c.sy = 0) || decide (16 < c.sy) ||
    nth 0 c.tcrop 2 % c.sx != 0 || nth 0 c.tcrop 3 % c.sy != 0 || c.tpitch % 64 != 0 || decide (c.tpitch < c.tw) ||
    !([3, 4].contains c.tfmt) || !([1, 3].contains c.tplanes) || decide (c.nbuf = 0) || decide (16 < c.nbuf) ||
    c.outBase % 4096 != 0 || c.tnrBase % 4096 != 0 || c.bufSize % 4096 != 0 || decide (c.bufSize < c.tofs + c.tsize) || !c.gain.all fin

/-- The tables and areas of the set. -/
def Dev.areasBad (d : Dev) (c : CamCfg) : Bool :=
  (c.lscEn && !d.inReach 0 c.lscBase 2312) ||
  (c.toneEn && (!d.inReach 0 c.toneBase 514 || (fieldsAt (d.peek c.toneBase 514) 0 2 257).any (fun v => decide (4095 < v)))) ||
  match d.camTenant c with
  | none => true
  | some t => !d.inReach t c.outBase (c.nbuf * c.bufSize) || (c.tnrEn && !d.inReach t c.tnrBase (2 * c.refSize))

/-- The set with its tables (R742). -/
def Dev.withTables (d : Dev) (c : CamCfg) : CamCfg :=
  { c with
    lsc := if c.lscEn then fieldsAt (d.peek c.lscBase 2312) 0 2 1156 else []
    tone := if c.toneEn then fieldsAt (d.peek c.toneBase 514) 0 2 257 else [] }

/-! ### Drops (R718) -/

/-- The parts of a frame's buffers that a dropped frame may have written. How far its outputs got is not stated: the bytes are free
(log 1). -/
def Dev.spoil (d : Dev) (f : Frame) : Dev :=
  let c := f.cfg
  let t := (d.camTenant c).getD 0
  let r := d.draw
  let junk (a n : Nat) : List Byte := (List.range n).map (fun i => Config.dramByte r.1 (a + i))
  let a := c.buffer f.seq.toNat + 0x200
  let n := c.tofs + c.tsize - 0x200
  let d := r.2.write t false a (junk a n)
  if c.tnrEn then
    let a := c.refBuf f.seq.toNat
    d.write t false a (junk a (c.width * c.height * 2))
  else d

/-- The open frame of port `p` is dropped for its first cause; DROP rises. -/
def Dev.camDrop (d : Dev) (p cause : Nat) : Dev :=
  match (d.cam p).frame with
  | none => d
  | some f =>
    if f.drop ≠ 0 then d
    else
      let was := (d.cam p).drop
      let d := d.updCam p (fun c =>
        { c with frame := some { f with drop := cause }, drop := true, lastCause := BitVec.ofNat 4 cause, drops := satInc c.drops,
                 tnrReset := true })
      let d := (d.spoil f).trace (0x22 + p) 0x0B (traceData f.seq.toNat cause)
      if !was && (d.cam p).ie then d.raiseVec 0 (2 + p) else d

/-- The open frame closes: its descriptor is still to be written, unless that has been done. -/
def Cam.close (c : Cam) : Cam :=
  match c.frame with
  | none => c
  | some f => { c with frame := none, tail := if f.wrote then c.tail else c.tail ++ [f] }

/-! ### APPLY, continued -/

/-- A set with ENABLE = 0 takes effect at once (R745). -/
def Dev.camOff (d : Dev) (p : Nat) (s : CamCfg) (n : W32) : Dev :=
  let open_ := (d.cam p).frame.isSome
  (d.camDrop p 6).updCam p (fun c =>
    let c := c.close
    { c with active := s, commit := n, commits := n, pend := none, draining := open_ && !c.tail.isEmpty })

/-- CAM_CONFIG APPLY. -/
def Dev.camApply (r : Req) (d : Dev) : Service :=
  let p := r.get 0 1
  let c := d.cam p
  Service.of { size := 4, reserved := [(1, 1)] }
    { denied := d.barred r, bad := [(0, decide (1 < p) || c.shadow.valuesBad || d.areasBad c.shadow)], busy := c.draining }
    (.now fun d =>
      let s := d.withTables c.shadow
      let n := c.commits + 1
      (stOk, toBytes n.toNat 4,
        if s.enable then d.updCam p (fun c => { c with pend := some (s, n), pendAt := d.fno, commits := n }) else d.camOff p s n))

/-! ### Packets (R714-R719, R743) -/

/-- What a header does: counts a correction; none where the packet goes no further. `x` is the set that selects the channel. -/
def Dev.camHeader (d : Dev) (p : Nat) (h : CsiHdr) (x : CamCfg) : Dev × Bool :=
  if !x.enable then (d, false)
  else if h.ecc = 2 then (d.camDrop p 1, false)
  else
    let d := if h.ecc = 1 then d.updCam p (fun c => { c with eccCorr := satInc c.eccCorr }) else d
    if h.vc.toNat = x.vc then (d, true) else (d.updCam p (fun c => { c with discard := satInc c.discard }), false)

/-- The pending set that an FS of FCLK cycle `now` makes active: one made in an earlier cycle (R743). -/
def Cam.taken (c : Cam) (now : Nat) : Option (CamCfg × W32) := if c.pendAt < now then c.pend else none

/-- The set that selects the channel: the active one, or on a disabled port the pending one. -/
def Cam.selects (c : Cam) (now : Nat) : CamCfg :=
  if c.active.enable then c.active else match c.taken now with
    | some x => x.1
    | none => c.active

/-- What the INPUT and NR blocks hold. -/
def CamCfg.inputKey (a : CamCfg) : List Nat :=
  [a.lanes, a.vc, a.dt, b2n a.enable, b2n a.nonCont, a.rate, a.width, a.height, a.bayer, b2n a.snrEn, b2n a.tnrEn, a.snrK, a.tnrK,
    a.tnrBase] ++ a.snrTh ++ a.tnrTh

/-- INPUT or NR differ. -/
def CamCfg.newInput (a b : CamCfg) : Bool := a.inputKey != b.inputKey

/-- The pending set becomes active at an FS (R743, R745). -/
def Cam.activate (c : Cam) (now : Nat) : Cam :=
  match c.taken now with
  | none => c
  | some (s, n) =>
    { c with
      active := s
      commit := n
      pend := none
      seq := if c.active.enable then c.seq else 0
      tnrReset := c.tnrReset || !c.active.enable || s.newInput c.active }

/-- An accepted FS opens a frame. -/
def Cam.start (c : Cam) (t : W64) (num : W16) : Cam :=
  let f : Frame :=
    { seq := c.seq, fsTime := t, feTime := 0, num := num, commit := c.commit, cfg := c.active, tnrReset := c.tnrReset, lines := [],
      drop := 0, wrote := false }
  { c with frame := some f, seq := c.seq + 1, lastFs := t, tnrReset := false }

/-- FS. -/
def Dev.frameStart (d : Dev) (p : Nat) (h : CsiHdr) (num : W16) : Dev :=
  let x := d.camHeader p h ((d.cam p).selects d.fno)
  if !x.2 then x.1
  else
    let d := x.1.camDrop p 4
    d.updCam p (fun c => (c.close.activate d.fno).start d.glb.time num)

/-- A long packet (R715, Table 19-2). -/
def Dev.longPacket (d : Dev) (p : Nat) (h : CsiHdr) (dt : Nat) (crcOk overrun : Bool) (px : List Nat) : Dev :=
  let a := (d.cam p).active
  let x := d.camHeader p h a
  if !x.2 then x.1
  else
    let d := x.1
    if dt ≠ a.dt then d.updCam p (fun c => { c with discard := satInc c.discard })
    else match (d.cam p).frame with
      | none => d
      | some f =>
        if f.drop ≠ 0 then d
        else if overrun then d.camDrop p 5
        else if !crcOk then d.camDrop p 2
        else if px.length ≠ f.cfg.width then d.camDrop p 3
        else
          let l := px.map (fun v => v % 2 ^ f.cfg.depth)
          d.updCam p (fun c => { c with frame := some { f with lines := l :: f.lines } })

/-! ### The pipeline (R720-R731) -/

/-- Division that rounds to nearest, ties away from zero (R723). -/
def rdiv (a : Int) (b : Nat) : Int :=
  let q : Int := ((2 * a.natAbs + b) / (2 * b) : Nat)
  if a < 0 then -q else q

/-- Clamp to 0..hi. -/
def clampN (hi : Nat) (v : Int) : Nat := (max 0 (min (hi : Int) v)).toNat

/-- Reflect a coordinate about the edge pixels (R722). -/
def reflect (n : Nat) (x : Int) : Nat := if x < 0 then (-x).toNat else if (n : Int) ≤ x then (2 * ((n : Int) - 1) - x).toNat else x.toNat

/-- Bayer channel of a pixel (R721). -/
def CamCfg.chan (c : CamCfg) (x y : Nat) : Nat := c.bayer ^^^ (x % 2 + 2 * (y % 2))

/-- A pixel of an image, reflected at the edges. -/
def CamCfg.at_ (c : CamCfg) (im : Nat → Nat → Nat) (x y : Int) : Nat := im (reflect c.width x) (reflect c.height y)

/-- An image. -/
abbrev Img := Nat → Nat → Nat

/-- Stage 1: normalise. -/
def CamCfg.normal (c : CamCfg) (lines : List (List Nat)) : Img := fun x y => nth 0 (nth [] lines y) x * 2 ^ (14 - c.depth)

/-- Stage 2: spatial noise reduction (R724). -/
def CamCfg.snr (c : CamCfg) (im : Img) : Img := fun x y =>
  if !c.snrEn then im x y
  else
    let v : Int := im x y
    let ofs : List (Int × Int) := [(-2, -2), (0, -2), (2, -2), (-2, 0), (2, 0), (-2, 2), (0, 2), (2, 2)]
    let a := (ofs.map (fun o => ((c.at_ im (x + o.1) (y + o.2) : Nat) : Int))).filter
      (fun n => decide ((n - v).natAbs ≤ nth 0 c.snrTh (c.chan x y)))
    if a.isEmpty then im x y else clampN 16383 (v + rdiv (c.snrK * (rdiv a.sum a.length - v)) 16)

/-- Stage 3: temporal noise reduction (R725). -/
def CamCfg.tnr (c : CamCfg) (valid : Bool) (ref im : Img) : Img := fun x y =>
  if !c.tnrEn then im x y
  else
    let v : Int := im x y
    let e : Int := (ref x y : Int) - v
    if valid && decide (e.natAbs ≤ nth 0 c.tnrTh (c.chan x y)) then clampN 16383 (v + rdiv (c.tnrK * e) 16) else im x y

/-- Stage 4: black level. -/
def CamCfg.black (c : CamCfg) (im : Img) : Img := fun x y => im x y - nth 0 c.bl (c.chan x y)

/-- Gain of the lens-shading grid (R728). -/
def CamCfg.shade (c : CamCfg) (x y : Nat) : Int :=
  let i := 16 * x / c.width
  let fx := 4096 * (16 * x % c.width) / c.width
  let j := 16 * y / c.height
  let fy := 4096 * (16 * y % c.height) / c.height
  let g (j i : Nat) : Int := (nth 0 c.lsc (c.chan x y * 289 + min j 16 * 17 + min i 16) : Nat)
  let top := rdiv (g j i * (4096 - fx) + g j (i + 1) * fx) 4096
  let bot := rdiv (g (j + 1) i * (4096 - fx) + g (j + 1) (i + 1) * fx) 4096
  rdiv (top * (4096 - fy) + bot * fy) 4096

/-- Stage 5: lens shading. -/
def CamCfg.lens (c : CamCfg) (im : Img) : Img := fun x y =>
  if c.lscEn then min 16383 ((im x y * (c.shade x y).toNat + 2048) / 4096) else im x y

/-- Stage 6: white balance. -/
def CamCfg.white (c : CamCfg) (im : Img) : Img := fun x y => min 16383 ((im x y * nth 0 c.wb (c.chan x y) + 2048) / 4096)

def avg2 (a b : Nat) : Nat := (a + b + 1) / 2
def avg4 (a b c d : Nat) : Nat := (a + b + c + d + 2) / 4

/-- Stage 7: demosaic (R729): R, G, B. -/
def CamCfg.demosaic (c : CamCfg) (im : Img) (x y : Nat) : Nat × Nat × Nat :=
  let p (dx dy : Int) : Nat := c.at_ im (x + dx) (y + dy)
  let own := im x y
  let hor := avg2 (p (-1) 0) (p 1 0)
  let ver := avg2 (p 0 (-1)) (p 0 1)
  let diag := avg4 (p (-1) (-1)) (p 1 (-1)) (p (-1) 1) (p 1 1)
  let gh := ((p (-1) 0 : Int) - p 1 0).natAbs
  let gv := ((p 0 (-1) : Int) - p 0 1).natAbs
  let green := if gh < gv then hor else if gv < gh then ver else avg4 (p (-1) 0) (p 1 0) (p 0 (-1)) (p 0 1)
  match c.chan x y with
  | 0 => (own, green, diag)
  | 1 => (hor, own, ver)
  | 2 => (ver, own, hor)
  | _ => (diag, green, own)

/-- Stage 8: the colour matrix (R730). -/
def CamCfg.matrix (c : CamCfg) (v : Nat × Nat × Nat) : Nat × Nat × Nat :=
  let o (k : Nat) : Nat :=
    let s := nth 0 c.ccm (3 * k) * v.1 + nth 0 c.ccm (3 * k + 1) * v.2.1 + nth 0 c.ccm (3 * k + 2) * v.2.2 + 2048
    clampN 16383 (s.fdiv 4096 + nth 0 c.ccmOfs k)
  (o 0, o 1, o 2)

/-- Stage 9: the tone curve (R731). -/
def CamCfg.curve (c : CamCfg) (v : Nat) : Nat :=
  if c.toneEn then
    let i := v / 64
    let f := v % 64
    (nth 0 c.tone i * (64 - f) + nth 0 c.tone (i + 1) * f + 32) / 64
  else v / 4

/-- Stages 5 to 9 at a pixel: R, G, B of 12 bits. -/
def CamCfg.colour (c : CamCfg) (im : Img) (x y : Nat) : Nat × Nat × Nat :=
  let v := c.matrix (c.demosaic (c.white (c.lens im)) x y)
  (c.curve v.1, c.curve v.2.1, c.curve v.2.2)

/-- Luma (R734). -/
def lumaOf (v : Nat × Nat × Nat) : Nat := (77 * v.1 + 150 * v.2.1 + 29 * v.2.2 + 128) / 256

/-! ### Outputs of a frame (R726, R732-R735) -/

/-- The pixels of a frame in raster order. -/
def CamCfg.pixels (c : CamCfg) : List (Nat × Nat) := (List.range c.height).flatMap (fun y => (List.range c.width).map (fun x => (x, y)))

/-- The histograms (R732). -/
def CamCfg.histBytes (c : CamCfg) (im : Img) : List Byte :=
  (List.range 1024).flatMap (fun k =>
    toBytes (c.pixels.filter (fun q => c.chan q.1 q.2 == k / 256 && im q.1 q.2 / 64 == k % 256)).length 4)

/-- The zone averages (R732). -/
def CamCfg.zoneBytes (c : CamCfg) (im : Img) : List Byte :=
  let zw := 2 * (c.width / 32)
  let zh := 2 * (c.height / 32)
  (List.range 1024).flatMap (fun k =>
    let x0 := k / 4 % 16 * zw
    let y0 := k / 64 * zh
    let vs := ((span y0 zh).flatMap (fun y => (span x0 zw).map (fun x => (x, y)))).filter (fun q => c.chan q.1 q.2 == k % 4)
    toBytes (rdiv ((vs.map (fun q => im q.1 q.2)).sum : Nat) vs.length).toNat 2)

/-- A line of the luma image. -/
def CamCfg.lumaLine (c : CamCfg) (rgb : Nat → Nat → Nat × Nat × Nat) (y : Nat) : List Byte :=
  (span (nth 0 c.lcrop 0) c.lw).flatMap (fun x =>
    let l := lumaOf (rgb x (nth 0 c.lcrop 1 + y))
    if c.y16 then toBytes l 2 else [BitVec.ofNat 8 (l / 16)])

/-- A tensor element (R735). -/
def CamCfg.element (c : CamCfg) (plane v : Nat) : Byte :=
  let x := encode32 true .rne ((FVal.ofInt ((v : Int) - nth 0 c.mean plane)).mul (decode32 true (nth 0 c.gain plane)))
  let f := decode32 true x
  if c.tfmt = 3 then encodeCf8 false 127 .rne f else BitVec.ofInt 8 (f.toIntSat .rne (-128) 127)

/-- A row of a plane of the tensor. -/
def CamCfg.tensorRow (c : CamCfg) (rgb : Nat → Nat → Nat × Nat × Nat) (plane j : Nat) : List Byte :=
  (List.range c.tw).map (fun i =>
    let x0 := nth 0 c.tcrop 0 + i * c.sx
    let y0 := nth 0 c.tcrop 1 + j * c.sy
    let vs := (span y0 c.sy).flatMap (fun y => (span x0 c.sx).map (fun x =>
      let v := rgb x y
      if c.tplanes = 1 then lumaOf v else if plane = 0 then v.1 else if plane = 1 then v.2.1 else v.2.2))
    c.element plane (rdiv (vs.sum : Nat) vs.length).toNat)

/-- What a frame writes: address and bytes. -/
def Frame.outputs (f : Frame) (ref : Img) : List (Nat × List Byte) :=
  let c := f.cfg
  let a := c.buffer f.seq.toNat
  let s3 := c.tnr (!f.tnrReset) ref (c.snr (c.normal f.lines.reverse))
  let s4 := c.black s3
  let rgb := c.colour s4
  let refs := if c.tnrEn then [(c.refBuf f.seq.toNat, c.pixels.flatMap (fun q => toBytes (s3 q.1 q.2) 2))] else []
  let luma := if c.lumaEn then (List.range c.lh).map (fun y => (a + 0x2000 + y * c.lpitch, c.lumaLine rgb y)) else []
  let tens := (List.range c.tplanes).flatMap (fun q =>
    (List.range c.th).map (fun j => (a + c.tofs + (q * c.th + j) * c.tpitch, c.tensorRow rgb q j)))
  refs ++ [(a + 0x200, c.histBytes s4), (a + 0x1200, c.zoneBytes s4)] ++ luma ++ tens

/-- The frame's outputs are written; a reference that reads poisoned drops it (Table 19-2, R853). -/
def Dev.camOutputs (d : Dev) (p : Nat) (f : Frame) (fab : Fabric) : Dev :=
  let c := f.cfg
  let a := c.refBuf (f.seq.toNat + 1)
  let n := c.width * c.height * 2
  let d1 := if c.tnrEn then (d.countRead a n).fabricRead fab a 7 else d
  if c.tnrEn && (fabricLost fab || d.poisoned a n) then (d1.errStat 4).camDrop p 7
  else
    let ref : Img := fun x y => fieldAt (d.peek (a + 2 * (y * c.width + x)) 2) 0 2
    (f.outputs ref).foldl (fun d o => d.write ((d.camTenant c).getD 0) false o.1 o.2) d1

/-- FE closes the open frame (R718). -/
def Dev.frameEnd (d : Dev) (p : Nat) (h : CsiHdr) (num : W16) (fab : Fabric) : Dev :=
  let x := d.camHeader p h (d.cam p).active
  if !x.2 then x.1
  else
    let d := x.1
    match (d.cam p).frame with
    | none => d
    | some f =>
      if f.num ≠ num then d
      else
        let f := { f with feTime := d.glb.time }
        let d := d.updCam p (fun c => { c with frame := some f })
        let d := if f.drop ≠ 0 then d else if f.lines.length ≠ f.cfg.height then d.camDrop p 3 else d.camOutputs p f fab
        d.updCam p Cam.close

/-! ### Descriptors (R736, R739) -/

/-- The descriptor of a frame. -/
def Frame.desc (f : Frame) (done : W64) : List Byte :=
  let fl := b2n (f.drop != 0) + 2 * b2n f.tnrReset + 4 * b2n (f.drop == 0)
  fitTo 512 (toBytes f.seq.toNat 8 ++ toBytes f.fsTime.toNat 8 ++ toBytes f.feTime.toNat 8 ++ toBytes done.toNat 8 ++
    toBytes f.commit.toNat 4 ++ toBytes f.num.toNat 2 ++ toBytes f.cfg.tw 2 ++ toBytes f.cfg.th 2 ++
    [BitVec.ofNat 8 fl, BitVec.ofNat 8 f.drop])

/-- Write the descriptor of a frame; a delivered frame is counted and its FRAMECTR gets an ADD. -/
def Dev.putDesc (d : Dev) (p : Nat) (f : Frame) : Dev :=
  let d := d.write ((d.camTenant f.cfg).getD 0) false (f.cfg.buffer f.seq.toNat) (f.desc d.glb.time)
  if f.drop ≠ 0 then d
  else
    let d := (d.updCam p (fun c => { c with deliv := satInc c.deliv })).trace (0x22 + p) 0x0B (traceData f.seq.toNat 0)
    match f.cfg.frameCtr with
    | some k => d.synPush { ctr := k, op := .add 1, src := 4 + p, needDma := 0, needRem := 0, fn := 0 }
    | none => d

/-- The descriptor of the oldest frame that has ended, or else of the open frame when it has been dropped. -/
def Dev.descWrite (d : Dev) (p : Nat) : Dev :=
  let c := d.cam p
  match c.tail with
  | f :: fs => (d.putDesc p f).updCam p (fun c => { c with tail := fs, draining := c.draining && !fs.isEmpty })
  | [] => match c.frame with
    | some f =>
      if f.drop ≠ 0 ∧ !f.wrote then (d.putDesc p f).updCam p (fun c => { c with frame := some { f with wrote := true } }) else d
    | none => d

end Sys2Proof.Machine
end

