-- ==== Sys2Proof/Machine/Cameras.lean ====
section
/-!
DEFINITION. Machine/Cameras.lean: the meanings of the camera ports (19).
-/
namespace Sys2Proof.Machine

/-- CAM_CONFIG_INPUT (R747): Shadows the camera input block. -/
def execCamConfigInput (f : Fn) (s : State) : Host.Outcome State Fault Refusal :=
  s.run (fun d => d.mail f.val 0x0070 (fun r => r.get 2 2 == 0) (Dev.camBlock))

/-- CAM_CONFIG_NR (R747): Shadows the camera noise-reduction block. -/
def execCamConfigNr (f : Fn) (s : State) : Host.Outcome State Fault Refusal :=
  s.run (fun d => d.mail f.val 0x0070 (fun r => r.get 2 2 == 1) (Dev.camBlock))

/-- CAM_CONFIG_COLOUR (R747): Shadows the camera colour block. -/
def execCamConfigColour (f : Fn) (s : State) : Host.Outcome State Fault Refusal :=
  s.run (fun d => d.mail f.val 0x0070 (fun r => r.get 2 2 == 2) (Dev.camBlock))

/-- CAM_CONFIG_TABLES (R747): Shadows the camera table addresses. -/
def execCamConfigTables (f : Fn) (s : State) : Host.Outcome State Fault Refusal :=
  s.run (fun d => d.mail f.val 0x0070 (fun r => r.get 2 2 == 3) (Dev.camBlock))

/-- CAM_CONFIG_OUTPUT (R747): Shadows the camera output block. -/
def execCamConfigOutput (f : Fn) (s : State) : Host.Outcome State Fault Refusal :=
  s.run (fun d => d.mail f.val 0x0070 (fun r => r.get 2 2 == 4) (Dev.camBlock))

/-- CAM_CONFIG_LINKS (R251): Shadows the camera frame counter link. -/
def execCamConfigLinks (f : Fn) (s : State) : Host.Outcome State Fault Refusal :=
  s.run (fun d => d.mail f.val 0x0070 (fun r => r.get 2 2 == 5) (Dev.camBlock))

/-- CAM_CONFIG_APPLY (R742): Checks the camera shadow set, copies tables and makes it pending. -/
def execCamConfigApply (f : Fn) (s : State) : Host.Outcome State Fault Refusal :=
  s.run (fun d => d.mail f.val 0x0070 (fun r => r.get 2 2 == 0xFFFF) (Dev.camApply))

/-- FRAME_START (R743): An accepted FS opens a frame and activates any pending camera set. -/
def execFrameStart (p : Port) (h : CsiHdr) (num : W16) (s : State) : Host.Outcome State Fault Refusal :=
  s.run (fun d => d.frameStart p.val h num)

/-- FRAME_END (R718): An accepted FE closes the open frame. -/
def execFrameEnd (p : Port) (h : CsiHdr) (num : Over W16) (s : State) : Host.Outcome State Fault Refusal :=
  s.run (fun d => d.frameEnd p.val h num.val num.fab)

/-- CSI_LONG_PACKET (R715): A long packet is processed as a line or discarded. -/
def execCsiLongPacket (p : Port) (h : CsiHdr) (dt : BitVec 6) (crcOk overrun : Bool) (pixels : List W16) (s : State) : Host.Outcome State Fault Refusal :=
  s.run (fun d => d.longPacket p.val h dt.toNat crcOk overrun (pixels.map BitVec.toNat))

/-- DESCRIPTOR_WRITE (R739): After frame outputs are visible the descriptor is written and FRAMECTR added. -/
def execDescriptorWrite (p : Port) (s : State) : Host.Outcome State Fault Refusal :=
  s.run (fun d => d.descWrite p.val)

end Sys2Proof.Machine
end

