-- ==== Sys2Proof/Machine/Control.lean ====
section
/-!
DEFINITION. Machine/Control.lean: the meanings of the branches, compares and predicate instructions (08).
-/
namespace Sys2Proof.Machine

/-- JMP (R329): Continues at this address plus IMM. -/
def execJmp (n : CoreN) (q : Pred) (imm : W64) (s : State) : Host.Outcome State Fault Refusal :=
  s.run (issueJmp n.val q imm)

/-- JMPR (R329): Continues at the address in x[A]. -/
def execJmpr (n : CoreN) (q : Pred) (a : Reg) (s : State) : Host.Outcome State Fault Refusal :=
  s.run (issueJmpr n.val q a.toNat)

/-- CALL (R329): Writes the return address to x[D] and continues at this address plus IMM. -/
def execCall (n : CoreN) (q : Pred) (d : Reg) (imm : W64) (s : State) : Host.Outcome State Fault Refusal :=
  s.run (issueCall n.val q d.toNat imm)

/-- LOOP (R329): Decrements x[A] into x[D] and branches while non-zero. -/
def execLoop (n : CoreN) (q : Pred) (d a : Reg) (imm : W64) (s : State) : Host.Outcome State Fault Refusal :=
  s.run (issueLoop n.val q d.toNat a.toNat imm)

/-- CMP_EQ (R332): Sets p[D] when x[A] equals x[B]. -/
def execCmpEq (n : CoreN) (q : Pred) (d : PReg) (a b : Reg) (s : State) : Host.Outcome State Fault Refusal :=
  s.run (issueCmp .eq n.val q d.toNat a.toNat (.reg b.toNat))

/-- CMP_EQ_I (R332): Equality compare with immediate into p[D]. -/
def execCmpEqI (n : CoreN) (q : Pred) (d : PReg) (a : Reg) (imm : W64) (s : State) : Host.Outcome State Fault Refusal :=
  s.run (issueCmp .eq n.val q d.toNat a.toNat (.imm imm))

/-- CMP_NE (R332): Sets p[D] when x[A] differs from x[B]. -/
def execCmpNe (n : CoreN) (q : Pred) (d : PReg) (a b : Reg) (s : State) : Host.Outcome State Fault Refusal :=
  s.run (issueCmp .ne n.val q d.toNat a.toNat (.reg b.toNat))

/-- CMP_NE_I (R332): Inequality compare with immediate. -/
def execCmpNeI (n : CoreN) (q : Pred) (d : PReg) (a : Reg) (imm : W64) (s : State) : Host.Outcome State Fault Refusal :=
  s.run (issueCmp .ne n.val q d.toNat a.toNat (.imm imm))

/-- CMP_LT (R332): Signed less-than compare into p[D]. -/
def execCmpLt (n : CoreN) (q : Pred) (d : PReg) (a b : Reg) (s : State) : Host.Outcome State Fault Refusal :=
  s.run (issueCmp .lt n.val q d.toNat a.toNat (.reg b.toNat))

/-- CMP_LT_I (R332): Signed less-than compare with immediate. -/
def execCmpLtI (n : CoreN) (q : Pred) (d : PReg) (a : Reg) (imm : W64) (s : State) : Host.Outcome State Fault Refusal :=
  s.run (issueCmp .lt n.val q d.toNat a.toNat (.imm imm))

/-- CMP_GE (R332): Signed greater-or-equal compare into p[D]. -/
def execCmpGe (n : CoreN) (q : Pred) (d : PReg) (a b : Reg) (s : State) : Host.Outcome State Fault Refusal :=
  s.run (issueCmp .ge n.val q d.toNat a.toNat (.reg b.toNat))

/-- CMP_GE_I (R332): Signed greater-or-equal compare with immediate. -/
def execCmpGeI (n : CoreN) (q : Pred) (d : PReg) (a : Reg) (imm : W64) (s : State) : Host.Outcome State Fault Refusal :=
  s.run (issueCmp .ge n.val q d.toNat a.toNat (.imm imm))

/-- CMP_LTU (R332): Unsigned less-than compare into p[D]. -/
def execCmpLtu (n : CoreN) (q : Pred) (d : PReg) (a b : Reg) (s : State) : Host.Outcome State Fault Refusal :=
  s.run (issueCmp .ltu n.val q d.toNat a.toNat (.reg b.toNat))

/-- CMP_LTU_I (R332): Unsigned less-than compare with immediate. -/
def execCmpLtuI (n : CoreN) (q : Pred) (d : PReg) (a : Reg) (imm : W64) (s : State) : Host.Outcome State Fault Refusal :=
  s.run (issueCmp .ltu n.val q d.toNat a.toNat (.imm imm))

/-- CMP_GEU (R332): Unsigned greater-or-equal compare into p[D]. -/
def execCmpGeu (n : CoreN) (q : Pred) (d : PReg) (a b : Reg) (s : State) : Host.Outcome State Fault Refusal :=
  s.run (issueCmp .geu n.val q d.toNat a.toNat (.reg b.toNat))

/-- CMP_GEU_I (R332): Unsigned greater-or-equal compare with immediate. -/
def execCmpGeuI (n : CoreN) (q : Pred) (d : PReg) (a : Reg) (imm : W64) (s : State) : Host.Outcome State Fault Refusal :=
  s.run (issueCmp .geu n.val q d.toNat a.toNat (.imm imm))

/-- FCMP_EQ (R333): binary32 equality compare, 0 on NaN. -/
def execFcmpEq (n : CoreN) (q : Pred) (d : PReg) (a b : Reg) (s : State) : Host.Outcome State Fault Refusal :=
  s.run (issueFcmp .eq n.val q d.toNat a.toNat b.toNat)

/-- FCMP_LT (R333): binary32 less-than compare, 0 on NaN. -/
def execFcmpLt (n : CoreN) (q : Pred) (d : PReg) (a b : Reg) (s : State) : Host.Outcome State Fault Refusal :=
  s.run (issueFcmp .lt n.val q d.toNat a.toNat b.toNat)

/-- FCMP_LE (R333): binary32 less-or-equal compare, 0 on NaN. -/
def execFcmpLe (n : CoreN) (q : Pred) (d : PReg) (a b : Reg) (s : State) : Host.Outcome State Fault Refusal :=
  s.run (issueFcmp .le n.val q d.toNat a.toNat b.toNat)

/-- FCMP_UN (R332): Sets p[D] when either operand is NaN. -/
def execFcmpUn (n : CoreN) (q : Pred) (d : PReg) (a b : Reg) (s : State) : Host.Outcome State Fault Refusal :=
  s.run (issueFcmp .un n.val q d.toNat a.toNat b.toNat)

/-- PAND (R332): Predicate AND. -/
def execPand (n : CoreN) (q : Pred) (d a b : PReg) (s : State) : Host.Outcome State Fault Refusal :=
  s.run (issuePlog .and n.val q d.toNat a.toNat b.toNat)

/-- POR (R332): Predicate OR. -/
def execPor (n : CoreN) (q : Pred) (d a b : PReg) (s : State) : Host.Outcome State Fault Refusal :=
  s.run (issuePlog .or n.val q d.toNat a.toNat b.toNat)

/-- PXOR (R332): Predicate XOR. -/
def execPxor (n : CoreN) (q : Pred) (d a b : PReg) (s : State) : Host.Outcome State Fault Refusal :=
  s.run (issuePlog .xor n.val q d.toNat a.toNat b.toNat)

/-- PANDN (R332): Predicate AND NOT. -/
def execPandn (n : CoreN) (q : Pred) (d a b : PReg) (s : State) : Host.Outcome State Fault Refusal :=
  s.run (issuePlog .andn n.val q d.toNat a.toNat b.toNat)

end Sys2Proof.Machine
end

