-- ==== Sys2Proof/Machine/CoreEvents.lean ====
section
/-!
DEFINITION. Machine/CoreEvents.lean: the meanings of the events of a core: faults, completions, grants, waits, transfers, fetch, run-ahead (07-13).
-/
namespace Sys2Proof.Machine

/-- ILLEGAL_INSTRUCTION (R16): Committed-path decode of an undefined or reserved encoding raises syndrome 0x01. -/
def execIllegalInstruction (n : CoreN) (w : BitVec 128) (s : State) : Host.Outcome State Fault Refusal :=
  s.run (fun d => d.illegal n.val w)

/-- CODE_END_FAULT (R950): Execution continuing past the last instruction raises syndrome 0x02. -/
def execCodeEndFault (n : CoreN) (s : State) : Host.Outcome State Fault Refusal :=
  s.run (fun d => d.codeEnd n.val)

/-- LONG_OP_COMPLETE (R291): A long operation finishes and clears its destination's pending bit. -/
def execLongOpComplete (n : CoreN) (s : State) : Host.Outcome State Fault Refusal :=
  s.run (fun d => d.longDone n.val)

/-- MXE_COMPLETE (R379): The matrix engine writes its result rows and releases its ranges. -/
def execMxeComplete (n : CoreN) (s : State) : Host.Outcome State Fault Refusal :=
  s.run (fun d => d.mxeDone n.val)

/-- VST_WRITE_DONE (R942): A vst row write completes and its write range is released. -/
def execVstWriteDone (n : CoreN) (s : State) : Host.Outcome State Fault Refusal :=
  s.run (fun d => d.vstDone n.val)

/-- SCRATCHPAD_GRANT (R449): A bank grants a waiting port request under the cyclic and narrow-reservation order. -/
def execScratchpadGrant (n : CoreN) (mem : Fin 3) (bank : Fin 8) (upset : Bool) (row : BitVec 10) (word : Fin 64) (ue : Bool) (s : State) :
    Host.Outcome State Fault Refusal :=
  s.run (fun d => d.grant n.val mem.val bank.val (if upset then some (row.toNat, word.val, ue) else none))

/-- EMBER_REPLACE (R345): The ember save reaches its replacement cycle and becomes the recorded ember. -/
def execEmberReplace (n : CoreN) (s : State) : Host.Outcome State Fault Refusal :=
  s.run (fun d => d.emberReplace n.val)

/-- JOB_DONE_RETIRE (R349): job.done retires once earlier operations complete, ending the job. -/
def execJobDoneRetire (n : CoreN) (s : State) : Host.Outcome State Fault Refusal :=
  s.run (fun d => d.retire n.val)

/-- SYNC_READ_RETURN (R338): A core sync READ returns its value. -/
def execSyncReadReturn (n : CoreN) (s : State) : Host.Outcome State Fault Refusal :=
  s.run (fun d => d.syncReturn n.val)

/-- WAIT_GE_RESUME (R256): A satisfied core WAIT_GE resumes issue. -/
def execWaitGeResume (n : CoreN) (s : State) : Host.Outcome State Fault Refusal :=
  s.run (fun d => d.resumeIf n.val Core.syncSat)

/-- ARR_WAIT_RESUME (R398): arr.wait resumes when its arrival counter reaches its value. -/
def execArrWaitResume (n : CoreN) (s : State) : Host.Outcome State Fault Refusal :=
  s.run (fun d => d.resumeIf n.val Core.arrSat)

/-- XFER_FENCE_RESUME (R400): xfer.fence resumes once earlier transfers are complete. -/
def execXferFenceResume (n : CoreN) (s : State) : Host.Outcome State Fault Refusal :=
  s.run (fun d => d.resumeIf n.val Core.fenceSat)

/-- RING_PUSH_RESUME (R394): A waiting ring.push issues once the ring has enough free rows. -/
def execRingPushResume (n : CoreN) (s : State) : Host.Outcome State Fault Refusal :=
  s.run (fun d => d.pushResume n.val)

/-- HEAD_COUNT_REPORT (R394): A destination reports a changed ring head count to the pushing core. -/
def execHeadCountReport (n : CoreN) (h : Handle) (s : State) : Host.Outcome State Fault Refusal :=
  s.run (fun d => d.headReport n.val h.toNat)

/-- DMA_TRANSFER_COMPLETE (R388): A queued DMA transfer completes and the next queued one starts. -/
def execDmaTransferComplete (n : CoreN) (host : List Byte) (s : State) : Host.Outcome State Fault Refusal :=
  s.run (fun d => d.dmaComplete n.val host)

/-- DMA_ROW_RESIDENT (R386): An ASYNC dma.rd row becomes resident and increments its arrival counter. -/
def execDmaRowResident (n : CoreN) (host : List Byte) (s : State) : Host.Outcome State Fault Refusal :=
  s.run (fun d => d.dmaResident n.val host)

/-- REMOTE_TRANSFER_COMPLETE (R397): A queued rw.put or ring.push transfer completes. -/
def execRemoteTransferComplete (n : CoreN) (s : State) : Host.Outcome State Fault Refusal :=
  s.run (fun d => d.remoteComplete n.val)

/-- REMOTE_ROW_ARRIVE (R391): An arriving remote or ring row is written whole and counts on the arrival counter. -/
def execRemoteRowArrive (n : CoreN) (fab : Fabric) (s : State) : Host.Outcome State Fault Refusal :=
  s.run (fun d => d.remoteRow n.val fab)

/-- DMA_ERROR_RESPONSE (R308): An error response to a DMA access raises asynchronous syndrome 0x20. -/
def execDmaErrorResponse (n : CoreN) (s : State) : Host.Outcome State Fault Refusal :=
  s.run (fun d => d.dmaError n.val)

/-- ICACHE_MISS_FILL (R296): A demand instruction-cache miss line fill completes. -/
def execIcacheMissFill (n : CoreN) (line : BitVec 26) (s : State) : Host.Outcome State Fault Refusal :=
  s.run (fun d => d.missFill n.val line.toNat)

/-- BRANCH_MISPREDICT (R330): A mispredicted branch resolves and redirects the committed path after 6 CCLK. -/
def execBranchMispredict (n : CoreN) (fetched : Fin 6) (s : State) : Host.Outcome State Fault Refusal :=
  s.run (fun d => d.resolve n.val fetched.val)

/-- RUN_AHEAD_ENTER (R531): A wait held for 16 CCLK enters run-ahead with a shadow register copy. -/
def execRunAheadEnter (n : CoreN) (s : State) : Host.Outcome State Fault Refusal :=
  s.run (fun d => d.raEnter n.val)

/-- RUN_AHEAD_ISSUE (R532): Run-ahead issues a following instruction into the shadow state. -/
def execRunAheadIssue (n : CoreN) (w : BitVec 128) (s : State) : Host.Outcome State Fault Refusal :=
  s.run (fun d => d.raIssue n.val w)

end Sys2Proof.Machine
end

