-- ==== Sys2Proof/Machine/SessionOps.lean ====
section
/-!
DEFINITION. Machine/SessionOps.lean: PST sessions: OPEN, CLOSE, dormant sessions, record 0x0020 (20), and the quotas of tenants (16).
-/
namespace Sys2Proof.Machine

/-! ### Quotas (R622, R623) -/

/-- A quota of tenant `t`: the device total less the others' quotas for tenant 0. -/
def Dev.quota (d : Dev) (t total : Nat) (f : Tenant → Nat) : Nat :=
  if t = 0 then total - ((d.ten.filter (fun e => e.1 != 0)).map (fun e => f e.2)).sum else f (d.tenant t)

/-- Blocks that tenant `t` holds. -/
def Dev.blocksOf (d : Dev) (t : Nat) : List Nat := (d.syn.owner.filter (fun e => e.2 == t + 1)).map Prod.fst

/-- Sessions of tenant `t` that are open, or closed with slots still held. -/
def Dev.sessionsOf (d : Dev) (t : Nat) : List Nat :=
  d.net.sessions.filterMap (fun e => match e.2 with
    | some s => if s.tenant = t && !s.dormant then some e.1 else none
    | none => none)

/-! ### OPEN (R767-R769) -/

/-- The queues of a range that a session may not name: absent, of another tenant, with a ring in host space, of another open session,
or the target of an armed RELEASE. -/
def Dev.sessQueueBad (d : Dev) (t u : Nat) : Bool :=
  match d.queue u with
  | none => true
  | some q =>
    q.dying || q.tenant != t || decide (2 ^ 63 ≤ q.desc.sqBase) || decide (2 ^ 63 ≤ q.desc.cqBase) || q.pst.isSome ||
      d.syn.arms.any (fun e => e.2.armed && decide (e.2.action = 1) && decide (e.2.target.toNat = u))

/-- Bytes of the headers of an encapsulation. -/
def encapBytes (e : Nat) : Nat := if e = 1 then 28 else if e = 2 then 48 else 0

/-- A test on the parameters of every port that a session names. -/
def Dev.onPorts (d : Dev) (ports : Nat) (p : EthCfg → Bool) : Bool := [0, 1].any (fun i => bit1 ports i && p (d.eth i).cfg)

/-- The messages of a session exceed an MTU: the request, the response. -/
def mtuBad (encap pMax rRows mtu : Nat) : Bool × Bool :=
  (decide (mtu < encapBytes encap + 40 + pMax * 512), decide (mtu < encapBytes encap + 64 + rRows * 512))

/-- Fields of OPEN DATA that offend, by offset in DATA (R768). -/
def Dev.openBad (d : Dev) (t : Nat) (b : List Byte) : List (Nat × Bool) :=
  let g := fieldAt b
  let ports := g 0 1
  let encap := g 1 1
  let n := g 8 2
  let sig := g 48 4
  let fam (c : EthCfg) : Bool := (encap == 1 && !c.v4En) || (encap == 2 && !c.v6En)
  [(0, decide (ports = 0) || decide (3 < ports)), (1, decide (2 < encap) || d.onPorts ports fam), (2, decide (7 < g 2 1)),
   (3, decide (1 < g 3 1)), (4, decide (65536 < g 4 4 + n) || (span (g 4 4) (min n 64)).any (d.sessQueueBad t)),
   (8, decide (n = 0) || decide (64 < n)), (10, decide (g 10 2 = 0) || decide (1024 < g 10 2)),
   (12, decide (16 < g 12 1) || d.onPorts ports (fun c => (mtuBad encap (g 12 1) 0 c.mtu).1)),
   (13, decide (8 < g 13 1) || d.onPorts ports (fun c => (mtuBad encap 0 (g 13 1) c.mtu).2)),
   (14, decide (4094 < g 14 2)), (24, encap == 1 && decide (g 28 12 ≠ 0)),
   (40, decide (g 40 8 % 512 ≠ 0) || !d.inReach t (g 40 8) (g 10 2 * (g 12 1 + 8) * 512)),
   (48, decide (bits sig 17 14 ≠ 0) || (bit1 sig 31 && !d.ownsCtr t (bits sig 0 17))), (52, decide (g 52 4 ≠ 0))]

/-- A session as its DATA gives it. -/
def sessionOf (t : Nat) (b : List Byte) (persist : Bool) : Session :=
  let g := fieldAt b
  { open_ := true, tenant := t, ports := BitVec.ofNat 2 (g 0 1), encap := g 1 1, pcp := g 2 1, noticeEn := bit1 (g 3 1) 0,
    qBase := g 4 4, qCount := g 8 2, pSlots := g 10 2, pMax := g 12 1, rRows := g 13 1, vid := g 14 2, peerMac := g 16 6,
    peerPort := g 22 2, peerIp := g 24 16, sBase := g 40 8, sigCtr := BitVec.ofNat 32 (g 48 4), data := fitTo 56 b, persist := persist }

/-- Session `s` opens for tenant `t`. -/
def Dev.openSession (d : Dev) (s t : Nat) (b : List Byte) (persist : Bool) : Dev :=
  let x := sessionOf t b persist
  (span x.qBase x.qCount).foldl (fun d u => d.updQueue u (fun q => { q with pst := some s })) (d.setSession s (some x))

/-- The open session of tenant `t` that names queue `u` (R769). -/
def Dev.sessionNaming (d : Dev) (t u : Nat) : Option Nat :=
  d.net.sessions.findSome? (fun e => match e.2 with
    | some x => if x.open_ && x.tenant == t && decide (x.qBase ≤ u) && decide (u < x.qBase + x.qCount) then some e.1 else none
    | none => none)

/-- Dormant sessions whose tenant exists and whose DATA passes every check open (R788). -/
def Dev.openDormant (d : Dev) : Dev :=
  d.net.sessions.foldl (fun d e => match e.2 with
    | some x =>
      if x.dormant && d.tenExists x.tenant && (firstBad (d.openBad x.tenant x.data)).isNone &&
        decide ((d.sessionsOf x.tenant).length < d.quota x.tenant 4096 Tenant.sessions) then
        d.openSession e.1 x.tenant x.data x.persist
      else d
    | none => d) d

/-- CLOSE of session `s` (R770): a dormant session is gone at once, an open one when its last slot is released. -/
def Dev.closeSession (d : Dev) (s : Nat) : Dev :=
  match d.session s with
  | none => d
  | some x =>
    let us := if x.dormant then [] else span x.qBase x.qCount
    let d := us.foldl (fun d u => d.updQueue u (fun q => if q.pst = some s then { q with pst := none } else q)) d
    if x.slots.isEmpty then d.setSession s none else d.setSession s (some { x with open_ := false, dormant := false })

/-! ### Record 0x0020 (R785, R786) -/

/-- An entry: KIND, UNIT, ID, DATA. -/
structure NetRec where
  kind : Nat
  unit : Nat
  id : Nat
  data : List Byte

/-- Entries of the record. `n` bounds their number. -/
def parseNet : Nat → List Byte → List NetRec
  | 0, _ => []
  | n + 1, b =>
    if b.length < 8 then []
    else
      let len := fieldAt b 4 2
      { kind := fieldAt b 0 1, unit := fieldAt b 1 1, id := fieldAt b 2 2, data := (b.drop 8).take len } ::
        parseNet n (b.drop (8 + cdiv len 4 * 4))

/-- One entry as stored. -/
def NetRec.bytes (r : NetRec) : List Byte :=
  [BitVec.ofNat 8 r.kind, BitVec.ofNat 8 r.unit] ++ toBytes r.id 2 ++ toBytes r.data.length 2 ++ [0, 0] ++
    fitTo (cdiv r.data.length 4 * 4) r.data

/-- Entries stored now. -/
def Dev.netRecs (d : Dev) : List NetRec := parseNet 8192 ((d.record? 0x0020).getD [])

/-- Rewrite the record. -/
def Dev.storeNet (d : Dev) (rs : List NetRec) (ok : Bool) : Bool × Dev := d.storeRecord 0x0020 (some (rs.flatMap NetRec.bytes)) ok

/-- The entry of a session. -/
def NetRec.isSession (s : Nat) (r : NetRec) : Bool := r.kind == 1 && r.id == s

/-! ### PST_SESSION (04) -/

/-- PST_SESSION OPEN. -/
def Dev.pstOpen (store : Bool) (r : Req) (d : Dev) : Service :=
  let t := tenField r.fn (r.get 1 1)
  let b := r.pay.drop 8
  let n := r.get 2 2
  let s := if n = 0xFFFF then SMap.firstFree d.net.sessions 0 else n
  let persist := bit1 (r.get 4 1) 0
  let bad := d.openBad t b
  Service.of { size := 64, reserved := [(5, 3)] }
    { denied := d.barred r || r.fn != 0
      bad := [(1, decide (127 < t) || !d.tenExists t), (2, n != 0xFFFF && (decide (4095 < n) || (d.session n).isSome)),
        (4, decide (1 < r.get 4 1))] ++ bad.map (fun x => (8 + x.1, x.2))
      full := decide (d.quota t 4096 Tenant.sessions ≤ (d.sessionsOf t).length) || decide (4095 < s) }
    (.now fun d =>
      let d := d.openSession s t b persist
      let e : NetRec := { kind := 1, unit := t, id := s, data := fitTo 56 b }
      let d := if persist then (d.storeNet (d.netRecs.filter (fun x => !x.isSession s) ++ [e]) store).2 else d
      (stOk, toBytes s 2 ++ [0, 0], d))

/-- PST_SESSION CLOSE. -/
def Dev.pstClose (store : Bool) (r : Req) (d : Dev) : Service :=
  let s := r.get 2 2
  let t := r.get 1 1
  let ok := match d.session s with
    | some x => (x.open_ || x.dormant) && (t == 0xFF || t == x.tenant || r.fn == 0)
    | none => false
  Service.of { size := 8, reserved := [(5, 3)] }
    { denied := d.barred r || r.fn != 0
      bad := [(1, t != 0xFF && decide (127 < t)), (2, !ok), (4, decide (1 < r.get 4 1))] }
    (.now fun d =>
      let d := d.closeSession s
      let d := if bit1 (r.get 4 1) 0 then (d.storeNet (d.netRecs.filter (fun x => !x.isSession s)) store).2 else d
      (stOk, toBytes s 2 ++ [0, 0], d))

/-- QUERY DATA of a session (R770). -/
def queryData : Option Session → List Byte
  | none => List.replicate 24 0
  | some x =>
    [if x.dormant then 2 else if x.open_ then 1 else 0, 0] ++ toBytes x.slots.length 2 ++
      toBytes (x.lastSeq.map BitVec.toNat |>.getD 0) 4 ++ toBytes x.accepted.toNat 4 ++ toBytes x.notices.toNat 4 ++
      toBytes x.evicted.toNat 4 ++ toBytes x.responses.toNat 4

/-- PST_SESSION QUERY. A dormant session belongs to no tenant (R788): a VF that names one is answered DENIED (log 137). -/
def Dev.pstQuery (r : Req) (d : Dev) : Service :=
  let s := r.get 2 2
  let t := r.get 1 1
  let mine := match d.session s with
    | some x => !x.dormant && x.tenant == r.fn
    | none => true
  Service.of { size := 8, reserved := [(5, 3)] }
    { denied := d.barred r || (r.fn != 0 && (tenField r.fn t != r.fn || !mine))
      bad := [(1, t != 0xFF && decide (127 < t)), (2, decide (4095 < s)), (4, decide (1 < r.get 4 1))] }
    (.now fun d => (stOk, toBytes s 2 ++ [0, 0] ++ queryData (d.session s), d))

end Sys2Proof.Machine
end

