-- ==== Sys2Proof/Machine/ObjOps.lean ====
section
/-!
DEFINITION. Machine/ObjOps.lean: mailbox commands about the device, queues, programs and sync blocks (04, 05, 06, 14).
-/
namespace Sys2Proof.Machine

/-! ### GET_INFO (R168, R126) -/

/-- BOOTFL (R891). -/
def Glb.bootFl (g : Glb) : Nat := b2n g.fallback + 2 * b2n g.recovery + 4 * b2n g.cfgDefault + 8 * b2n g.trial

/-- Code of a grade (GLB_CAP.GRADE). -/
def Grade.code : Grade → Nat
  | .a1618 => 0
  | .b1618 => 1
  | .a1212 => 2

/-- Further queues that tenant `t` may create. -/
def Dev.queuesLeft (d : Dev) (t : Nat) : Nat :=
  min (d.quota t 65536 Tenant.queues - (d.queuesOf t).length) (65536 - d.stk.queues.length)
/-- Unallocated sync blocks (SYN_STATUS.FREEBLK). -/
def Dev.freeBlocks (d : Dev) : Nat := 512 - d.syn.owner.length
/-- Further sync blocks that tenant `t` may allocate. -/
def Dev.blocksLeft (d : Dev) (t : Nat) : Nat := min (d.quota t 512 Tenant.blocks - (d.blocksOf t).length) d.freeBlocks
/-- Reservation cap of tenant `t` (R622). -/
def Dev.tokenCap (d : Dev) (t : Nat) : Nat := if t = 0 then d.fuse.grade.pool else (d.tenant t).tokens

/-- The payload of GET_INFO for function `f`; the boot ROM reports 0 for what firmware and DRAM give. -/
def Dev.info (d : Dev) (f : Nat) : List Byte :=
  let g := d.glb
  let fw := decide (d.kiln.fw = .fw)
  let of (n : Nat) : Nat := if fw then n else 0
  let b (n : Nat) : Byte := BitVec.ofNat 8 n
  toBytes 1 2 ++ toBytes (of d.kiln.img.abiMinor.toNat) 2 ++ toBytes (of d.kiln.img.build.toNat) 4 ++
    toBytes (of d.kiln.img.svn.toNat) 4 ++
    [1, b f, b (d.countSt .active), b (d.countSt .banked), b (d.countSt .maint), b (d.countSt .fenced), b d.fuse.grade.code,
      b (b2n d.fuse.revB0)] ++ toBytes d.kiln.epoch.toNat 4 ++ [b (b2n g.slot), b g.bootFl, 0, 0] ++ toBytes (of d.mem.usable) 4 ++
    toBytes (d.queuesLeft f) 4 ++ toBytes (d.blocksLeft f) 2 ++ [b (d.tokenCap f), b d.fuse.grade.ceil]

def Dev.getInfo (r : Req) (_ : Dev) : Service := Service.of { size := 0 } {} (.now fun d => (stOk, d.info r.fn, d))

/-! ### Queues (R203-R205, R172) -/

/-- A descriptor (Table 5-1). -/
def descOf (b : List Byte) : Desc :=
  let g := fieldAt b
  { sqBase := g 0 8, cqBase := g 8 8, headWb := g 16 8, kBase := g 24 8, sqLog := g 32 1, cqLog := g 33 1, cls := g 34 1,
    presolve := bit1 (g 35 1) 0, strict := bit1 (g 35 1) 1, irq := bit1 (g 35 1) 2, vector := g 36 2, maxInfl := g 38 2,
    kRows := g 40 2, prRows := g 42 2, kCount := g 44 2 }

/-- Vectors of a function (Table 21-4). -/
def vectors (f : Nat) : Nat := if f = 0 then 2048 else 64

/-- Lowest vector of a function that a queue may name (Table 21-4). -/
def vectorLow (f : Nat) : Nat := if f = 0 then 16 else 1

/-- Fields of a descriptor that offend, by offset (R203). -/
def Dev.descBad (d : Dev) (t : Nat) (b : List Byte) : List (Nat × Bool) :=
  let e := descOf b
  let ring (a n : Nat) : Bool := a % 4096 != 0 || !d.reachable t a n
  let out (x lo hi : Nat) : Bool := decide (x < lo) || decide (hi < x)
  let kn := e.kCount * (e.kRows + e.prRows) * 512
  [(0, ring e.sqBase (if e.sqLog ≤ 16 then 64 * e.sqSize else 64)), (8, ring e.cqBase (if e.cqLog ≤ 16 then 32 * e.cqSize else 32)),
   (16, e.headWb % 8 != 0 || !d.reachable t e.headWb 8),
   (24, if e.kCount = 0 then e.kBase != 0 else e.kBase % 512 != 0 || !d.inReach t e.kBase kn),
   (32, out e.sqLog 4 16), (33, out e.cqLog 4 16), (34, out e.cls 0 7), (35, out (fieldAt b 35 1) 0 7),
   (36, out e.vector (vectorLow t) (vectors t - 1)), (38, out e.maxInfl 1 1024), (40, out e.kRows 0 64),
   (42, out e.prRows 0 511 || (e.prRows != 0 && !e.presolve)), (44, out e.kCount 0 256), (46, decide (fieldAt b 46 18 ≠ 0))]

/-- Extents in the firmware region that are in use: base and length. -/
def Dev.fwExtents (d : Dev) : List (Nat × Nat) :=
  d.progs.filterMap (fun e => e.2.map (fun p => (p.base, p.len))) ++
  d.stk.queues.filterMap (fun e => e.2.map (fun q => (q.ovfl, 128)))

/-- The lowest 64-byte aligned free extent of the firmware region (R629). -/
def Dev.fwAlloc (d : Dev) (n : Nat) : Option Nat :=
  let es := d.fwExtents
  let ok (a : Nat) : Bool := decide (a + n ≤ d.usable) && es.all (fun e => decide (a + n ≤ e.1) || decide (e.1 + e.2 ≤ a))
  lowest ((d.fwBase :: es.map (fun e => cdiv (e.1 + e.2) 64 * 64)).filter ok)

/-- The lowest free direct doorbell of function `f`'s page; 0 for none (R205). -/
def Dev.freeBell (d : Dev) (f : Nat) : Nat :=
  (((List.range 511).map (fun i => 8 * (i + 1))).find? (fun o => (d.queueAt f o).isNone)).getD 0

/-- A queue as created. -/
def newQueue (t : Nat) (e : Desc) (ovfl dbofs : Nat) : Queue := { tenant := t, desc := e, ovfl := ovfl, dbofs := dbofs }

/-- CREATE_QUEUE. -/
def Dev.createQueue (r : Req) (d : Dev) : Service :=
  let t := tenField r.fn (r.get 4 1)
  let n := r.get 0 4
  let u := if n = 0xFFFFFFFF then SMap.firstFree d.stk.queues 0 else n
  let b := r.pay.drop 8
  let taken := n != 0xFFFFFFFF && (decide (65535 < n) || (d.queue n).isSome)
  Service.of { size := 72, reserved := [(5, 3)] }
    { denied := d.barred r || tenDenied r.fn (r.get 4 1)
      bad := [(0, taken), (4, decide (127 < t) || !d.tenExists t)] ++ (d.descBad t b).map (fun x => (8 + x.1, x.2))
      full := decide (d.queuesLeft t = 0) || (d.fwAlloc 128).isNone }
    (.now fun d =>
      let o := (d.fwAlloc 128).getD 0
      let db := d.freeBell t
      let d := ((d.setQueue u (some { newQueue t (descOf b) o db with pst := d.sessionNaming t u })).widenDrain).headWb u
      (stOk, toBytes u 4 ++ toBytes db 4 ++ toBytes o 8, d.openDormant))

/-- The queue that a request names: absent or being destroyed, and not permitted to the function (R165). -/
def Dev.queueArg (d : Dev) (f u : Nat) : Bool × Bool :=
  match d.queue u with
  | some q => (q.dying, f != 0 && q.tenant != f)
  | none => (true, false)

/-- DESTROY_QUEUE takes effect: fetch stops and admitted jobs expire (R172). -/
def Dev.destroyQueue (d : Dev) (u : Nat) : Dev :=
  (d.updQueue u (fun q => { q with dying := true })).expireQueue u

/-- A dispatched job of one of the queues has not ended. -/
def Dev.dispatchedIn (d : Dev) (us : List Nat) : Bool := d.jobKeys (fun j => us.contains j.queue && j.onCores) ≠ []

/-- DESTROY_QUEUE. It defers while a job of the queue runs. -/
def Dev.destroyCmd (r : Req) (d : Dev) : Service :=
  let u := r.get 0 4
  let a := d.queueArg r.fn u
  Service.of { size := 4 } { denied := d.barred r || a.2, bad := [(0, a.1)] }
    (if d.dispatchedIn [u] then .defer (.destroyQueue u) (fun d => d.destroyQueue u)
     else .now fun d => (stOk, [], (d.destroyQueue u).queueGone u))

/-! ### Programs (R557-R566, R173-R175) -/

/-- Rows of a handle, all copies. -/
def HDesc.rows (h : HDesc) : Nat := if h.versioned then 2 * h.count else h.count

/-- Two handles share a row. -/
def HDesc.overlaps (a b : HDesc) : Bool :=
  a.mem == b.mem && decide (a.base < b.base + b.rows) && decide (b.base < a.base + a.rows)

/-- A descriptor fails R460 or R462 by itself. -/
def handleBad (w : W64) : Bool :=
  let n := w.toNat
  let h := decodeHandle w
  let rsv := bits n 2 6 != 0 || bits n 29 3 != 0 || bits n 37 3 != 0 || bits n 47 16 != 0
  if !h.valid then rsv
  else
    rsv || h.mem == 3 || h.count == 0 || decide (1024 < h.count) || decide (memRows h.mem < h.base + h.rows) ||
    (h.resident && h.scratch) ||
    (h.versioned && (h.mem == 0 || h.ring || h.remote || h.resident || h.actr.isSome))

/-- A VERSIONED handle shares a row with another. -/
def tableBad (hs : List HDesc) : Bool :=
  (List.range hs.length).any (fun i => (List.range hs.length).any (fun k =>
    match hs[i]?, hs[k]? with
    | some a, some b => i != k && a.valid && b.valid && a.versioned && a.overlaps b
    | _, _ => false))

/-- The handles that take the parameter and kindling loads are as R561 asks. -/
def loadHandlesBad (hs : List HDesc) (ph : Nat) (kh : Option Nat) : Bool :=
  match hs[ph]? with
  | none => true
  | some p =>
    !p.valid || p.mem != 1 || p.versioned || p.ring || p.remote ||
    (match kh with
      | none => false
      | some k => match hs[k]? with
        | none => true
        | some h => !h.valid || h.mem != 1 || h.versioned || h.ring || h.overlaps p)

/-- Words of `k` bytes, `n` of them, from an offset. -/
def wordsAt (b : List Byte) (ofs k n : Nat) : List Nat := (List.range n).map (fun i => fieldAt b (ofs + k * i) k)

/-- The program that an image declares (Table 14-1), under the clock of the grade (R560). -/
def progOf (g : Grade) (t base len : Nat) (b : List Byte) : Prog :=
  let f := fieldAt b
  let kh := f 12 1
  { tenant := t, base := base, len := len, isa := f 6 1, nMin := f 7 1, nMax := f 8 1, nPhase := f 9 1, rsv := f 10 1,
    paramH := f 11 1, kindH := if kh = 0xFF then none else some kh, ttfe := if g = .b1618 then f 20 4 else f 16 4,
    fpc := BitVec.ofNat 32 (f 24 4), codeOfs := f 28 4, codeLen := f 32 4, entry := f 36 4, claims := wordsAt b 64 1 64,
    handles := (wordsAt b 128 8 64).map (BitVec.ofNat 64),
    budgets := (wordsAt b 640 4 (f 9 1 * (f 8 1 + 1 - f 7 1))).map (BitVec.ofNat 32) }

/-- The image fails a check of R561 or R175. -/
def imageBad (len : Nat) (b : List Byte) : Bool :=
  let f := fieldAt b
  let p := progOf .a1618 0 0 len b
  let hs := p.handles.map decodeHandle
  let out (x lo hi : Nat) : Bool := decide (x < lo) || decide (hi < x)
  decide (len < 640) || decide (b.take 4 ≠ [0x50, 0x56, 0x43, 0x50]) || f 4 2 != 1 || f 13 3 != 0 || f 44 20 != 0 ||
  f 40 4 != crc32 (b.take 40 ++ (b.take len).drop 44) || out p.isa 1 1 || out p.nMin 1 18 || out p.nMax p.nMin 18 ||
  out p.nPhase 1 64 || out p.rsv 0 3 || out p.paramH 0 63 || (f 12 1 != 0xFF && decide (63 < f 12 1)) || f 16 4 == 0 || f 20 4 == 0 ||
  p.codeOfs % 64 != 0 || p.codeLen == 0 || p.codeLen % 16 != 0 || decide (p.codeLen / 16 ≤ p.entry) ||
  (p.claims.zip (List.range 64)).any (fun e => decide (3 < e.1) || (decide (p.nPhase ≤ e.2) && e.1 != 0)) ||
  decide (p.codeOfs < 640 + 4 * p.budgets.length) || decide (len < p.codeOfs + p.codeLen) || p.handles.any handleBad || tableBad hs ||
  decide (fpcWrite p.fpc p.fpc ≠ (p.fpc, false)) || loadHandlesBad hs p.paramH p.kindH

/-- Programs of tenant `t`. -/
def Dev.progsOf (d : Dev) (t : Nat) : List Nat :=
  d.progs.filterMap (fun e => match e.2 with
    | some p => if p.tenant = t then some e.1 else none
    | none => none)

/-- LOAD_PROGRAM commands that have not finished, and those for tenant `t`. -/
def Dev.loadsPending (d : Dev) : List Nat :=
  d.kiln.deferred.filterMap (fun x => match x.op with
    | .loadProgram _ _ t => some t
    | _ => none)

/-- LOAD_PROGRAM: the request is checked at once, the image once it has been read. -/
def Dev.loadCmd (r : Req) (d : Dev) : Service :=
  let t := tenField r.fn (r.get 12 1)
  let a := r.get 0 8
  let n := r.get 8 4
  Service.of { size := 16, reserved := [(13, 3)] }
    { denied := d.barred r || tenDenied r.fn (r.get 12 1)
      bad := [(0, !d.reachable t a n), (8, decide (n = 0) || decide (2 ^ 24 < n)), (12, decide (127 < t) || !d.tenExists t)]
      full := decide (256 ≤ (d.progsOf t).length + (d.loadsPending.filter (· == t)).length) ||
        decide (1024 ≤ d.progs.length + d.loadsPending.length) || (d.fwAlloc n).isNone }
    (.defer (.loadProgram a n t) id)

/-- The image of LOAD_PROGRAM has been read: from device DRAM, or `host` as host space gave it. The outcome (R561, R175). `ok` fails where host
space gives an error, or the fabric delivers the first flit poisoned (log 143). -/
def Dev.loadFinish (d : Dev) (a n t : Nat) (host : List Byte) (ok : Bool) : (Nat × List Byte) × Dev :=
  let inH := inHost a n
  let bs := if inH then fitTo n host else d.peek a n
  let lost := !ok || (if inH then !d.hostReads t false else d.poisoned a n)
  let d := if inH then d.hostRead t a n else d.countRead a n
  let d := if !inH && !ok then d.fabricError true (flitNode (a / 64)) 3 else d
  if lost then ((stFault, []), d)
  else
    if imageBad n bs || !d.tenExists t then ((stInvalid, []), d)
    else match d.fwAlloc n with
      | none => ((stNoResource, []), d)
      | some base =>
        let p := progOf d.fuse.grade t base n bs
        let k := d.kiln.nextProg
        let d := d.poke base bs
        let d := { d with progs := SMap.set none d.progs k (some p), kiln := { d.kiln with nextProg := k + 1 } }
        ((stOk, toBytes k 4 ++ [BitVec.ofNat 8 p.nMin, BitVec.ofNat 8 p.nMax, BitVec.ofNat 8 p.isa, 0] ++ toBytes p.ttfe 4), d)

/-- Reserved half-tokens of tenant `t` were every core to hold level `r`. -/
def Dev.reservedWith (d : Dev) (t r : Nat) : Nat :=
  r * (d.coresOf t).length + (((List.range 128).filter (· != t)).map (fun x => d.rhoOf x * (d.coresOf x).length)).sum

/-- BIND_PROGRAM (R173, R505, R563-R566). -/
def Dev.bindCmd (r : Req) (d : Dev) : Service :=
  let u := r.get 0 4
  let k := r.get 4 4
  let nreq := r.get 8 1
  let a := d.queueArg r.fn u
  let q := (d.queue u).getD {}
  let p := (d.prog k).getD {}
  let has := (d.prog k).isSome && !p.dying
  let c := (d.coresOf q.tenant).length
  let n := if nreq = 0 then min p.nMax c else nreq
  let rho := max (d.rhoOf q.tenant) p.rsv
  let rowsBad := match p.kindH with
    | some h => decide (p.handleCount (some h) < q.desc.kRows)
    | none => q.desc.kRows != 0
  Service.of { size := 12, reserved := [(9, 3)] }
    { denied := d.barred r || a.2 || (has && (d.queue u).isSome && p.tenant != q.tenant) || (has && r.fn != 0 && p.tenant != r.fn)
      bad := [(0, a.1), (4, !has || (!a.1 && (rowsBad || decide (p.handleCount (some p.paramH) < q.desc.prRows + 1)))),
        (8, has && nreq != 0 && (decide (nreq < p.nMin) || decide (p.nMax < nreq)))]
      busy := d.held u
      full := decide (n < p.nMin) || decide (c < n) || decide (d.tokenCap q.tenant < rho * c) ||
        decide (d.blw.size < d.reservedWith q.tenant rho) }
    (.now fun d =>
      let d := d.updQueue u (fun q => { q with bind := some { prog := k, nreq := nreq, n := n } })
      let d := (d.reserve q.tenant).headWb u
      (stOk, [BitVec.ofNat 8 n, BitVec.ofNat 8 (rho * c), 0, 0], d))

/-- UNBIND (R174, R508). -/
def Dev.unbindCmd (r : Req) (d : Dev) : Service :=
  let u := r.get 0 4
  let a := d.queueArg r.fn u
  let q := (d.queue u).getD {}
  Service.of { size := 4 } { denied := d.barred r || a.2, bad := [(0, a.1 || q.bind.isNone)] }
    (.now fun d => (stOk, [], ((d.updQueue u (fun q => { q with bind := none })).reserve q.tenant).headWb u))

/-! ### Sync blocks (R176, R246, R272) -/

/-- The lowest run of `n` free blocks. -/
def Dev.freeRun (d : Dev) (n : Nat) : Option Nat :=
  firstWith (fun b => decide (b + n ≤ 512) && (span b n).all (fun x => SMap.get 0 d.syn.owner x == 0)) 512

/-- A wait on a counter of a freed block is never satisfied (R273): it watches no counter any more. -/
def Core.unwatch (c : Core) (inB : Nat → Bool) : Core :=
  match c.wait with
  | .sync ctr t false => if inB (ctr / 256) then { c with wait := .sync 131072 t false } else c
  | _ => c

/-- An operation that has not been applied when its counter leaves its tenant changes no counter (Table 6-2): a host's is counted, a core's
ends its job FAULT. -/
def Dev.synLost (d : Dev) (p : SynPend) : Dev :=
  if p.src = 0 then d.accErr p.fn p.ctr
  else if 6 ≤ p.src then d.coreFault (p.src - 6) 0x0B noAddr
  else d

/-- Give blocks to tenant `t`, or free them (`none`): counters zeroed, not BAD, arm slots cleared. -/
def Dev.setBlocks (d : Dev) (b n : Nat) (t : Option Nat) : Dev :=
  let inB (k : Nat) : Bool := decide (b ≤ k) && decide (k < b + n)
  let d := (d.syn.pend.filter (fun p => inB (p.ctr / 256))).foldl Dev.synLost d
  { d with cores := SMap.mapV {} (fun _ c => c.unwatch inB) d.cores, syn := { d.syn with
    pend := d.syn.pend.filter (fun p => !inB (p.ctr / 256))
    ctr := SMap.keep (fun k _ => !inB (k / 256)) d.syn.ctr
    bad := SMap.keep (fun k _ => !inB (k / 256)) d.syn.bad
    arms := SMap.keep (fun k _ => !inB (k / 16)) d.syn.arms
    owner := (span b n).foldl (fun m x => SMap.set 0 m x ((t.map (· + 1)).getD 0)) d.syn.owner } }

/-- A counter of the SLE or of a camera configuration. -/
def Dev.cfgCtrs (d : Dev) : List Nat :=
  let sle (c : SleCfg) : List Nat := c.cmt.toList ++ c.ack.toList ++ c.samp.toList
  let cam (i : Nat) : List Nat :=
    let c := SMap.get {} d.cams i
    c.shadow.frameCtr.toList ++ c.active.frameCtr.toList ++ ((c.pend.map (fun p => p.1.frameCtr.toList)).getD [])
  sle d.sle.shadow ++ sle d.sle.cfg ++ ((d.sle.pend.map sle).getD []) ++ cam 0 ++ cam 1

/-- Blocks that a fetched job, or the SLE or a camera configuration, names. -/
def Dev.ctrsInUse (d : Dev) : List Nat :=
  d.cfgCtrs ++ d.stk.jobs.flatMap (fun e => match e.2 with
    | some j => j.waitCtr.toList ++ j.sigCtr.toList ++ j.measCtr.toList
    | none => [])

/-- SYNC_ALLOC with OP ALLOC. -/
def Dev.syncAlloc (r : Req) (d : Dev) : Service :=
  let t := tenField r.fn (r.get 1 1)
  let n := r.get 2 2
  Service.of { size := 4 }
    { denied := d.barred r || tenDenied r.fn (r.get 1 1)
      bad := [(1, decide (127 < t) || !d.tenExists t), (2, decide (n = 0) || decide (512 < n))]
      full := decide (d.quota t 512 Tenant.blocks < (d.blocksOf t).length + n) || (d.freeRun n).isNone }
    (.now fun d =>
      let b := (d.freeRun n).getD 0
      (stOk, toBytes (b * 256) 4 ++ toBytes n 2 ++ [0, 0], d.setBlocks b n (some t)))

/-- SYNC_ALLOC with OP FREE. -/
def Dev.syncFree (r : Req) (d : Dev) : Service :=
  let t := tenField r.fn (r.get 1 1)
  let n := r.get 2 2
  let base := r.get 4 4
  let b := base / 256
  let other := (span b (min n 512)).any (fun x => let o := SMap.get 0 d.syn.owner x; decide (o ≠ 0) && decide (o ≠ t + 1))
  let none := (span b (min n 512)).any (fun x => decide (SMap.get 0 d.syn.owner x = 0))
  Service.of { size := 8 }
    { denied := d.barred r || tenDenied r.fn (r.get 1 1) || (r.fn != 0 && other)
      bad := [(1, decide (127 < t) || !d.tenExists t), (2, decide (n = 0) || decide (512 < n)),
        (4, base % 256 != 0 || decide (512 < b + n) || none || other)]
      busy := d.ctrsInUse.any (fun c => decide (b ≤ c / 256) && decide (c / 256 < b + n)) }
    (.now fun d => (stOk, toBytes base 4 ++ toBytes n 2 ++ [0, 0], d.setBlocks b n .none))

end Sys2Proof.Machine
end

