-- ==== Sys2Proof/Machine/DrainOps.lean ====
section
/-!
DEFINITION. Machine/DrainOps.lean: tenants, and the drain-switch procedure: what each change does once the affected queues are drained
(15, 16).
-/
namespace Sys2Proof.Machine

/-! ### Tenants (R620-R625) -/

/-- Top of the tenant region (R629). -/
def Dev.regionTop (d : Dev) : Nat := d.fwBase

/-- Two windows share an address. -/
def winOverlap (a n b m : Nat) : Bool := decide (0 < n) && decide (0 < m) && decide (a < b + m) && decide (b < a + n)

/-- A window of the new tenant offends: alignment, extent, overlap with the windows of others; base, size (R621). -/
def Dev.winBad (d : Dev) (b n : Nat) : Bool × Bool :=
  let mib := 2 ^ 21
  let hit := d.ten.any (fun e => e.1 != 0 && (winOverlap b n e.2.base0 e.2.size0 || winOverlap b n e.2.base1 e.2.size1))
  (b % mib != 0 || (n == 0 && b != 0) || (n != 0 && (decide (d.regionTop < b + n) || hit)), n % mib != 0)

/-- A quota that tenant 0 cannot give (R622). -/
def Dev.quotaShort (d : Dev) (total used n : Nat) (f : Tenant → Nat) : Bool := decide (d.quota 0 total f < used + n)

/-- Tenant 0 cannot give the quotas of a new tenant. -/
def Dev.tenantShort (d : Dev) (queues blocks sessions : Nat) : Bool :=
  d.quotaShort 65536 (d.queuesOf 0).length queues Tenant.queues || d.quotaShort 512 (d.blocksOf 0).length blocks Tenant.blocks ||
    d.quotaShort 4096 (d.sessionsOf 0).length sessions Tenant.sessions

/-- The fields of TENANT_CREATE. -/
def Req.tenantChange (r : Req) : Change :=
  .tenantCreate (r.get 0 1) (r.get 1 1) (r.get 2 1) (r.get 4 4) (r.get 8 2) (r.get 10 2) (r.get 16 8) (r.get 24 8) (r.get 32 8) (r.get 40 8)

/-- Fields of TENANT_CREATE that offend (R616, R621). -/
def Dev.tenantBad (d : Dev) (r : Req) : List (Nat × Bool) :=
  let w0 := d.winBad (r.get 16 8) (r.get 24 8)
  let w1 := d.winBad (r.get 32 8) (r.get 40 8)
  let both := winOverlap (r.get 16 8) (r.get 24 8) (r.get 32 8) (r.get 40 8)
  [(0, decide (r.get 0 1 = 0) || decide (127 < r.get 0 1) || d.tenExists (r.get 0 1)),
   (1, decide ((d.coresOf 0).length < r.get 1 1)), (2, decide (d.fuse.grade.pool < r.get 2 1)), (4, decide (65536 < r.get 4 4)),
   (8, decide (512 < r.get 8 2)), (10, decide (4096 < r.get 10 2)), (16, w0.1), (24, w0.2), (32, w1.1 || both), (40, w1.2)]

/-- TENANT_CREATE is applied (R620, R624). -/
def Dev.applyTenant (d : Dev) (t cores tokens queues blocks sessions : Nat) (b0 s0 b1 s1 : Nat) : Dev :=
  let x : Tenant :=
    { exist := true, tokens := tokens, queues := queues, blocks := blocks, sessions := sessions, base0 := b0, size0 := s0,
      base1 := b1, size1 := s1 }
  let d := d.updTenant t (fun _ => x)
  let mv := ((d.coresOf 0).reverse).take cores
  let d := if cores = 0 then d else ((mv.foldl (Dev.moveCore t) d).reserve t).refitTenant true 0
  d.openDormant

/-- Steps 3 and 4 of TENANT_DESTROY (R625). -/
def Dev.tenantClear (d : Dev) (t : Nat) (store : Bool) : Dev :=
  let d := (d.net.sessions.filterMap (fun e => match e.2 with
    | some s => if s.tenant = t then some e.1 else none
    | none => none)).foldl Dev.closeSession d
  let keep := d.netRecs.filter (fun x => !(x.kind == 1 && x.unit == t))
  let d := if keep.length = d.netRecs.length then d else (d.storeNet keep store).2
  let d := (d.queuesOf t).foldl (fun d u => d.setQueue u none) d
  let d := { d with progs := SMap.keep (fun _ o => (o.map Prog.tenant) != some t) d.progs }
  let d := (d.blocksOf t).foldl (fun d b => d.setBlocks b 1 none) d
  let cs := d.coresOf t
  let d := cs.foldl (Dev.moveCore 0) d
  let d := { d with kiln := { d.kiln with
    promote := d.kiln.promote.map (fun (p : Nat × Option Nat) => if p.2 = some t then (p.1, some 0) else p)
    owed := d.kiln.owed.map (fun x => if x = t then 0 else x) } }
  let d := d.updTenant t (fun _ => {})
  if cs.isEmpty then d else d.refitTenant true 0

/-! ### Drain-switch changes (R609-R614) -/

/-- Usable DRAM in MiB (Table 22-2). -/
def usableMiB (density : BitVec 2) (ecc : Bool) : Nat :=
  let m := if density = 1 then 16384 else if density = 2 then 32768 else 0
  if ecc then m / 32 * 31 else m

/-- ACTIVE_CORES is applied (R582, R583, R626). -/
def Dev.applyActive (d : Dev) (n : Nat) : Dev :=
  let x := d.activeDelta n
  let ts := x.1.filterMap (fun n => (d.core n).alloc)
  let d := { d with kiln := { d.kiln with target := n, owed := [] } }
  let up := (allCores.filter (fun n => decide ((d.core n).st = .banked))).take x.2
  let d := up.foldl (Dev.activate 0) (x.1.foldl Dev.bankCore d)
  (ts ++ [0]).eraseDups.foldl (fun d t => d.refitTenant true t) d

/-- MEM_ECC is applied (R828): no flit stays poisoned and the cache of ECC flits starts empty. What the top 1/32 holds after the check bits
is not stated: its bytes are free (log 1). -/
def Dev.applyEcc (d : Dev) (on : Bool) : Dev :=
  let u := usableMiB d.mem.density on
  let keep := d.usable
  let m := { d.mem with ecc := on, usable := u, poison := [], eccCache := [], scrub := 0 }
  if on || !d.mem.ecc then { d with mem := m }
  else
    let w := d.draw
    { w.2 with mem := { m with known := SMap.keep (fun a _ => decide (a < keep)) m.known, top := keep, topGen := w.1 + 1 } }

/-- The tenant that a TENANT_CREATE asks for can still be made as its fields say: what other commands have taken since it was accepted
counts (R611, R620-R622). -/
def Dev.tenantFits (d : Dev) (t cores queues blocks sessions : Nat) (b0 s0 b1 s1 : Nat) : Bool :=
  !d.tenExists t && decide (cores ≤ (d.coresOf 0).length) && !d.tenantShort queues blocks sessions &&
    !(d.winBad b0 s0).1 && !(d.winBad b1 s1).1

/-- Whether a change can be applied (R611). -/
def Dev.canApply (d : Dev) : Change → Bool
  | .pool n => decide (d.reserved ≤ n)
  | .coreReturn n => decide (d.countSt .active < d.kiln.target) && (decide ((d.core n).st = .fenced) || decide ((d.core n).st = .banked))
  | .tenantCreate t cores _ queues blocks sessions b0 s0 b1 s1 => d.tenantFits t cores queues blocks sessions b0 s0 b1 s1
  | _ => true

/-- Step 4 of R609; and whether every write to the store that is part of it succeeded (R141, R604). -/
def Dev.applyChange (d : Dev) (c : Change) (store : Bool) : Bool × Dev :=
  match c with
  | .pool n => (true, { d with blw := { d.blw with size := n, leaseCap := min d.pins.tc n } })
  | .activeCores n => (true, d.applyActive n)
  | .memEcc on => (true, d.applyEcc on)
  | .coreReturn n =>
    let r := if (d.core n).st = .fenced then d.unpersist n store else (true, d)
    (r.1, (r.2.activate 0 n).refitTenant true 0)
  | .tenantCreate t a b e f g b0 s0 b1 s1 => (true, d.applyTenant t a b e f g b0 s0 b1 s1)
  | .tenantDestroy t => (true, d.tenantClear t store)
  | .rebind => (true, d)

/-- Store the value of a change that PERSIST asks for (R182). -/
def Dev.storeChange (d : Dev) (c : Change) (store : Bool) : Bool × Dev :=
  match c with
  | .pool n => d.storeSetting 0x0010 n store
  | .activeCores n => d.storeSetting 0x0011 n store
  | .memEcc on => d.storeSetting 0x0012 (b2n on) store
  | _ => (true, d)

/-- Payload of the asynchronous response to a drain-switch command. -/
def Dev.changePayload (d : Dev) (c : Change) : List Byte :=
  match c with
  | .coreReturn _ => [BitVec.ofNat 8 (d.countSt .active), BitVec.ofNat 8 (d.countSt .banked), 0, 0]
  | .tenantCreate _ _ _ _ _ _ _ _ _ _ => []
  | .tenantDestroy _ => []
  | _ => toBytes d.kiln.epoch.toNat 4

/-- The change in progress ends with a status: dispatch resumes and a rebind that waited starts, or one that had joined a change that was
not applied (R609, R611, R614). -/
def Dev.drainEnd (d : Dev) (c : Drain) (status : Nat) (applied : Bool) : Dev :=
  let us := d.kiln.rebinds ++ (if applied then [] else c.queues)
  let d := { d with kiln := { d.kiln with drain := none, rebinds := [] } }
  let d := d.finishDef (fun o => decide (o = .drain)) status (d.changePayload c.change)
  (us.foldl (Dev.refit false) d).headWbAll

/-- Steps 4 and 5 of R609 for a change that can be applied: the change, the rebinds that joined it (R614), the epoch; and whether the store
took what was written to it. -/
def Dev.drainStep (d : Dev) (c : Drain) (store : Bool) : Bool × Dev :=
  let x := d.applyChange c.change store
  let d := (c.queues.filter (fun u => !d.kiln.rebinds.contains u)).foldl (Dev.refit true) x.2
  let d := { d with kiln := { d.kiln with epoch := d.kiln.epoch + 1 } }
  let r := if c.persist then d.storeChange c.change store else (true, d)
  (x.1 && r.1, r.2)

/-- Steps 4 to 6 of R609. `ok` says whether the change can be applied. -/
def Dev.drainApply (d : Dev) (ok store : Bool) : Dev :=
  let d := d.widenDrain
  match d.kiln.drain with
  | none => d
  | some c =>
    if d.drainBusy c then d
    else if c.change.isPool && decide (d.leased ≠ 0) then { d with kiln := { d.kiln with drain := some { c with applying := true } } }
    else if !ok || !d.canApply c.change then d.drainEnd c stFault false
    else
      let r := d.drainStep c store
      r.2.drainEnd c (if r.1 then stOk else stFault) true

/-- TENANT_CREATE (R624). -/
def Dev.tenantCmd (r : Req) (d : Dev) : Service :=
  let c := r.tenantChange
  let us := d.affected c
  let moves := decide (r.get 1 1 ≠ 0)
  Service.of { size := 48, reserved := [(3, 1), (12, 4)] }
    { denied := d.barred r, bad := d.tenantBad r, busy := moves && d.kiln.drain.isSome
      full := d.tenantShort (r.get 4 4) (r.get 8 2) (r.get 10 2) }
    (if moves && d.dispatchedIn us then .defer .drain (fun d => d.startDrain c r.op r.seq (some r.fn) false us)
     else .now fun d =>
      let d := (d.applyChange c false).2
      let d := if moves then { d with kiln := { d.kiln with epoch := d.kiln.epoch + 1 } } else d
      (stOk, [], d.headWbAll))

/-- Step 1 of TENANT_DESTROY: fetch stops, admitted jobs expire and complete. -/
def Dev.tenantStop (d : Dev) (t : Nat) : Dev :=
  let d := (d.queuesOf t).foldl Dev.destroyQueue d
  (d.jobKeys (fun j => j.tenant == t && !j.onCores)).foldl Dev.complete d

/-- TENANT_DESTROY (R616, R625). Where the tenant holds cores it is a drain-switch change over its queues and tenant 0's (Table 15-7, R609);
else it defers while a job of the tenant is held. -/
def Dev.tenantDestroyCmd (store : Bool) (r : Req) (d : Dev) : Service :=
  let t := r.get 0 1
  let c : Change := .tenantDestroy t
  let us := d.affected c
  let moves := !(d.coresOf t).isEmpty
  Service.of { size := 4, reserved := [(1, 3)] }
    { denied := d.barred r, bad := [(0, decide (t = 0) || decide (127 < t) || !d.tenExists t)],
      busy := d.cfgCtrs.any (fun c => d.ownsCtr t c) || d.destroying t || (moves && d.kiln.drain.isSome) }
    (if moves && (d.dispatchedIn us || (d.tenantStop t).tenantBusy t) then
      .defer .drain (fun d => (d.tenantStop t).startDrain c r.op r.seq (some r.fn) false us)
     else if (d.tenantStop t).tenantBusy t then .defer (.tenantDestroy t) (fun d => d.tenantStop t)
     else .now fun d =>
      let d := (d.tenantStop t).tenantClear t store
      (stOk, [], ({ d with kiln := { d.kiln with epoch := if moves then d.kiln.epoch + 1 else d.kiln.epoch } } : Dev).headWbAll))

end Sys2Proof.Machine
end

