-- ==== Sys2Proof/Machine/CfgOps.lean ====
section
/-!
DEFINITION. Machine/CfgOps.lean: mailbox commands that change the configuration: SET_CONFIG, CONFIG_EPOCH_STATUS, FENCE_CORE, CORE_MAINT,
CORE_RETURN, ROW_REMAP (04, 11, 15).
-/
namespace Sys2Proof.Machine

/-! ### SET_CONFIG (R181-R187) -/

/-- The value of a scalar item. -/
def Req.value (r : Req) : Nat := r.get 8 4
def Req.persist (r : Req) : Bool := bit1 (r.get 2 2) 0

/-- Fields of SET_CONFIG that offend: CFLAGS, VLEN, and VALUE where `v`. -/
def Req.cfgBad (r : Req) (vlen : Nat) (mayPersist v : Bool) : List (Nat × Bool) :=
  [(2, decide (1 < r.get 2 2) || (r.persist && !mayPersist)), (4, decide (r.get 4 2 ≠ vlen)), (8, v)]

/-- An item that takes effect before the OK; with PERSIST it is stored after it has been applied (R182). -/
def Dev.setNow (r : Req) (hi : Nat) (store : Bool) (f : Nat → Dev → Dev) (d : Dev) : Service :=
  let v := r.value
  Service.of r.cfgForm { denied := d.barred r, bad := r.cfgBad 4 true (decide (hi < v)) }
    (.now fun d =>
      let d := f v d
      let x := if r.persist then d.storeSetting (r.get 0 2) v store else (true, d)
      (if x.1 then stOk else stFault, toBytes d.kiln.epoch.toNat 4, x.2))

/-- TIME_SRC; leaving source 1 clears LOCKED (R755). -/
def Dev.setTimeSrc (v : Nat) (d : Dev) : Dev :=
  { d with glb := { d.glb with src := BitVec.ofNat 2 v }, net := { d.net with locked := d.net.locked && v == 1 } }
/-- BACKSTEP_EN. -/
def Dev.setBackstep (v : Nat) (d : Dev) : Dev := { d with glb := { d.glb with backstep := v == 1 } }
/-- PERST_SCOPE. -/
def Dev.setPerstScope (v : Nat) (d : Dev) : Dev := { d with kiln := { d.kiln with perstScope := v == 1 } }

/-- A drain-switch item. -/
def Dev.setDrain (r : Req) (c : Change) (bad full : Bool) (us : List Nat) (d : Dev) : Service :=
  Service.of r.cfgForm
    { denied := d.barred r, bad := r.cfgBad 4 true bad, busy := d.kiln.drain.isSome, full := full }
    (.defer .drain (fun d => d.startDrain c r.op r.seq (some r.fn) r.persist us))

/-- Reserved total of all tenants. -/
def Dev.reservedTotal (d : Dev) : Nat := ((List.range 128).map (fun t => d.rhoOf t * (d.coresOf t).length)).sum

/-- BELLOWS_POOL (R521). -/
def Dev.setPool (r : Req) (d : Dev) : Service :=
  let v := r.value
  d.setDrain r (.pool v) (decide (v = 0) || decide (d.fuse.grade.pool < v)) (decide (v < d.reservedTotal)) d.allQueues

/-- Largest NMIN among the bindings of tenant `t` (R187). -/
def Dev.needOf (d : Dev) (t : Nat) : Nat :=
  (d.queuesOf t).foldl (fun m u => match d.queue u with
    | some q => match q.bind with
      | some b => max m (((d.prog b.prog).map Prog.nMin).getD 0)
      | none => m
    | none => m) 0

/-- An ACTIVE_CORES value is below what the bound programs need, or raises a reservation above the pool (R187, R505). -/
def Dev.activeShort (d : Dev) (v : Nat) : Bool :=
  let x := d.activeDelta v
  let left (t : Nat) : Nat := ((d.coresOf t).filter (fun n => !x.1.contains n)).length
  (d.activeTenants v).any (fun t => decide (left t + (if t = 0 then x.2 else 0) < d.needOf t)) ||
    decide (d.blw.size < d.reservedTotal + d.rhoOf 0 * x.2 - ((x.1.map (fun n => (d.core n).tok.rho)).sum))

/-- ACTIVE_CORES (R582). -/
def Dev.setActive (r : Req) (d : Dev) : Service :=
  let v := r.value
  d.setDrain r (.activeCores v) (decide (v = 0) || decide (d.fuse.grade.ceil < v)) (d.activeShort v)
    (d.affected (.activeCores v))

/-- MEM_ECC (R828). -/
def Dev.setEcc (r : Req) (d : Dev) : Service :=
  let on := r.value == 1
  let top := usableMiB d.mem.density on * 2 ^ 20 - 2 ^ 30
  let wins := d.ten.any (fun e => e.1 != 0 && (decide (e.2.size0 ≠ 0 ∧ top < e.2.base0 + e.2.size0) ||
    decide (e.2.size1 ≠ 0 ∧ top < e.2.base1 + e.2.size1)))
  d.setDrain r (.memEcc on) (decide (1 < r.value) || !d.stk.queues.isEmpty || !d.progs.isEmpty || !d.loadsPending.isEmpty || wins) false
    d.allQueues

/-- QUEUE_PARAMS (R203, R204). -/
def Dev.setParams (r : Req) (d : Dev) : Service :=
  let u := r.get 8 4
  let b := r.pay.drop 12
  let e := descOf b
  let a := d.queueArg 0 u
  let q := (d.queue u).getD {}
  let moved := decide (e.sqBase ≠ q.desc.sqBase) || decide (e.cqBase ≠ q.desc.cqBase) || decide (e.sqLog ≠ q.desc.sqLog) ||
    decide (e.cqLog ≠ q.desc.cqLog)
  let held := decide (0 < q.infl) || decide (q.cqWritten ≠ q.cqFreed) || decide (q.ovfMask ≠ 0)
  Service.of r.cfgForm
    { denied := d.barred r
      bad := r.cfgBad 68 false a.1 ++ (if a.1 then [] else (d.descBad q.tenant b).map (fun x => (12 + x.1, x.2)))
      busy := moved && held }
    (.now fun d => (stOk, toBytes d.kiln.epoch.toNat 4, d.updQueue u (fun q => { q with next := some e })))

/-! ### CONFIG_EPOCH_STATUS -/

/-- The jobs in flight of the affected queues, for NQ and LATEST of CONFIG_EPOCH_STATUS: those that the drain waits for, the dispatched ones
(R609 step 3; log 138). -/
def Dev.drainJobs (d : Dev) : List Job :=
  match d.kiln.drain with
  | none => []
  | some c => d.stk.jobs.filterMap (fun e => e.2.filter (fun j => c.queues.contains j.queue && j.onCores))

def Dev.epochStatus (_ : Req) (_ : Dev) : Service :=
  Service.of { size := 0 } {} (.now fun d =>
    let js := d.drainJobs
    let c := d.kiln.drain
    let st := match c with
      | none => 0
      | some c => if c.applying then 2 else 1
    (stOk, toBytes d.kiln.epoch.toNat 4 ++ toBytes st 2 ++ toBytes ((c.map Drain.opcode).getD 0) 2 ++
      toBytes (((c.map Drain.seq).getD 0).toNat) 4 ++ toBytes (js.map Job.queue).eraseDups.length 4 ++ List.replicate 8 0 ++
      toBytes (maxOf (js.map Job.deadline)) 8, d))

/-! ### Cores (R584-R604) -/

/-- FENCE_CORE (R586, R587). -/
def Dev.fenceCoreCmd (store : Bool) (r : Req) (d : Dev) : Service :=
  let n := r.get 0 1
  let persist := bit1 (r.get 1 1) 0
  let c := d.core n
  let pay (d : Dev) : List Byte := [BitVec.ofNat 8 n, 0xFF, BitVec.ofNat 8 (d.countSt .active), 0]
  Service.of { size := 4, reserved := [(2, 2)] }
    { denied := d.barred r, bad := [(0, decide (17 < n)), (1, decide (1 < r.get 1 1))]
      busy := decide (c.st = .maint) || c.fencing || !d.kiln.promote.isEmpty }
    (match c.st with
      | .active => .defer (.fence n persist) (fun d => d.fence n 1)
      | .banked => .now fun d =>
        let d := d.fencePlain n 1
        let x := if persist then d.persistFence n store else (true, d)
        (if x.1 then stOk else stFault, pay x.2, x.2)
      | _ => .now fun d => (stOk, pay d, d))

/-- CORE_MAINT (R598-R601). A reservation raise goes before the test lease, as before any new lease (R507). -/
def Dev.maintCmd (r : Req) (d : Dev) : Service :=
  let n := r.get 0 1
  let t := r.get 1 1
  let c := d.core n
  Service.of { size := 4, reserved := [(2, 2)] }
    { denied := d.barred r, bad := [(0, decide (17 < n) || decide (c.st = .active)), (1, decide (2 < t))]
      busy := decide (c.st = .maint) || d.poolStop || d.raisePending.isSome || decide (d.float < 2) || decide (d.leaseCap < d.leased + 2) }
    (.defer (.maint n t) (fun d =>
      { d with blw := { d.blw with test := d.blw.test + 2 } }.updCore n (fun c => { c.powerDown .maint with prior := c.st })))

/-- CORE_RETURN with TARGET 1 (R603, R604). -/
def Dev.returnBanked (store : Bool) (r : Req) (d : Dev) : Service :=
  let n := r.get 0 1
  let c := d.core n
  Service.of { size := 4, reserved := [(2, 2)] }
    { denied := d.barred r, bad := [(0, decide (17 < n) || c.noReturn), (1, decide (c.st = .banked))], busy := decide (c.st = .maint) }
    (.now fun d =>
      let x := d.unpersist n store
      let d := x.2.updCore n (·.powerDown .banked)
      (if x.1 then stOk else stFault, d.changePayload (.coreReturn n), d))

/-- CORE_RETURN with TARGET 0 (R603). -/
def Dev.returnActive (r : Req) (d : Dev) : Service :=
  let n := r.get 0 1
  let c := d.core n
  Service.of { size := 4, reserved := [(2, 2)] }
    { denied := d.barred r, bad := [(0, decide (17 < n) || c.noReturn), (1, decide (d.kiln.target ≤ d.countSt .active))]
      busy := decide (c.st = .maint) || d.kiln.drain.isSome }
    (.defer .drain (fun d => d.startDrain (.coreReturn n) r.op r.seq (some r.fn) false (d.affected (.coreReturn n))))

/-- ROW_REMAP (R489-R492). -/
def Dev.rowRemapCmd (r : Req) (d : Dev) : Service :=
  let n := r.get 0 1
  let mem := r.get 1 1
  let row := r.get 2 2
  let p := bit1 (r.get 4 1) 0
  Service.of { size := 8, reserved := [(5, 3)] }
    { denied := d.barred r
      bad := [(0, decide (17 < n)), (1, decide (2 < mem)), (2, decide (mem ≤ 2 ∧ memRows mem ≤ row)), (4, decide (1 < r.get 4 1))]
      busy := decide ((d.core n).st = .maint) || d.remapWaits n, full := decide ((d.core n).sparesLeft mem (bankOf row) = 0) }
    (.defer (.remap n mem row p) (fun d => d.updCore n (fun c => { c with held := true })))

end Sys2Proof.Machine
end

