-- ==== Sys2Proof/Machine/MioOps.lean ====
section
/-!
DEFINITION. Machine/MioOps.lean: Motion I/O: encoders and velocity, outputs and their safe state, safe-torque-off, inputs, the end of
homing runs, cyclic output frames, and the ways out of RUNNING (17, 18, 20).
-/
namespace Sys2Proof.Machine

/-! ### Time and tables -/

/-- Frequency of LCLK in Hz (Table 3-2). -/
def Grade.lclkHz : Grade → Nat
  | .b1618 => 300000000
  | _ => 400000000
/-- LCLK in one tick of TCLK. -/
def Grade.perTick : Grade → Nat
  | .b1618 => 3
  | _ => 4

/-- The number of the LCLK. -/
def Dev.lclk (d : Dev) : Nat := d.cclk / 4

/-- Encoder `c`. -/
def Dev.enc (d : Dev) (c : Nat) : Enc := SMap.get {} d.mio.encs c
/-- Change encoder `c`. -/
def Dev.updEnc (d : Dev) (c : Nat) (f : Enc → Enc) : Dev := { d with mio := { d.mio with encs := SMap.upd {} d.mio.encs c f } }
/-- Input `i`: LIM_P, LIM_N, HOME of the axes, and ESTOP_N (24). -/
def Dev.inp (d : Dev) (i : Nat) : Inp := SMap.get {} d.mio.ins i
/-- Change input `i`. -/
def Dev.updInp (d : Dev) (i : Nat) (f : Inp → Inp) : Dev := { d with mio := { d.mio with ins := SMap.upd {} d.mio.ins i f } }
/-- Homing of axis `a`. -/
def Dev.home (d : Dev) (a : Nat) : Home := SMap.get {} d.mio.homes a
/-- Change the homing of axis `a`. -/
def Dev.updHome (d : Dev) (a : Nat) (f : Home → Home) : Dev := { d with mio := { d.mio with homes := SMap.upd {} d.mio.homes a f } }
/-- Change the step output of axis `a`. -/
def Dev.updStep (d : Dev) (a : Nat) (f : Step → Step) : Dev := { d with mio := { d.mio with steps := SMap.upd {} d.mio.steps a f } }

/-! ### Encoders (R679-R683) -/

/-- History longer than the widest velocity window is forgotten. -/
def trimHist (now : Nat) (h : List (Nat × W32)) : List (Nat × W32) :=
  let new := h.takeWhile (fun x => decide (now < x.1 + 2 ^ 20))
  new ++ (h.drop new.length).take 1

/-- COUNT takes a value in this LCLK. -/
def Enc.setCount (e : Enc) (now : Nat) (v : W32) : Enc := { e with count := v, hist := trimHist now ((now, v) :: e.hist) }

/-- COUNT at LCLK `t`. -/
def Enc.countAt (e : Enc) (t : Nat) : W32 := ((e.hist.find? (fun x => decide (x.1 ≤ t))).map Prod.snd).getD 0

/-- Saturate to 32 signed bits. -/
def sat32 (i : Int) : W32 := BitVec.ofInt 32 (max (-2147483648) (min 2147483647 i))

/-- VEL of encoder `c` (R683). -/
def Dev.vel (d : Dev) (c : Nat) : W32 :=
  let e := d.enc c
  let f : Int := d.fuse.grade.lclkHz
  if e.mode = 2 then
    match e.frames with
    | (t1, v1) :: (t0, v0) :: _ => sat32 (((v1 - v0).toInt * 16 * f).tdiv (t1 - t0 : Nat))
    | _ => 0
  else
    let w := 2 ^ (e.velLog2.toNat + 8)
    let was := if d.lclk < w then 0 else e.countAt (d.lclk - w)
    sat32 (((e.count - was).toInt * 16 * f).tdiv (w : Nat))

/-- New levels of A and B in one LCLK sample (R679-R681). -/
def Dev.quadrature (d : Dev) (c : Nat) (a b : Bool) : Dev :=
  let e := d.enc c
  let da := a != e.a
  let db := b != e.b
  let d1 := d.updEnc c (fun e => { e with a := a, b := b })
  if e.mode != 1 || !(da || db) then d1
  else if da && db then { d1 with mio := { d1.mio with encErr := d1.mio.encErr ||| (1#8 <<< c) } }
  else
    let aLeads := if da then a != e.b else b == e.a
    let up := (aLeads == Config.countsUp) != e.dirInv
    d1.updEnc c (fun e => e.setCount d.lclk (if up then e.count + 1 else e.count - 1))

/-- An index edge latches COUNT for a homing run that waits for it (R703). -/
def Dev.indexPulse (d : Dev) (c : Nat) : Dev :=
  let h := d.home c
  if h.active && h.idx then d.updHome c (fun h => { h with idx := false, latch := some (d.enc c).count, latchReg := (d.enc c).count }) else d

/-- A Gray code in binary. -/
def grayBin (n : Nat) : Nat :=
  let n := n ^^^ (n >>> 1)
  let n := n ^^^ (n >>> 2)
  let n := n ^^^ (n >>> 4)
  let n := n ^^^ (n >>> 8)
  n ^^^ (n >>> 16)

/-- An SSI frame is due: in the LCLK of a boundary while RUNNING, else 65,536 LCLK after the last one (R682). -/
def Dev.ssiDue (d : Dev) (e : Enc) : Bool :=
  if d.sle.st = .running then !d.sle.first && decide (d.lclk = d.sle.lbound)
  else match e.ssiAt with
    | some t => decide (t + 65536 ≤ d.lclk)
    | none => true

/-- An SSI frame starts, unless one is still running (R682). -/
def Dev.ssiStart (d : Dev) (c : Nat) : Dev :=
  let e := d.enc c
  if e.mode = 2 && e.ssi.isNone && d.ssiDue e then d.updEnc c (fun e => { e with ssi := some d.lclk, ssiAt := some d.lclk }) else d

/-- LCLK that an SSI frame takes. -/
def Enc.ssiLen (e : Enc) : Nat := (e.ssiBits.toNat + 1) * (2 * (e.ssiDiv.toNat + 1))

/-- The SSI frame ends after its last clock: COUNT takes the value (R682). -/
def Dev.ssiEnd (d : Dev) (c : Nat) (w : W32) : Dev :=
  let e := d.enc c
  match e.ssi with
  | none => d
  | some t =>
    if e.mode != 2 || decide (d.lclk < t + e.ssiLen) then d
    else
      let n := bits w.toNat 0 (e.ssiBits.toNat + 1)
      let v : W32 := BitVec.ofNat 32 (if e.gray then grayBin n else n)
      d.updEnc c (fun e => { e.setCount d.lclk v with ssi := none, frames := (d.lclk, v) :: e.frames.take 1 })

/-! ### Outputs (R686-R688, R694-R696) -/

/-- ESTOP_N is accepted active. -/
def Dev.estop (d : Dev) : Bool := (d.inp 24).lvl

/-- Level of STO_PERMIT[a] (R694). -/
def Dev.sto (d : Dev) (a : Nat) : Bool := decide (d.sle.st = .running) && !d.estop && !d.mio.limTrip.getLsbD a

/-- Range of a destination (Table 17-3). -/
def dstRange : Nat → Int × Int
  | 1 => (0, 65535)
  | 2 => (-53687091, 53687091)
  | 3 => (0, 65535)
  | _ => (-2147483648, 2147483647)

/-- Saturate to the range of a destination. -/
def dstSat (dst : Nat) (v : Int) : Int := max (dstRange dst).1 (min (dstRange dst).2 v)

/-- Outputs of the loop: number and OUTMAP entry. -/
def Dev.outputs (d : Dev) : List (Nat × OutEnt) := (List.range d.sle.cfg.nu).map (fun i => (i, SMap.get {} d.sle.cfg.outmap i))

/-- Outputs that are mapped. -/
def Dev.mappedOuts (d : Dev) : List (Nat × OutEnt) := d.outputs.filter (fun x => x.2.dst != 0)

/-- A step output takes a rate code (R688). -/
def Step.setCode (s : Step) (now : Nat) (code : Int) : Step :=
  let dir := if 0 < code then true else if code < 0 then false else s.dir
  { s with code := code, dir := dir, turned := if dir = s.dir then s.turned else some now }

/-- Send a code to a DAC channel. -/
def Dev.dacOut (d : Dev) (ch : Nat) (v : Int) : Dev :=
  let w : W16 := BitVec.ofInt 16 v
  { d with mio := { d.mio with dac := SMap.set none d.mio.dac ch (some w) } }.send (.dac ch w)

/-- A destination has been mapped since reset. -/
def Dev.markMapped (d : Dev) (k : Nat) : Dev := { d with mio := { d.mio with mapped := SMap.set false d.mio.mapped k true } }

/-- Present a raw output at its destination: duty from the next period on, rate code at once; DAC codes are sent on their own. -/
def Dev.present (d : Dev) (e : OutEnt) (v : Int) : Dev :=
  match e.dst with
  | 1 => { d with mio := { d.mio with dutyNext := SMap.set 0 d.mio.dutyNext e.ch (BitVec.ofInt 16 v) } }.markMapped e.ch
  | 2 => (d.updStep e.ch (·.setCode d.lclk v)).markMapped (16 + e.ch)
  | 3 => d.markMapped (24 + e.ch)
  | _ => d

/-- Put a mapped output in its safe state (R696, Table 18-2). -/
def Dev.safeOut (d : Dev) (x : Nat × OutEnt) : Dev :=
  let e := x.2
  let v := dstSat e.dst e.safeVal.toInt
  let d := { d with sle := { d.sle with raw := SMap.set 0 d.sle.raw x.1 v } }
  match e.dst with
  | 1 =>
    let w : W16 := BitVec.ofInt 16 v
    { d with mio := { d.mio with duty := SMap.set 0 d.mio.duty e.ch w, dutyNext := SMap.set 0 d.mio.dutyNext e.ch w } }.markMapped e.ch
  | 2 => (d.updStep e.ch (fun s => { s with code := 0, owed := false })).markMapped (16 + e.ch)
  | 3 => (d.dacOut e.ch v).markMapped (24 + e.ch)
  | _ => d

/-- Put every mapped output in its safe state. -/
def Dev.safeOuts (d : Dev) : Dev := d.mappedOuts.foldl Dev.safeOut d

/-- Every PWM period starts, PWMPER + 1 LCLK after the one before (R687). -/
def Dev.pwmStart (d : Dev) : Dev :=
  let m := d.mio
  let n := d.lclk - m.pwmAt
  let per := m.pwmPer.toNat + 1
  if n < per then d else { d with mio := { m with duty := m.dutyNext, pwmAt := d.lclk - n % per } }

/-- Cycles that PWM channel `j` is high in its period (R687). -/
def Dev.pwmHigh (d : Dev) (j : Nat) : Nat := (SMap.get 0 d.mio.duty j).toNat * (d.mio.pwmPer.toNat + 1) / 65536

/-- One LCLK of a step accumulator (R688). -/
def Step.lclk (s : Step) : Step :=
  let n := s.acc.toNat + s.code.natAbs
  { s with acc := BitVec.ofNat 32 n, owed := s.owed || decide (2 ^ 32 ≤ n) }

/-- One LCLK of Motion I/O: the accumulators of the axes in step mode. -/
def Dev.mioClock (d : Dev) : Dev :=
  (List.range 8).foldl (fun d a => if d.mio.stepMask.getLsbD a then d.updStep a Step.lclk else d) d

/-- A carry gives one STEP pulse, not within 64 LCLK of a sign change (R688). -/
def Dev.stepPulse (d : Dev) (a : Nat) : Dev :=
  let s := SMap.get {} d.mio.steps a
  let wait := match s.turned with
    | some t => decide (d.lclk ≤ t + 64)
    | none => false
  if !d.mio.stepMask.getLsbD a || !s.owed || wait then d
  else (d.updStep a (fun s => { s with owed := false, pulses := s.pulses + 1 })).send (.step a s.dir)

/-- The DAC ports send the codes of the mapped channels at OUTINST + 4 (R686). -/
def Dev.dacSend (d : Dev) : Dev :=
  match d.sle.dacDue with
  | none => d
  | some t =>
  if d.lclk < t then d
  else
    let d1 := { d with sle := { d.sle with dacDue := none } }
    d.mappedOuts.foldl (fun d x => if x.2.dst = 3 then d.dacOut x.2.ch (SMap.get 0 d.sle.raw x.1) else d) d1

/-! ### Cyclic output frames (R763, R764) -/

/-- Value of TSN output field `i`: the held raw output, or SAFEVAL; 0 where no entry maps it. -/
def Dev.tsnOut (d : Dev) (safe : Bool) (i : Nat) : W32 :=
  match d.mappedOuts.find? (fun x => x.2.dst == 4 && x.2.ch == i) with
  | some x => if safe then x.2.safeVal else BitVec.ofInt 32 (SMap.get 0 d.sle.raw x.1)
  | none => 0

/-- Output stream `s` queues a frame whose fields are latched at device time `t`. The spec gives no REQTAG of such a frame: it is free (log 1). -/
def Dev.cyclicOut (safe : Bool) (t : Nat) (d : Dev) (s : Nat) : Dev :=
  let o := SMap.get {} d.net.outs s
  if !o.enable then d
  else
    let q := SMap.get 0 d.net.outSeq s
    let r := d.draw
    let vals := (span o.first o.count).flatMap (fun i => toBytes (d.tsnOut safe i).toNat 4)
    let pay := [BitVec.ofNat 8 o.first, BitVec.ofNat 8 o.count, BitVec.ofNat 8 (b2n safe), 0, 0, 0, 0, 0] ++ toBytes (d.ptp t) 8 ++ vals
    let msg := pstHeader 0x10 s q.toNat pay.length (Config.freeWord r.1).toNat ++ pay
    let d := { r.2 with net := { r.2.net with outSeq := SMap.set 0 r.2.net.outSeq s (q + 1) } }
    d.enqueue o.port o.pcp { bytes := etherFrame o.mac (d.eth o.port).cfg.mac o.vid o.pcp 0x88B5 msg }

/-- Every output stream queues a frame. -/
def Dev.cyclicOuts (d : Dev) (safe : Bool) (t : Nat) : Dev := (List.range 8).foldl (Dev.cyclicOut safe t) d

/-- SAFE frames of every output stream. -/
def Dev.safeOutFrames (d : Dev) : Dev := { d with net := { d.net with safeAt := d.glb.ticks } }.cyclicOuts true d.now

/-- The periodic SAFE frames, every 1 ms (R764). -/
def Dev.safeFrames (d : Dev) : Dev :=
  if decide (d.sle.st = .running) || decide (d.glb.ticks < d.net.safeAt + 100000) then d else d.safeOutFrames

/-! ### The end of a homing run (R170, R705-R707) -/

/-- The run of axis `a` ends with an OUTCOME and POS. -/
def Dev.homeEnd (d : Dev) (a outcome : Nat) (pos : W32) : Dev :=
  let d := d.updHome a (fun h =>
    { h with active := false, outcome := BitVec.ofNat 3 outcome, phase := if outcome = 0 then .done else .idle, idx := false })
  let p := toBytes (pos.signExtend 64).toNat 8
  d.finishDef (fun o => decide (o = .home a)) stOk ([BitVec.ofNat 8 a, BitVec.ofNat 8 outcome] ++ List.replicate 6 0 ++ p)

/-- A run is aborted while the SLE leaves RUNNING (R705). -/
def Dev.homeAbort (outcome : Nat) (d : Dev) (a : Nat) : Dev :=
  if (d.home a).active then d.homeEnd a outcome (d.enc a).count else d

/-! ### Parameter sets (R669, R673) -/

/-- An integrator when a set is installed while RUNNING (R673). -/
def keepZ (old new : IntEnt) (z : W32) : W32 :=
  if old.sel ≠ new.sel ∨ old.out ≠ new.out then 0
  else
    let v := decode32 true z
    let l := decode32 true new.zlim
    if v.lt l.neg then encode32 true .rne l.neg else if l.lt v then new.zlim else z

/-- A set takes effect. -/
def Sle.install (s : Sle) (c : SleCfg) : Sle :=
  let z := tabulate 0 16 (fun j => keepZ (SMap.get {} s.cfg.integ j) (SMap.get {} c.integ j) (SMap.get 0 s.z j))
  let gain := if c.gainNew then c.gain else s.gain
  { s with cfg := { c with gainNew := false }, pend := none, applied := true, z := z, gain := gain }

/-! ### Record 0x0030 (R674, R675, Table 17-7) -/

/-- A counter field. -/
def ctrField : Option Nat → Nat
  | some c => c + 2 ^ 31
  | none => 0

/-- Entries of a map block from `first` on. -/
def mapBlock (first n : Nat) (f : Nat → List Byte) : List Byte :=
  [BitVec.ofNat 8 first, BitVec.ofNat 8 n, 0, 0] ++ (span first n).flatMap f

def InEnt.bytes (e : InEnt) : List Byte :=
  [BitVec.ofNat 8 e.src, BitVec.ofNat 8 e.ch, BitVec.ofNat 8 (b2n e.fresh), 0] ++ toBytes e.scale.toNat 4 ++ toBytes e.offset.toNat 4
def OutEnt.bytes (e : OutEnt) : List Byte :=
  [BitVec.ofNat 8 e.dst, BitVec.ofNat 8 e.ch, 0, 0] ++ toBytes e.scale.toNat 4 ++ toBytes e.offset.toNat 4 ++ toBytes e.safeVal.toNat 4
def LimEnt.bytes (e : LimEnt) : List Byte := toBytes e.umin.toNat 4 ++ toBytes e.umax.toNat 4 ++ toBytes e.dumax.toNat 4
def IntEnt.bytes (e : IntEnt) : List Byte :=
  [BitVec.ofNat 8 e.sel, BitVec.ofNat 8 e.out, 0, 0] ++ toBytes e.ki.toNat 4 ++ toBytes e.zlim.toNat 4

/-- DATA of the LOOP block. -/
def SleCfg.loopBytes (c : SleCfg) : List Byte :=
  toBytes c.period 4 ++ toBytes c.inwin 2 ++ toBytes c.outinst 2 ++
    [BitVec.ofNat 8 c.nx, BitVec.ofNat 8 c.nu, BitVec.ofNat 8 c.ni, BitVec.ofNat 8 c.missLim] ++
    toBytes (b2n c.tlock + 2 * b2n c.fly + 4 * b2n c.persist) 2 ++ toBytes c.sampDiv 2 ++ toBytes c.alignOfs.toNat 4 ++
    toBytes c.vtol.toNat 4

/-- `MIO_OUT_CFG`. -/
def Mio.outCfg (m : Mio) : Nat := m.pwmPer.toNat + place m.stepMask.toNat 16 8 + place m.convt.toNat 24 6
/-- `MIO_ENC_CFG`. -/
def Enc.cfg (e : Enc) : Nat :=
  e.mode.toNat + place (b2n e.dirInv) 2 1 + place (b2n e.gray) 3 1 + place e.velLog2.toNat 4 4 + place e.ssiBits.toNat 8 5 +
    place e.ssiDiv.toNat 16 8
/-- `MIO_IN_CFG`. -/
def Inp.cfg (i : Inp) : Nat :=
  i.deb.toNat + place (b2n i.pol) 10 1 + place (b2n i.limSto) 11 1 + place i.chN.toNat 16 8 + place i.chWin.toNat 32 16

/-- The entries of the record: TAG and data. -/
def Dev.sleRecord (d : Dev) : List (Nat × List Byte) :=
  let c := d.sle.cfg
  let inm (k : Nat) : List Byte := (SMap.get {} c.inmap k).bytes
  let outm (k : Nat) : List Byte := (SMap.get {} c.outmap k).bytes
  [(0x0000, c.loopBytes), (0x0002, mapBlock 0 16 inm), (0x0002, mapBlock 16 16 inm), (0x0003, mapBlock 0 8 outm),
    (0x0003, mapBlock 8 8 outm), (0x0004, mapBlock 0 16 (fun k => (SMap.get {} c.limits k).bytes)),
    (0x0005, mapBlock 0 16 (fun k => (SMap.get {} c.integ k).bytes))] ++
  (List.range 16).map (fun r => (0x0100 + r, (List.range 32).flatMap (fun j => toBytes (SMap.get 0 c.gain (r * 32 + j)).toNat 4))) ++
  [(0x1000, toBytes d.mio.outCfg 4)] ++ (List.range 8).map (fun k => (0x1100 + k, toBytes (d.enc k).cfg 4)) ++
  (List.range 25).map (fun k => (0x1200 + k, toBytes (d.inp k).cfg 8))

/-- A set takes effect; the record is rewritten when the set has PERSIST (R674). -/
def Dev.installSet (d : Dev) (c : SleCfg) (store : Bool) : Dev :=
  let d := { d with sle := d.sle.install c }
  if c.persist then (d.storeRecord 0x0030 (some (d.sleRecord.flatMap recordBytes)) store).2 else d

/-! ### Out of RUNNING (R637-R640, R668, R695) -/

/-- What a load that the SLE stops reading adds to ACKCTR (R658). -/
def Dev.ackLoad (d : Dev) : Dev :=
  match d.sle.load with
  | none => d
  | some (v, u) =>
    let d := { d with sle := { d.sle with load := none } }
    match d.sle.cfg.ack with
    | some c => d.synPush { ctr := c, op := .add (BitVec.ofNat 32 (min (v - u).toNat 0xFFFFFFFF)), src := 3, needDma := 0, needRem := 0, fn := 0 }
    | none => d

/-- The SLE leaves RUNNING: the sample is given up, runs are aborted, the outputs are safe. -/
def Dev.sleLeave (d : Dev) (st : SleState) (outcome : Nat) : Dev :=
  let d := (List.range 8).foldl (Dev.homeAbort outcome) d.ackLoad
  let d := { d with sle := { d.sle with st := st, phase := .idle, dacDue := none, first := false, catching := false } }
  let d := match d.sle.pend with
    | some c => d.installSet c d.sle.pendStore
    | none => d
  d.safeOuts.safeOutFrames

/-- Enter SAFE from RUNNING with a cause; SAFEENT rises (R637, R668). -/
def Dev.enterSafe (d : Dev) (cause outcome : Nat) : Dev :=
  if d.sle.st ≠ .running then d
  else
    let was := d.sle.safeEnt
    let d := d.sleLeave .safe outcome
    let d := { d with sle := { d.sle with safeEnt := true, safeCause := BitVec.ofNat 2 cause } }
    if !was && d.sle.ie then d.raiseVec 0 1 else d

/-- Enter STOPPED (R640); from SAFE the outputs stay as they are. -/
def Dev.enterStopped (d : Dev) : Dev :=
  match d.sle.st with
  | .stopped => d
  | .safe => { d with sle := { d.sle with st := .stopped } }.safeOutFrames
  | .running => d.sleLeave .stopped 4

/-! ### Inputs (R691-R693, R697) -/

/-- Axis that an input belongs to. -/
def axisOf (i : Nat) : Nat := i % 8

/-- Level of an input after POL. -/
def Inp.eff (x : Inp) : Bool := x.raw != x.pol

/-- The level of an input, after POL, changes or stays: it stands from now on where it changes. -/
def Dev.stand (d : Dev) (old new : Inp) : Inp :=
  if old.eff = new.eff then new else { new with edgeT := d.glb.ticks, edgeL := d.lclk }

/-- The level of an input has stood for DEB µs; with DEB = 0, since an earlier LCLK (R691, R692). -/
def Dev.settled (d : Dev) (x : Inp) : Bool :=
  if x.deb = 0 then decide (x.edgeL < d.lclk) else decide (x.edgeT + 100 * x.deb.toNat ≤ d.glb.ticks)

/-- A raw edge (R692). -/
def Dev.rawEdge (d : Dev) (i : Nat) (level : Bool) : Dev :=
  d.updInp i (fun x =>
    let y := d.stand x { x with raw := level }
    if y.eff != y.lvl && y.cap.isNone && decide (i < 24) then { y with cap := some (d.enc (axisOf i)).count } else y)

/-- The capture is discarded once the input has stayed at its accepted level (R692). -/
def Dev.discardCap (d : Dev) (i : Nat) : Dev :=
  if decide ((d.inp i).eff = (d.inp i).lvl) && d.settled (d.inp i) then d.updInp i (fun x => { x with cap := none }) else d

/-- Too many transitions in the window that ends at tick `now` (R693). -/
def Inp.chatters (x : Inp) (now : Nat) : Bool :=
  decide (0 < x.chN.toNat) &&
    decide (x.chN.toNat + 1 ≤ (x.trans.takeWhile (fun t => decide (now ≤ t + 100 * x.chWin.toNat))).length)

/-- What a homing run sees of an accepted transition, whose latch is `cap` (R701-R704). -/
def Home.see (h : Home) (kind : Nat) (active chat : Bool) (cap : W32) : Home :=
  if !h.active then h
  else
    let e := h.ev
    let h := { h with
      ev := { e with
        chatter := e.chatter || chat
        limP := e.limP || (kind == 0 && active)
        limN := e.limN || (kind == 1 && active)
        homeOn := e.homeOn || (kind == 2 && active)
        cap := if kind == 2 && active && !e.homeOn then cap else e.cap
        homeOff := e.homeOff || (kind == 2 && !active) } }
    if kind == 2 && active && decide (h.phase = .latch) && h.useIdx && h.latch.isNone then { h with idx := true } else h

/-- An accepted transition: level, latch, chatter, E-stop, limit trip (R691-R697). -/
def Dev.acceptIn (d : Dev) (i : Nat) : Dev :=
  let x := d.inp i
  if decide (x.eff = x.lvl) || !d.settled x then d
  else
    let on := x.eff
    let a := axisOf i
    let d := d.updInp i (fun x =>
      { x with lvl := on, latch := x.cap.getD x.latch, cap := none, trans := (d.glb.ticks :: x.trans).take 256 })
    let chat := (d.inp i).chatters d.glb.ticks
    let d := if chat then
        { d with mio := { d.mio with chatter := d.mio.chatter ||| (1#25 <<< i) } }.record { cls := 7, source := 6, code := 0x0030, info := i }
      else d
    if i = 24 then (if on then d.enterSafe 2 3 else d)
    else
      let trip := on && decide (i < 16) && x.limSto && !(d.home a).active
      let d := if trip then { d with mio := { d.mio with limTrip := d.mio.limTrip ||| (1#8 <<< a) } } else d
      d.updHome a (·.see (i / 8) on chat (d.inp i).latch)

end Sys2Proof.Machine
end

