-- ==== Sys2Proof/Machine/TimeOps.lean ====
section
/-!
DEFINITION. Machine/TimeOps.lean: what every FCLK cycle does, and device time: adjustment, steps, reads of half a register, the tick (01, 03).
-/
namespace Sys2Proof.Machine

/-- The jobs of the table, each with an act of an FCLK cycle. -/
def Dev.eachJob (d : Dev) (f : Dev → Nat → Dev) : Dev := (d.stk.jobs.map Prod.fst).foldl f d

/-- An FCLK cycle begins. At the end of the last one each core wrote a row that had arrived (R392). The sets of the jobs whose end the last cycle fixed stop (Table 1-2), a budget counter at 0 is recorded (R60),
the trace accepts entries again (R873), PEAK restarts after a read (R946); then every comparator is evaluated (R29), a job that waits ends
where its deadline or a failed check says so (R225, R231), and a late first ember is noticed (R62). -/
def Dev.fclk (d : Dev) : Dev :=
  let d := allCores.foldl Dev.writeInbound d
  let d := { d with fno := d.fno + 1, dbg := { d.dbg with accepted := 0 } }
  let d := allCores.foldl Dev.budgetExpire (d.eachJob Dev.stopJob)
  let d := if d.blw.restart then { d with blw := { d.blw with peak := d.inuse, restart := false } } else d
  ((d.eachJob Dev.comparator).eachJob Dev.expireDue).eachJob Dev.emberCheck

/-- A write of `GLB_TIMEADJ` (R108). -/
def Dev.setAdj (d : Dev) (w : W32) : Dev :=
  let v := w.toInt
  if v < -2147484 then { d with glb := { d.glb with adj := BitVec.ofInt 32 (-2147484), adjClamp := true } }
  else if 2147484 < v then { d with glb := { d.glb with adj := BitVec.ofInt 32 2147484, adjClamp := true } }
  else { d with glb := { d.glb with adj := w } }

/-- A step is made (R103): steps before the next tick are summed. -/
def Dev.makeStep (d : Dev) (v : W64) : Dev := { d with glb := { d.glb with step := some (d.glb.step.getD 0 + v) } }

/-- The held low half of a writer. -/
def Glb.low (g : Glb) (kiln : Bool) : Option W32 := if kiln then g.lowKiln else g.lowPf
/-- Hold or use up the low half of a writer. -/
def Glb.setLow (g : Glb) (kiln : Bool) (v : Option W32) : Glb := if kiln then { g with lowKiln := v } else { g with lowPf := v }

/-- A write of `GLB_TIMESTEP` (R109). -/
def Dev.stepWrite (d : Dev) (kiln : Bool) (part : Part) (v : W64) : Dev :=
  match part with
  | .full => ({ d with glb := d.glb.setLow kiln none }).makeStep v
  | .low => { d with glb := d.glb.setLow kiln (some (v.setWidth 32)) }
  | .high => match d.glb.low kiln with
    | none => d
    | some l => ({ d with glb := d.glb.setLow kiln none }).makeStep ((v.setWidth 32) ++ l)

/-- What a step of device time does to the SLE: the boundaries keep their places (R643, R644). -/
def Sle.shift (s : Sle) (v : W64) : Sle := if s.st = .running then { s with tnext := s.tnext + v } else s

/-- `GLB_TIME` after one tick of TCLK (R101, R103-R105). -/
def Dev.timeTick (d : Dev) : Dev :=
  let g := { d.glb with ticks := d.glb.ticks + 1 }
  let adv : Glb :=
    let sum : Int := g.frac.toNat + g.adj.toInt
    let n : Nat := if 4294967296 ≤ sum then 2 else if sum < 0 then 0 else 1
    { g with frac := g.frac + g.adj, time := g.time + BitVec.ofNat 64 n, step := none }
  match g.step with
  | none => { d with glb := adv }
  | some v =>
    if v.toInt < 0 && !g.backstep then { d with glb := { adv with stepRej := true } }
    else { d with glb := { g with time := g.time + v, step := none }, sle := d.sle.shift v }

/-- One tick of TCLK. It starts the FCLK cycle that first sees the new time (log 2); there is none between a cold reset and the release of the
domains, and device time goes on through a warm reset (Tables 3-3, 3-4). -/
def Dev.tclk (d : Dev) : Dev := if d.glb.phase = .held || d.glb.phase = .pll then d else d.timeTick.fclk

end Sys2Proof.Machine
end

