-- ==== Sys2Proof/Machine/EthOps.lean ====
section
/-!
DEFINITION. Machine/EthOps.lean: the Ethernet ports: ETH_CONFIG, links, reception, PST requests, scheduled sending, gPTP, replies of the
Kiln (20).
-/
namespace Sys2Proof.Machine

/-! ### Blocks (R782, Table 20-11) -/

/-- Size of the DATA of a block; `b` is the DATA. -/
def ethSize (blk : Nat) (b : List Byte) : Nat :=
  match blk with
  | 0 => 20
  | 1 => 24
  | 2 => 12
  | 3 => 20
  | 4 => 4 + 8 * fieldAt b 2 1
  | _ => if blk = 0xFFFF then 0 else if blk < 0x18 then 12 else 16

/-- Reserved fields of a block that are not zero, and COUNT and FIRST of GCLENT: by offset in DATA. -/
def ethBad (blk : Nat) (b : List Byte) : List (Nat × Bool) :=
  let g := fieldAt b
  match blk with
  | 0 => [(10, decide (3 < g 10 1)), (11, decide (g 11 1 ≠ 0)), (18, decide (g 18 2 ≠ 0))]
  | 1 => [(22, decide (3 < g 22 1)), (23, decide (g 23 1 ≠ 0))]
  | 2 => [(9, decide (3 < g 9 1)), (11, decide (g 11 1 ≠ 0))]
  | 3 => [(18, decide (g 18 2 ≠ 0))]
  | 4 => [(0, decide (256 < g 0 2 + g 2 1)), (2, decide (g 2 1 = 0) || decide (28 < g 2 1)), (3, decide (g 3 1 ≠ 0))] ++
      (List.range (g 2 1)).map (fun i => (4 + 8 * i + 1, decide (g (4 + 8 * i + 1) 3 ≠ 0)))
  | _ =>
    if blk = 0xFFFF then [] else if blk < 0x18 then [(0, decide (3 < g 0 1))]
    else [(0, decide (1 < g 0 1)), (13, decide (g 13 3 ≠ 0))]

/-- A block updates the parameters of a port. -/
def EthCfg.block (c : EthCfg) (blk : Nat) (b : List Byte) : EthCfg :=
  let g := fieldAt b
  match blk with
  | 0 =>
    { c with
      speed := g 0 1
      fec := g 1 1 == 1
      mtu := g 2 2
      mac := g 4 6
      ptpEn := bit1 (g 10 1) 0
      persist := bit1 (g 10 1) 1
      txLat := g 12 2
      rxLat := g 14 2
      prio1 := g 16 1
      prio2 := g 17 1 }
  | 1 =>
    { c with
      ipv4 := g 0 4
      ipv6 := g 4 16
      udpPort := g 20 2
      v4En := bit1 (g 22 1) 0
      v6En := bit1 (g 22 1) 1 }
  | 2 =>
    { c with
      qmap := (List.range 8).map (fun i => g i 1)
      express := BitVec.ofNat 8 (g 8 1)
      preemptEn := bit1 (g 9 1) 0
      verifyEn := bit1 (g 9 1) 1
      addFrag := g 10 1 }
  | 3 => { c with baseTime := g 0 8, cycle := g 8 4, ext := g 12 4, nent := g 16 2 }
  | _ =>
    let ent (i : Nat) : BitVec 8 × Nat := (BitVec.ofNat 8 (g (4 + 8 * i) 1), g (4 + 8 * i + 4) 4)
    { c with ents := (List.range (g 2 1)).foldl (fun m i => SMap.set none m (g 0 2 + i) (some (ent i))) c.ents }

/-- The stream of a CYCIN or CYCOUT block. -/
def streamOf (out : Bool) (b : List Byte) : Stream :=
  let g := fieldAt b
  { enable := bit1 (g 0 1) 0, float := !out && bit1 (g 0 1) 1, port := g 1 1, first := g 2 1, count := g 3 1, mac := g 4 6, vid := g 10 2,
    pcp := if out then g 12 1 else 0 }

/-- A block updates the shadow sets. -/
def Dev.ethShadow (d : Dev) (p blk : Nat) (b : List Byte) : Dev :=
  if blk < 0x10 then d.updEth p (fun e => { e with shadow := e.shadow.block blk b })
  else if blk < 0x18 then { d with net := { d.net with inShadow := SMap.set {} d.net.inShadow (blk - 0x10) (streamOf false b) } }
  else { d with net := { d.net with outShadow := SMap.set {} d.net.outShadow (blk - 0x18) (streamOf true b) } }

/-- A gate control list waits on some port (R784). -/
def Dev.gclWaits (d : Dev) : Bool := (d.eth 0).gclPend.isSome || (d.eth 1).gclPend.isSome

/-- ETH_CONFIG with a block. The codes of SPEED and FEC are checked here (R23). -/
def Dev.ethBlock (r : Req) (d : Dev) : Service :=
  let p := r.get 0 1
  let blk := r.get 2 2
  let b := r.pay.drop 4
  let stream := decide (0x10 ≤ blk) && decide (blk < 0x20)
  let codes : List (Nat × Bool) := if blk = 0 then [(0, decide (2 < fieldAt b 0 1)), (1, decide (1 < fieldAt b 1 1))] else []
  Service.of { size := 4 + ethSize blk b, reserved := [(1, 1)] }
    { denied := d.barred r
      bad := (0, decide ((if stream then 0 else 1) < p)) :: (codes ++ ethBad blk b).map (fun x => (4 + x.1, x.2))
      busy := d.gclWaits }
    (.now fun d => (stOk, [], d.ethShadow p blk b))

/-! ### APPLY (R758, R783, R784) -/

/-- The entries below NENT. -/
def EthCfg.list (c : EthCfg) : List (Option (BitVec 8 × Nat)) := (List.range c.nent).map (SMap.get none c.ents)

/-- The port's values fail a check of R783. -/
def EthCfg.bad (c : EthCfg) : Bool :=
  decide (2 < c.speed) || (c.fec && decide (c.speed = 1)) || decide (c.mtu < 1500) || decide (9216 < c.mtu) || bit1 c.mac 0 ||
    decide (c.udpPort = 0) || c.qmap.any (fun q => decide (7 < q)) || decide (3 < c.addFrag) || decide (256 < c.nent) ||
    decide (c.cycle < 1000) || decide (1000000000 < c.cycle) || c.list.any (fun e => match e with
      | some x => decide (x.2 = 0)
      | none => true)

/-- The streams of one direction fail a check of R783. -/
def streamsBad (m : SMap Stream) : Bool :=
  let all := (List.range 8).map (fun s => (s, SMap.get {} m s))
  all.any (fun x =>
    decide (1 < x.2.port) || decide (64 < x.2.first + x.2.count) || (x.2.enable && decide (x.2.count = 0)) || decide (4094 < x.2.vid) ||
      decide (7 < x.2.pcp) ||
      all.any (fun y => decide (x.1 < y.1) && x.2.enable && y.2.enable && decide (x.2.first < y.2.first + y.2.count) &&
        decide (y.2.first < x.2.first + x.2.count)))

/-- An open session's messages no longer fit the MTU of port `p`. -/
def Dev.mtuShort (d : Dev) (p mtu : Nat) : Bool :=
  d.net.sessions.any (fun e => match e.2 with
    | some s => s.open_ && s.ports.getLsbD p && (let m := mtuBad s.encap s.pMax s.rRows mtu; m.1 || m.2)
    | none => false)

/-- The set fails its checks. -/
def Dev.ethSetBad (d : Dev) (p : Nat) : Bool :=
  let c := (d.eth p).shadow
  c.bad || d.mtuShort p c.mtu || streamsBad d.net.inShadow || streamsBad d.net.outShadow

/-- ConfigChangeTime (R758; IEEE 802.1Qbv): BASETIME, or BASETIME and the fewest whole cycles that reach the present. -/
def changeTime (base cycle now : Nat) : Nat := if now ≤ base then base else base + cdiv (now - base) cycle * cycle

/-- The link of port `p` goes down: queued responses are discarded and their slots released (R778). -/
def Dev.linkDown (d : Dev) (p : Nat) : Dev :=
  let e := d.eth p
  if !e.link then d
  else
    let queued := e.tx.flatMap (fun q => q.2.filterMap EthFrame.resp) ++ ((e.frag.bind (fun x => x.2.resp)).toList)
    let lost := e.onWire ++ queued
    let tx := SMap.mapV [] (fun _ l => l.filter (fun f => f.resp.isNone)) e.tx
    let d := d.updEth p (fun e =>
      { e with link := false, linkChg := true, verified := false, tx := tx, onWire := [], frag := e.frag.filter (fun x => x.2.resp.isNone),
               respLost := satAdd e.respLost lost.length })
    lost.foldl Dev.releaseResp d

/-- State of gPTP after APPLY. -/
def ptpAfter (was : BitVec 3) (en : Bool) : BitVec 3 := if !en then 0 else if was = 0 then 1 else was

/-- The set of port `p` is in force (R784). -/
def Dev.ethInstall (d : Dev) (p : Nat) : Dev :=
  let c := (d.eth p).shadow
  let old := (d.eth p).cfg
  let now := d.ptp d.now
  let retrain := decide (c.speed ≠ old.speed) || c.fec != old.fec
  let l : GateList := { base := changeTime c.baseTime c.cycle now, cycle := c.cycle, ext := c.ext, ents := c.list.filterMap id }
  let d := if retrain then d.linkDown p else d
  let d := d.updEth p (fun e =>
    let e := { e with cfg := c, ptpState := ptpAfter e.ptpState c.ptpEn }
    if c.nent = 0 then { e with gates := none, gclPend := none, open_ := 0xFF } else { e with gclPend := some l })
  { d with net := { d.net with ins := d.net.inShadow, outs := d.net.outShadow } }

/-! ### Record 0x0020, KIND 0 (R785, R786) -/

def EthCfg.portBytes (c : EthCfg) : List Byte :=
  [BitVec.ofNat 8 c.speed, BitVec.ofNat 8 (b2n c.fec)] ++ toBytes c.mtu 2 ++ toBytes c.mac 6 ++
    [BitVec.ofNat 8 (b2n c.ptpEn + 2 * b2n c.persist), 0] ++ toBytes c.txLat 2 ++ toBytes c.rxLat 2 ++
    [BitVec.ofNat 8 c.prio1, BitVec.ofNat 8 c.prio2, 0, 0]
def EthCfg.ipBytes (c : EthCfg) : List Byte :=
  toBytes c.ipv4 4 ++ toBytes c.ipv6 16 ++ toBytes c.udpPort 2 ++ [BitVec.ofNat 8 (b2n c.v4En + 2 * b2n c.v6En), 0]
def EthCfg.qosBytes (c : EthCfg) : List Byte :=
  fitTo 8 (c.qmap.map (BitVec.ofNat 8)) ++ [c.express, BitVec.ofNat 8 (b2n c.preemptEn + 2 * b2n c.verifyEn), BitVec.ofNat 8 c.addFrag, 0]
def EthCfg.gclBytes (c : EthCfg) : List Byte := toBytes c.baseTime 8 ++ toBytes c.cycle 4 ++ toBytes c.ext 4 ++ toBytes c.nent 2 ++ [0, 0]
/-- GCLENT blocks of at most 28 entries. -/
def EthCfg.entBlocks (c : EthCfg) : List (List Byte) :=
  (List.range (cdiv c.nent 28)).map (fun k =>
    let n := min 28 (c.nent - 28 * k)
    toBytes (28 * k) 2 ++ [BitVec.ofNat 8 n, 0] ++ (span (28 * k) n).flatMap (fun i =>
      let e := (SMap.get none c.ents i).getD (0, 0)
      [e.1, 0, 0, 0] ++ toBytes e.2 4))
def Stream.bytes (s : Stream) (out : Bool) : List Byte :=
  [BitVec.ofNat 8 (b2n s.enable + 2 * b2n s.float), BitVec.ofNat 8 s.port, BitVec.ofNat 8 s.first, BitVec.ofNat 8 s.count] ++
    toBytes s.mac 6 ++ toBytes s.vid 2 ++ (if out then [BitVec.ofNat 8 s.pcp, 0, 0, 0] else [])

/-- The entries of port `p` and of the streams. -/
def Dev.portRecs (d : Dev) (p : Nat) : List NetRec :=
  let c := (d.eth p).cfg
  let mk (u id : Nat) (b : List Byte) : NetRec := { kind := 0, unit := u, id := id, data := b }
  [mk p 0 c.portBytes, mk p 1 c.ipBytes, mk p 2 c.qosBytes, mk p 3 c.gclBytes] ++ c.entBlocks.map (mk p 4) ++
    (List.range 8).map (fun s => mk 0xFF (0x10 + s) ((SMap.get {} d.net.ins s).bytes false)) ++
    (List.range 8).map (fun s => mk 0xFF (0x18 + s) ((SMap.get {} d.net.outs s).bytes true))

/-- Rewrite the record for port `p`. -/
def Dev.storePort (d : Dev) (p : Nat) (ok : Bool) : Dev :=
  (d.storeNet (d.netRecs.filter (fun r => !(r.kind == 0 && (r.unit == p || r.unit == 0xFF))) ++ d.portRecs p) ok).2

/-- ETH_CONFIG APPLY. -/
def Dev.ethApply (store : Bool) (r : Req) (d : Dev) : Service :=
  let p := r.get 0 1
  Service.of { size := 4, reserved := [(1, 1)] }
    { denied := d.barred r, bad := [(0, decide (1 < p) || d.ethSetBad p)], busy := d.gclWaits }
    (.now fun d =>
      let d := d.ethInstall p
      (stOk, [], if (d.eth p).cfg.persist then d.storePort p store else d))

/-- The link of port `p` comes up. -/
def Dev.linkUp (d : Dev) (p : Nat) : Dev :=
  let e := d.eth p
  if e.cfg.speed = 0 || e.link then d else d.updEth p (fun e => { e with link := true, linkChg := true })

/-- Preemption verification succeeds (R760). -/
def Dev.verifyOk (d : Dev) (p : Nat) : Dev :=
  let e := d.eth p
  if e.link && e.cfg.preemptEn && e.cfg.verifyEn then d.updEth p (fun e => { e with verified := true }) else d

/-- Preemption is active (R760). -/
def Eth.preempt (e : Eth) : Bool := e.cfg.preemptEn && (!e.cfg.verifyEn || e.verified)

/-! ### Reception (R750, Table 20-2) -/

/-- What the receiver reads of a frame: MACs, VID, type, payload. -/
structure Parsed where
  dst : Nat
  src : Nat
  vid : Nat
  type : Nat
  body : List Byte

def parseFrame (b : List Byte) : Parsed :=
  let t := ofBytesBE ((b.drop 12).take 2)
  if t = 0x8100 then
    { dst := fieldAt b 0 6, src := fieldAt b 6 6, vid := ofBytesBE ((b.drop 14).take 2) % 4096, type := ofBytesBE ((b.drop 16).take 2),
      body := b.drop 18 }
  else { dst := fieldAt b 0 6, src := fieldAt b 6 6, vid := 0, type := t, body := b.drop 14 }

/-- A PST message with where it came from: encapsulation, source address and port. -/
structure PstIn where
  encap : Nat
  mac : Nat
  vid : Nat
  ip : Nat
  udp : Nat
  msg : List Byte
  /-- LEN of its header agrees with the frame -/
  fits : Bool

/-- A UDP datagram to the port: source port and payload; none where it is not for UDPPORT. -/
def udpTo (port : Nat) (b : List Byte) : Option (Nat × List Byte × Bool) :=
  let len := ofBytesBE ((b.drop 4).take 2)
  if ofBytesBE ((b.drop 2).take 2) ≠ port || b.length < 8 then none
  else some (ofBytesBE (b.take 2), (b.drop 8).take (len - 8), decide (8 ≤ len) && decide (len ≤ b.length))

/-- The payload of an IPv4 packet to the port: protocol and bytes; none where it is for another address, has options or is a
fragment. -/
def ip4To (c : EthCfg) (b : List Byte) : Option (Nat × List Byte) :=
  let tot := ofBytesBE ((b.drop 2).take 2)
  if c.v4En && fieldAt b 0 1 == 0x45 && ofBytesBE ((b.drop 6).take 2) % 16384 == 0 && fieldAt b 16 4 == c.ipv4 && decide (20 ≤ tot) &&
      decide (tot ≤ b.length) then
    some (fieldAt b 9 1, (b.take tot).drop 20)
  else none

/-- The payload of an IPv6 packet to an address: next header and bytes. -/
def ip6To (c : EthCfg) (any : Bool) (b : List Byte) : Option (Nat × List Byte) :=
  let len := ofBytesBE ((b.drop 4).take 2)
  if c.v6En && fieldAt b 0 1 / 16 == 6 && (any || fieldAt b 24 16 == c.ipv6) && decide (40 + len ≤ b.length) then
    some (fieldAt b 6 1, (b.drop 40).take len)
  else none

/-- LEN of a PST message. -/
def pstLen (m : List Byte) : Nat := fieldAt m 8 2

/-- The PST message of a frame to port parameters `c`; none where it carries none. -/
def pstIn (c : EthCfg) (f : Parsed) : Option PstIn :=
  if f.type = 0x88B5 then
    some { encap := 0, mac := f.src, vid := f.vid, ip := 0, udp := 0, msg := f.body.take (16 + pstLen f.body),
           fits := decide (16 + pstLen f.body ≤ f.body.length) }
  else
    let mk (encap ip : Nat) (u : Nat × List Byte × Bool) : PstIn :=
      { encap := encap, mac := f.src, vid := f.vid, ip := ip, udp := u.1, msg := u.2.1,
        fits := u.2.2 && decide (16 + pstLen u.2.1 = u.2.1.length) }
    if f.type = 0x0800 then match ip4To c f.body with
      | some (17, b) => (udpTo c.udpPort b).map (mk 1 (fieldAt f.body 12 4))
      | _ => none
    else if f.type = 0x86DD then match ip6To c false f.body with
      | some (17, b) => (udpTo c.udpPort b).map (mk 2 (fieldAt f.body 8 16))
      | _ => none
    else none

/-- A frame for the Kiln: ARP request, neighbour solicitation or echo request for the port's addresses. -/
def forKiln (c : EthCfg) (f : Parsed) : Bool :=
  if f.type = 0x0806 then c.v4En && ofBytesBE ((f.body.drop 6).take 2) == 1 && fieldAt f.body 24 4 == c.ipv4
  else if f.type = 0x0800 then match ip4To c f.body with
    | some (1, b) => fieldAt b 0 1 == 8
    | _ => false
  else if f.type = 0x86DD then
    (match ip6To c false f.body with
      | some (58, b) => fieldAt b 0 1 == 128
      | _ => false) ||
    (match ip6To c true f.body with
      | some (58, b) => fieldAt b 0 1 == 135 && fieldAt b 8 16 == c.ipv6
      | _ => false)
  else false

/-- Destination addresses that the port accepts. -/
def EthCfg.takes (c : EthCfg) (dst : Nat) : Bool :=
  dst == c.mac || dst == 2 ^ 48 - 1 || dst == ofBytes [0x01, 0x80, 0xC2, 0x00, 0x00, 0x0E] ||
    (c.v6En && dst == ofBytes ([0x33, 0x33, 0xFF] ++ (toBytes c.ipv6 16).drop 13))

/-- Header fields of a PST message that are wrong, LEN apart (R766). -/
def pstHeadBad (m : List Byte) : Bool :=
  decide (m.length < 16) || fieldAt m 0 1 != 1 || decide (4095 < fieldAt m 2 2) || fieldAt m 10 2 != 0

def Eth.countBad (e : Eth) : Eth := { e with bad := satInc e.bad }

/-- A cyclic input frame (R761, R762). -/
def Dev.cyclicIn (d : Dev) (p : Nat) (x : PstIn) : Dev :=
  let m := x.msg
  let b := m.drop 16
  let s := fieldAt m 2 2
  let st := SMap.get {} d.net.ins s
  let seq : W32 := BitVec.ofNat 32 (fieldAt m 4 4)
  let new := match SMap.get none d.net.inSeq s with
    | some q => seqNewer seq q
    | none => true
  let ok := x.fits && !pstHeadBad m && decide (s < 8) && st.enable && st.port == p && x.mac == st.mac && x.vid == st.vid &&
    fieldAt b 0 1 == st.first && fieldAt b 1 1 == st.count && fieldAt b 2 6 == 0 && pstLen m == 16 + 4 * st.count && new
  if !ok then d.updEth p Eth.countBad
  else
    let vals := (List.range st.count).map (fun i => (st.first + i, BitVec.ofNat 32 (fieldAt b (16 + 4 * i) 4)))
    let tsn := vals.foldl (fun m v => SMap.set (0, false) m v.1 (v.2, st.float)) d.sle.tsn
    let fresh := vals.foldl (fun m v => SMap.set false m v.1 true) d.sle.tsnNew
    { d with
      sle := { d.sle with tsn := tsn, tsnNew := fresh }
      net := { d.net with inSeq := SMap.set none d.net.inSeq s (some seq) } }

/-- The converted deadline of a SOLVE_REQUEST payload (R771). -/
def Dev.reqDeadline (d : Dev) (rxt : Nat) (b : List Byte) : Int :=
  if bit1 (fieldAt b 2 2) 1 then rxt + fieldAt b 8 8 / 10 else ((fieldAt b 8 8 : Int) - d.net.ptpOfs.toInt).fdiv 10

/-- Deadline kept with a buffered frame (R779). -/
def Dev.rxDeadline (d : Dev) (rxt : Nat) (m : List Byte) : Option Int :=
  let b := m.drop 16
  if fieldAt m 1 1 ≠ 1 || b.length < 16 then none
  else if !bit1 (fieldAt b 2 2) 1 && !d.net.locked then none
  else some (d.reqDeadline rxt b)

/-- Bytes that the receive buffer of a port holds. -/
def Eth.rxBytes (e : Eth) : Nat := (e.rx.map (fun f => f.bytes.length)).sum

/-- Size of the receive buffer. -/
def rxSize : Nat := 262144

/-- Remove the oldest buffered late request: it, and the rest. -/
def takeLate (now : Nat) : List RxPst → Option (RxPst × List RxPst)
  | [] => none
  | f :: fs => match f.dl with
    | some t => if t ≤ (now : Int) then some (f, fs) else (takeLate now fs).map (fun x => (x.1, f :: x.2))
    | none => (takeLate now fs).map (fun x => (x.1, f :: x.2))

/-- Make room for `n` bytes: late requests leave, oldest first (R779). `k` bounds their number. -/
def Dev.evict (p n : Nat) : Nat → Dev → Dev
  | 0, d => d
  | k + 1, d =>
    if (d.eth p).rxBytes + n ≤ rxSize then d
    else match takeLate d.now (d.eth p).rx with
      | none => d
      | some (f, rest) =>
        let d := d.updEth p (fun e => { e with rx := rest, lateEvict := satInc e.lateEvict })
        let s := match pstIn (d.eth p).cfg (parseFrame f.bytes) with
          | some x => fieldAt x.msg 2 2
          | none => 4096
        Dev.evict p n k (d.updSession s (fun x => { x with evicted := x.evicted + 1 }))

/-- A PST frame enters the receive buffer. -/
def Dev.rxPut (d : Dev) (p : Nat) (bytes : List Byte) (x : PstIn) : Dev :=
  let d := Dev.evict p bytes.length ((d.eth p).rx.length) d
  if rxSize < (d.eth p).rxBytes + bytes.length then d.updEth p (fun e => { e with full := satInc e.full })
  else
    let f : RxPst := { bytes := bytes, rxt := d.glb.time, dl := d.rxDeadline d.now x.msg }
    d.updEth p (fun e => { e with rx := e.rx ++ [f] })

/-- The timestamp of a gPTP event message whose start-of-frame delimiter passes now, in 1/65,536 tick: device time, at the port's fixed delay,
corrected by TXLAT or RXLAT (R752). The part of a tick that has passed is not told by this model (log 1). -/
def Dev.ptpStampNow (d : Dev) (p : Nat) (sent : Bool) : Nat × Dev :=
  let w := d.draw
  let c := (d.eth p).cfg
  let at_ : Int := d.now * 65536 + (Config.freeWord w.1).toNat % 65536
  let gap : Int := Config.stampDelay c.speed (b2n c.fec) sent
  let cor (lat : Nat) : Int := lat * 65536 / 10
  ((((if sent then at_ - gap + cor c.txLat else at_ + gap - cor c.rxLat) % 2 ^ 80).toNat), w.2)

/-- PTP time in ns of a timestamp (R753). -/
def Dev.ptpOfStamp (d : Dev) (s : Nat) : Nat := (10 * s / 65536 + d.net.ptpOfs.toNat) % 2 ^ 64

/-- messageType of a gPTP message. -/
def gptpType (m : List Byte) : Nat := bits (fieldAt m 0 1) 0 4

/-- A gPTP message goes to the Kiln, an event message (Sync, Pdelay_Req, Pdelay_Resp) with its timestamp; a peer-delay request is kept for its
answer. -/
def Dev.gptpIn (d : Dev) (p : Nat) (bytes m : List Byte) : Dev :=
  if 4 ≤ gptpType m then d.updEth p (fun e => { e with gptp := e.gptp ++ [{ bytes := bytes, stamp := none }] })
  else
    let s := d.ptpStampNow p false
    s.2.updEth p (fun e => { e with
      gptp := e.gptp ++ [{ bytes := bytes, stamp := some s.1 }]
      delayReq := if gptpType m = 2 then
        some { seq := ofBytesBE ((m.drop 30).take 2), ident := (m.drop 20).take 10, stamp := s.1 } else e.delayReq })

/-- A frame is received (R750). `bytes` runs from the destination address to the end of the payload. -/
def Dev.receive (d : Dev) (p : Nat) (fcsOk : Bool) (bytes : List Byte) : Dev :=
  let e := d.eth p
  let c := e.cfg
  if !e.link then d
  else
    let f := parseFrame bytes
    let badLen := decide (bytes.length + 4 < 64) || decide (c.mtu + 22 < bytes.length + 4)
    if !fcsOk || badLen || !c.takes f.dst then d.updEth p Eth.countBad
    else if f.type = 0x88F7 then d.gptpIn p bytes f.body
    else match pstIn c f with
      | some x => if x.encap = 0 && fieldAt x.msg 1 1 == 0x10 then d.cyclicIn p x else d.rxPut p bytes x
      | none => if forKiln c f then d.updEth p (fun e => { e with kiln := e.kiln ++ [bytes] }) else d.updEth p Eth.countBad

/-! ### Requests (R772-R775, Table 20-9) -/

/-- The session of a request passes step 2. -/
def Session.takes (s : Session) (p : Nat) (x : PstIn) : Bool :=
  s.open_ && s.ports.getLsbD p && s.encap == x.encap && x.vid == s.vid &&
    (if x.encap = 0 then x.mac == s.peerMac else x.ip == s.peerIp && (s.peerPort == 0 || s.peerPort == x.udp))

/-- Send a NOTICE for a request that fails one of steps 3 to 9, and count it. -/
def Dev.notice (d : Dev) (p sn : Nat) (s : Session) (x : PstIn) (code detail : Nat) : Dev :=
  let d := d.updEth p (fun e => { e with notices := satInc e.notices })
  let d := d.updSession sn (fun s => { s with notices := s.notices + 1 })
  if !s.noticeEn then d
  else
    let m := pstHeader 0x03 sn (fieldAt x.msg 4 4) 8 (fieldAt x.msg 12 4) ++ [BitVec.ofNat 8 code, 0, 0, 0] ++ toBytes detail 4
    let r := d.pstFrame s p x.mac x.ip x.udp x.vid m
    r.2.enqueue p s.pcp { bytes := r.1 }

/-- The generated submission entry (Table 20-10). -/
def pstEntry (sn k : Nat) (s : Session) (b : List Byte) (deadline param : Nat) : List Byte :=
  let plen := fieldAt b 16 2
  toBytes (sn * 2 ^ 20 + k) 4 ++ toBytes (fieldAt b 2 2 % 2) 2 ++ toBytes (cdiv plen 512) 2 ++ toBytes deadline 8 ++ toBytes param 8 ++
    toBytes (param + s.pMax * 512) 8 ++ toBytes 0 8 ++ toBytes 0 4 ++ toBytes s.sigCtr.toNat 4 ++ toBytes 0 8 ++ toBytes 0 4 ++
    toBytes (fieldAt b 4 2) 2 ++ toBytes (fieldAt b 6 2) 2

/-- An accepted request: slot, rows, entry, tail (R774). -/
def Dev.pstSubmit (d : Dev) (p sn : Nat) (s : Session) (x : PstIn) (k u : Nat) (q : Queue) (deadline : Nat) : Dev :=
  let b := x.msg.drop 16
  let plen := fieldAt b 16 2
  let param := s.sBase + k * (s.pMax + 8) * 512
  let sl : PstSlot :=
    { reqTag := BitVec.ofNat 32 (fieldAt x.msg 12 4), seq := BitVec.ofNat 32 (fieldAt x.msg 4 4), port := p, mac := x.mac, ip := x.ip,
      udp := x.udp, vid := x.vid }
  let d := d.updSession sn (fun s => { s with slots := SMap.set none s.slots k (some sl), accepted := s.accepted + 1 })
  let d := d.updEth p (fun e => { e with accepted := satInc e.accepted })
  let d := d.write s.tenant false param (fitTo (cdiv plen 512 * 512) ((b.drop 24).take plen))
  let d := d.write s.tenant false (q.desc.sqBase + 64 * q.tail) (pstEntry sn k s b deadline param)
  d.updQueue u (fun q => { q with tail := (q.tail + 1) % q.desc.sqSize, stopped := false })

/-- The checks of steps 4 to 9 and what follows them. A queue that is not, or no longer, one of the session's tenant named by it takes no request
(R618, R769): its ring counts as full. -/
def Dev.pstAccept (d : Dev) (p sn : Nat) (s : Session) (x : PstIn) (rxt : Nat) : Dev :=
  let b := x.msg.drop 16
  let seq : W32 := BitVec.ofNat 32 (fieldAt x.msg 4 4)
  let new := match s.lastSeq with
    | some q => seqNewer seq q
    | none => true
  if !new then d.notice p sn s x 2 0
  else
    let d := d.updSession sn (fun s => { s with lastSeq := some seq })
    let dl := d.reqDeadline rxt b
    let u := s.qBase + fieldAt b 0 2
    if s.qCount ≤ fieldAt b 0 2 then d.notice p sn s x 3 0
    else if !bit1 (fieldAt b 2 2) 1 && !d.net.locked then d.notice p sn s x 4 0
    else if dl ≤ (d.now : Int) then d.notice p sn s x 5 (min ((d.now : Int) - dl).toNat 0xFFFFFFFF)
    else match s.freeSlot, (d.queue u).filter (fun q => decide (q.pst = some sn ∧ q.tenant = s.tenant)) with
      | some k, some q =>
        if (q.tail + 1) % q.desc.sqSize = q.head then d.notice p sn s x 7 0 else d.pstSubmit p sn s x k u q dl.toNat
      | none, _ => d.notice p sn s x 6 0
      | _, none => d.notice p sn s x 7 0

/-- Payload fields of a request that are wrong (step 3). -/
def requestBad (s : Session) (m : List Byte) : Bool :=
  let b := m.drop 16
  decide (b.length < 24) || decide (3 < fieldAt b 2 2) || decide (fieldAt b 18 6 ≠ 0) || decide (8192 < fieldAt b 16 2) ||
    decide (s.pMax * 512 < fieldAt b 16 2) || decide (b.length ≠ 24 + fieldAt b 16 2)

/-- The receive path takes the oldest buffered frame of a port (R772, R780). -/
def Dev.pstProcess (d : Dev) (p : Nat) : Dev :=
  match (d.eth p).rx with
  | [] => d
  | f :: rest =>
    let d := d.updEth p (fun e => { e with rx := rest })
    match pstIn (d.eth p).cfg (parseFrame f.bytes) with
    | none => d.updEth p Eth.countBad
    | some x =>
      if !x.fits || pstHeadBad x.msg || fieldAt x.msg 1 1 != 1 then d.updEth p Eth.countBad
      else
        let sn := fieldAt x.msg 2 2
        match d.session sn with
        | none => d.updEth p (fun e => { e with noSession := satInc e.noSession })
        | some s =>
          if !s.takes p x then d.updEth p (fun e => { e with noSession := satInc e.noSession })
          else if requestBad s x.msg then d.notice p sn s x 1 0
          else d.pstAccept p sn s x f.rxt.toNat

/-! ### Gates (R758) -/

/-- Gates of the entry in force `t` nanoseconds after the start of a cycle; the last entry holds to its end. -/
def gatesAt (l : List (BitVec 8 × Nat)) (t : Nat) : BitVec 8 :=
  match l with
  | [] => 0xFF
  | [x] => x.1
  | x :: y :: m => if t < x.2 then x.1 else gatesAt (y :: m) (t - x.2)

/-- Nanoseconds since the start of the cycle in force: before a change a last cycle shorter than EXT is not started, and the one
before it goes on (IEEE 802.1Qbv). -/
def GateList.place (g : GateList) (pend : Option GateList) (now : Nat) : Nat :=
  let n := (now - g.base) / g.cycle
  let start := g.base + n * g.cycle
  match pend with
  | some x => if 0 < n && decide (x.base ≤ start + g.ext) then now - (start - g.cycle) else now - start
  | none => now - start

/-- The gates of a port at a PTP time. -/
def Eth.gatesNow (e : Eth) (now : Nat) : BitVec 8 :=
  match e.gates with
  | none => 0xFF
  | some g => if now < g.base then 0xFF else gatesAt g.ents (g.place e.gclPend now)

/-- A gate event takes effect. -/
def Dev.gateEvent (d : Dev) (p : Nat) : Dev := let now := d.ptp d.now; d.updEth p (fun e => { e with open_ := e.gatesNow now })

/-- The waiting list becomes operational at its ConfigChangeTime. -/
def Dev.gclChange (d : Dev) (p : Nat) : Dev :=
  let now := d.ptp d.now
  match (d.eth p).gclPend with
  | some g => if now < g.base then d else (d.updEth p (fun e => { e with gates := some g, gclPend := none })).gateEvent p
  | none => d

/-! ### Sending (R757, R759, R760, R777) -/

/-- Nanoseconds for which queue `q` stays open: from place `t` of a cycle over the entries that follow; none where it never closes.
`k` bounds the entries looked at. -/
def openFor (ents : List (BitVec 8 × Nat)) (q : Nat) : Nat → List (BitVec 8 × Nat) → Nat → Option Nat
  | 0, _, _ => none
  | k + 1, [], t => openFor ents q k ents t
  | k + 1, x :: rest, t =>
    if x.2 ≤ t then openFor ents q k rest (t - x.2)
    else if x.1.getLsbD q then (openFor ents q k rest 0).map (· + (x.2 - t)) else some 0

/-- Nanoseconds until the gate of queue `q` closes; none where it does not. -/
def Eth.closes (e : Eth) (q now : Nat) : Option Nat :=
  let own := match e.gates with
    | none => none
    | some g => if now < g.base then none else openFor g.ents q (2 * g.ents.length + 1) g.ents (g.place e.gclPend now)
  match e.gclPend with
  | none => own
  | some x => if (gatesAt x.ents 0).getLsbD q then own else some (min (own.getD (x.base - now)) (x.base - now))

/-- A queue may send its frame: gate open, and `n` bytes complete before it closes. -/
def Eth.fits (e : Eth) (q n now : Nat) : Bool :=
  let rate : Nat := if e.cfg.speed = 1 then 10 else 25
  e.open_.getLsbD q && match e.closes q now with
    | none => true
    | some t => decide (8 * n ≤ t * rate)

/-- Bytes on the wire that must fit: frame and FCS, or the first fragment (R759). -/
def Eth.need (e : Eth) (q : Nat) (f : EthFrame) : Nat :=
  let n := f.bytes.length + 4
  if e.preempt && !e.cfg.express.getLsbD q then min n (64 * (1 + e.cfg.addFrag)) else n

/-- The queue to be served: the highest that may send; a suspended frame stands for its queue and bars the other preemptable ones. -/
def Eth.pick (e : Eth) (now : Nat) : Option Nat :=
  [7, 6, 5, 4, 3, 2, 1, 0].find? (fun q =>
    match e.frag with
    | some (q0, _) =>
      if e.cfg.express.getLsbD q then (match (SMap.get [] e.tx q).head? with
        | some f => e.fits q (e.need q f) now
        | none => false)
      else q == q0 && e.open_.getLsbD q
    | none => match (SMap.get [] e.tx q).head? with
      | some f => e.fits q (e.need q f) now
      | none => false)

/-- The whole frame goes out. -/
def Dev.sendFrame (d : Dev) (p : Nat) (f : EthFrame) : Dev :=
  (d.updEth p (fun e => { e with onWire := e.onWire ++ f.resp.toList })).send (.frame p f.bytes)

/-- A frame starts: an event message of gPTP is timestamped (R752). -/
def Dev.stampTx (d : Dev) (p : Nat) (f : EthFrame) : Dev :=
  match f.ptp with
  | none => d
  | some k =>
    let s := d.ptpStampNow p true
    s.2.updEth p (fun e => match k with
      | .sync => { e with syncTx := some s.1 }
      | .delayReq => { e with reqTx := some s.1 }
      | .delayResp => { e with respTx := some s.1 })

/-- The port starts its next frame; a preemptable frame that cannot end before its gate closes is suspended after its first
fragment. -/
def Dev.transmit (d : Dev) (p : Nat) : Dev :=
  let e := d.eth p
  let now := d.ptp d.now
  if !e.link then d
  else match e.pick now with
    | none => d
    | some q =>
      match e.frag with
      | some (q0, f) =>
        if q = q0 && !e.cfg.express.getLsbD q then (d.updEth p (fun e => { e with frag := none })).sendFrame p f
        else match SMap.get [] e.tx q with
          | [] => d
          | g :: gs => ((d.updEth p (fun e => { e with tx := SMap.set [] e.tx q gs })).stampTx p g).sendFrame p g
      | none => match SMap.get [] e.tx q with
        | [] => d
        | g :: gs =>
          let d := (d.updEth p (fun e => { e with tx := SMap.set [] e.tx q gs })).stampTx p g
          if e.preempt && !e.cfg.express.getLsbD q && !e.fits q (g.bytes.length + 4) now then
            d.updEth p (fun e => { e with frag := some (q, g) })
          else d.sendFrame p g

/-- The last byte of a response has been sent (R777). -/
def Dev.respSent (d : Dev) (p : Nat) : Dev :=
  match (d.eth p).onWire with
  | [] => d
  | r :: rs =>
    let d := d.updEth p (fun e => { e with onWire := rs })
    (d.updSession r.1 (fun s => { s with responses := s.responses + 1 })).releaseResp r

/-! ### Time synchronisation (R754-R756) -/

/-- A gPTP port is SLAVE or PASSIVE when the other is. -/
def Dev.slaveTo (d : Dev) (p : Nat) : Dev :=
  let st (i : Nat) (e : Eth) : Eth := if !e.cfg.ptpEn then e else if i = p then { e with ptpState := 2 } else { e with ptpState := 4 }
  (d.updEth 0 (st 0)).updEth 1 (st 1)

/-- The Kiln processes a Sync: `err` is T of R753 less the master's time, in ns; `adj` is the servo's rate. -/
def Dev.ptpSync (d : Dev) (p : Nat) (err : W64) (adj : W32) : Dev :=
  if d.glb.src ≠ 1 || d.kiln.fw ≠ .fw || !(d.eth p).cfg.ptpEn then d
  else
    let d := (d.slaveTo p).updEth p (fun e => { e with gptp := [] })
    let n := { d.net with gm := false, offset := sat32 err.toInt }
    if !n.anchored || decide (1000000 < err.toInt.natAbs) then
      { d with net := { n with ptpOfs := n.ptpOfs - err, anchors := (n.anchors + 1) % 256, anchored := true, locked := false, good := 0 } }
    else
      let good := if err.toInt.natAbs ≤ 100 then min 8 (n.good + 1) else 0
      ({ d with net := { n with good := good, locked := n.locked || decide (8 ≤ good) } }).setAdj adj

/-- No Sync for three intervals (R755): the ports listen again. -/
def Dev.ptpTimeout (d : Dev) : Dev :=
  let st (e : Eth) : Eth := if e.ptpState = 2 || e.ptpState = 4 then { e with ptpState := 1 } else e
  { ((d.updEth 0 st).updEth 1 st) with net := { d.net with locked := false, good := 0 } }

/-- Header of a gPTP message (PRESUMED IEEE 802.1AS). -/
def ptpHeader (mac p type len flags seq ctl logInt : Nat) : List Byte :=
  let id := (toBytes mac 6).take 3 ++ [0xFF, 0xFE] ++ (toBytes mac 6).drop 3
  [BitVec.ofNat 8 (0x10 + type), 0x12] ++ toBytesBE len 2 ++ [0, 0] ++ toBytesBE flags 2 ++ List.replicate 12 0 ++ id ++
    toBytesBE (p + 1) 2 ++ toBytesBE seq 2 ++ [BitVec.ofNat 8 ctl, BitVec.ofNat 8 logInt]

/-- A PTP time as a timestamp. -/
def ptpStamp (t : Nat) : List Byte := toBytesBE (t / 1000000000) 6 ++ toBytesBE (t % 1000000000) 4

/-- Body of a gPTP message; it carries the timestamps of the messages it follows or answers. What the spec and its standard leave to the device is that of `w` (log 1). -/
def Dev.ptpBody (d : Dev) (p : Nat) (kind : PtpMsg) (w : Nat) : List Byte :=
  let c := (d.eth p).cfg
  let c0 := (d.eth 0).cfg
  let s := d.net.syncSeq.toNat
  let id := (toBytes c.mac 6).take 3 ++ [0xFF, 0xFE] ++ (toBytes c.mac 6).drop 3
  let z (n : Nat) : List Byte := List.replicate n 0
  let e := d.eth p
  let t (o : Option Nat) : List Byte := ptpStamp (d.ptpOfStamp (o.getD 0))
  let rq := e.delayReq
  let seq := (rq.map DelayReq.seq).getD 0
  let who := (rq.map DelayReq.ident).getD []
  match kind with
  | .sync => ptpHeader c.mac p 0 44 0x0208 s 0 0xFD ++ z 10
  | .followUp => ptpHeader c.mac p 8 76 0x0008 (s - 1) 2 0xFD ++ t e.syncTx ++ [0, 3, 0, 28, 0x00, 0x80, 0xC2, 0, 0, 1] ++ z 22
  | .announce =>
    ptpHeader c.mac p 0xB 76 0x0008 (bits w 0 16) 5 0 ++ z 10 ++ toBytesBE (bits w 16 16) 2 ++
      [0, BitVec.ofNat 8 c0.prio1, 248, BitVec.ofNat 8 (bits w 32 8)] ++ toBytesBE (bits w 40 16) 2 ++ [BitVec.ofNat 8 c0.prio2] ++ id ++
      [0, 0, BitVec.ofNat 8 (bits w 56 8), 0, 8, 0, 8] ++ id
  | .pdelayReq => ptpHeader c.mac p 2 54 0x0008 (bits w 0 16) 5 0 ++ z 20
  | .pdelayResp => ptpHeader c.mac p 3 54 0x0208 seq 5 0x7F ++ t (rq.map DelayReq.stamp) ++ fitTo 10 who
  | .pdelayRespFollowUp => ptpHeader c.mac p 0xA 54 0x0008 seq 5 0x7F ++ t e.respTx ++ fitTo 10 who

/-- The message is one that only a master sends. -/
def ptpMaster : PtpMsg → Bool
  | .sync => true
  | .followUp => true
  | .announce => true
  | _ => false

/-- What a message answers, or whose timestamp it carries, has been received, or has left. -/
def Eth.ptpReady (e : Eth) : PtpMsg → Bool
  | .followUp => e.syncTx.isSome
  | .pdelayResp => e.delayReq.isSome
  | .pdelayRespFollowUp => e.delayReq.isSome && e.respTx.isSome
  | _ => true

/-- The event message that a message is. -/
def ptpEvent : PtpMsg → Option PtpEvent
  | .sync => some .sync
  | .pdelayReq => some .delayReq
  | .pdelayResp => some .delayResp
  | _ => none

/-- A message is queued: the timestamp of the last one of its kind is void. -/
def Eth.ptpQueued (e : Eth) : PtpMsg → Eth
  | .sync => { e with syncTx := none }
  | .pdelayReq => { e with reqTx := none }
  | .pdelayResp => { e with respTx := none }
  | _ => e

/-- Without a better clock the device is grandmaster and every gPTP port MASTER (R756). -/
def Dev.grandmaster (d : Dev) : Dev :=
  let st (e : Eth) : Eth := if e.cfg.ptpEn then { e with ptpState := 3 } else e
  { ((d.updEth 0 st).updEth 1 st) with net := { d.net with gm := true } }

/-- A port sends a gPTP message (R756, R757): one that follows or answers another, once that has left or arrived. -/
def Dev.ptpSend (d : Dev) (p : Nat) (kind : PtpMsg) : Dev :=
  if d.glb.src ≠ 1 || d.kiln.fw ≠ .fw || !(d.eth p).cfg.ptpEn || !(d.eth p).ptpReady kind || (ptpMaster kind && ((d.eth 0).ptpState == 2 || (d.eth 1).ptpState == 2)) then d
  else
    let d := if ptpMaster kind then d.grandmaster else d
    let d := if kind = .sync then { d with net := { d.net with syncSeq := d.net.syncSeq + 1 } } else d
    let r := d.draw
    let w := (Config.freeWord r.1).toNat
    let b := ofBytes [0x01, 0x80, 0xC2, 0x00, 0x00, 0x0E]
    let f : EthFrame := { bytes := etherFrame b (d.eth p).cfg.mac 0 0 0x88F7 (r.2.ptpBody p kind w), ptp := ptpEvent kind }
    (r.2.updEth p (fun e => e.ptpQueued kind)).enqueue p 7 f

/-! ### Replies of the Kiln (R751) -/

/-- A checksum put at offset `o` of a message, over `pre` and the message with zeros there. -/
def withSum (pre b : List Byte) (o : Nat) : List Byte :=
  let z := b.take o ++ [0, 0] ++ b.drop (o + 2)
  z.take o ++ toBytesBE (cksum (pre ++ z)) 2 ++ z.drop (o + 2)

/-- The reply to a frame; none where it asks nothing. The layouts are those of the protocols (PRESUMED); free fields are those of `w`
(log 1). -/
def kilnReply (c : EthCfg) (w : Nat) (f : Parsed) : Option (List Byte) :=
  if f.type = 0x0806 then
    some (etherFrame f.src c.mac f.vid 0 0x0806 ([0, 1, 8, 0, 6, 4, 0, 2] ++ toBytes c.mac 6 ++ toBytes c.ipv4 4 ++ (f.body.drop 8).take 10))
  else if f.type = 0x0800 then match ip4To c f.body with
    | some (1, b) =>
      some (etherFrame f.src c.mac f.vid 0 0x0800 (ipv4 w c.ipv4 (fieldAt f.body 12 4) 1 (withSum [] (0 :: b.drop 1) 2)))
    | _ => none
  else
    let src := fieldAt f.body 8 16
    let pre (n : Nat) : List Byte := toBytes c.ipv6 16 ++ toBytes src 16 ++ toBytesBE n 4 ++ [0, 0, 0, 58]
    match ip6To c true f.body with
    | some (58, b) =>
      if fieldAt b 0 1 = 135 then
        let m : List Byte := [136, 0, 0, 0, 0x60, 0, 0, 0] ++ toBytes c.ipv6 16 ++ [2, 1] ++ toBytes c.mac 6
        some (etherFrame f.src c.mac f.vid 0 0x86DD (ipv6 w c.ipv6 src 58 (withSum (pre m.length) m 2)))
      else some (etherFrame f.src c.mac f.vid 0 0x86DD (ipv6 w c.ipv6 src 58 (withSum (pre b.length) (129 :: b.drop 1) 2)))
    | _ => none

/-- The Kiln answers the oldest frame that waits for it. -/
def Dev.neighbour (d : Dev) (p : Nat) : Dev :=
  match (d.eth p).kiln with
  | [] => d
  | b :: bs =>
    if d.kiln.fw ≠ .fw then d
    else
      let r := d.draw
      let d := r.2.updEth p (fun e => { e with kiln := bs })
      match kilnReply (d.eth p).cfg (Config.freeWord r.1).toNat (parseFrame b) with
      | some f => d.enqueue p 0 { bytes := f }
      | none => d

end Sys2Proof.Machine
end

