-- ==== Sys2Proof/Machine/SleOps.lean ====
section
/-!
DEFINITION. Machine/SleOps.lean: the servo loop engine: parameter blocks, start and stop, samples, the control law, trajectories,
snapshots and the homing sequencer (17, 18).
-/
namespace Sys2Proof.Machine

/-! ### Arithmetic: binary32, nearest even, full subnormals (17) -/

def sf (v : FVal) : W32 := encode32 true .rne v
def sv (w : W32) : FVal := decode32 true w
def sAdd (a b : W32) : W32 := sf ((sv a).add (sv b))
def sSub (a b : W32) : W32 := sf ((sv a).add (sv b).neg)
def sMul (a b : W32) : W32 := sf ((sv a).mul (sv b))
def sDiv (a b : W32) : W32 := sf ((sv a).div (sv b))
/-- An integer in binary32. -/
def sInt (i : Int) : W32 := sf (FVal.ofInt i)
def sLt (a b : W32) : Bool := (sv a).lt (sv b)
def sNeg (a : W32) : W32 := sf (sv a).neg
/-- clamp(v, lo, hi); a NaN stays. -/
def sClamp (v lo hi : W32) : W32 := if sLt v lo then lo else if sLt hi v then hi else v
/-- Neither NaN nor infinite. -/
def sFinite (a : W32) : Bool := match sv a with
  | .fin _ _ _ => true
  | _ => false

/-! ### SLE_CONFIG blocks (R669, Table 17-5) -/

/-- A counter field: the number when VALID = 1. -/
def ctrOf (v : Nat) : Option Nat := if bit1 v 31 then some (bits v 0 17) else none

/-- Size of the DATA of a block; `b` is the DATA. -/
def sleSize (blk : Nat) (b : List Byte) : Nat :=
  let n := fieldAt b 1 1
  if blk = 0 then 24 else if blk = 1 then 28 else if blk = 2 ∨ blk = 4 ∨ blk = 5 then 4 + 12 * n
  else if blk = 3 then 4 + 16 * n else if blk = 0xFFFF then 0 else 128

/-- Reserved fields of a block that are not zero, FIRST and COUNT outside the table, reserved codes: by offset in DATA. -/
def Dev.sleBad (d : Dev) (blk : Nat) (b : List Byte) : List (Nat × Bool) :=
  let g := fieldAt b
  let first := g 0 1
  let n := g 1 1
  let top : Nat := if blk = 2 then 32 else 16
  let range : List (Nat × Bool) := [(0, decide (top ≤ first)), (1, decide (top < first + n)), (2, decide (g 2 2 ≠ 0))]
  let ctr (o : Nat) : Nat × Bool :=
    (o, decide (bits (g o 4) 17 14 ≠ 0) || (bit1 (g o 4) 31 && decide (SMap.get 0 d.syn.owner (bits (g o 4) 0 17 / 256) = 0)))
  if blk = 0 then [(12, decide (8 ≤ g 12 2))]
  else if blk = 1 then [ctr 16, ctr 20, ctr 24]
  else if blk = 2 then range ++ (List.range n).flatMap (fun i =>
    let o := 4 + 12 * i
    [(o, decide (5 < g o 1)), (o + 2, decide (1 < g (o + 2) 1)), (o + 3, decide (g (o + 3) 1 ≠ 0))])
  else if blk = 3 then range ++ (List.range n).flatMap (fun i =>
    let o := 4 + 16 * i
    [(o, decide (4 < g o 1)), (o + 2, decide (g (o + 2) 2 ≠ 0))])
  else if blk = 4 then range
  else if blk = 5 then range ++ (List.range n).map (fun i => (4 + 12 * i + 2, decide (g (4 + 12 * i + 2) 2 ≠ 0)))
  else []

/-- A table with the entries `first` on replaced. -/
def putEnts {α : Type} [DecidableEq α] (z : α) (m : SMap α) (first n : Nat) (f : Nat → α) : SMap α :=
  (List.range n).foldl (fun m i => SMap.set z m (first + i) (f i)) m

/-- A block updates a set of parameters. -/
def SleCfg.block (c : SleCfg) (blk : Nat) (b : List Byte) : SleCfg :=
  let g := fieldAt b
  let w (o : Nat) : W32 := BitVec.ofNat 32 (g o 4)
  let first := g 0 1
  let n := g 1 1
  if blk = 0 then
    { c with
      loop := true
      period := g 0 4
      inwin := g 4 2
      outinst := g 6 2
      nx := g 8 1
      nu := g 9 1
      ni := g 10 1
      missLim := g 11 1
      tlock := bit1 (g 12 2) 0
      fly := bit1 (g 12 2) 1
      persist := bit1 (g 12 2) 2
      sampDiv := g 14 2
      alignOfs := w 16
      vtol := w 20 }
  else if blk = 1 then
    { c with
      links := true
      stageBase := g 0 8
      snapBase := g 8 8
      cmt := ctrOf (g 16 4)
      ack := ctrOf (g 20 4)
      samp := ctrOf (g 24 4) }
  else if blk = 2 then
    let ent (i : Nat) : InEnt :=
      let o := 4 + 12 * i
      { src := g o 1, ch := g (o + 1) 1, fresh := bit1 (g (o + 2) 1) 0, scale := w (o + 4), offset := w (o + 8) }
    { c with inmap := putEnts {} c.inmap first n ent }
  else if blk = 3 then
    let ent (i : Nat) : OutEnt :=
      let o := 4 + 16 * i
      { dst := g o 1, ch := g (o + 1) 1, scale := w (o + 4), offset := w (o + 8), safeVal := w (o + 12) }
    { c with outmap := putEnts {} c.outmap first n ent }
  else if blk = 4 then
    let ent (i : Nat) : LimEnt :=
      let o := 4 + 12 * i
      { umin := w o, umax := w (o + 4), dumax := w (o + 8) }
    { c with limits := putEnts {} c.limits first n ent }
  else if blk = 5 then
    let ent (i : Nat) : IntEnt :=
      let o := 4 + 12 * i
      { sel := g o 1, out := g (o + 1) 1, ki := w (o + 4), zlim := w (o + 8) }
    { c with integ := putEnts {} c.integ first n ent }
  else { c with gain := putEnts 0 c.gain ((blk - 0x100) * 32) 32 (fun i => w (4 * i)), gainNew := true }

/-- A block that is turned away while RUNNING (R672). -/
def Dev.sleFixed (d : Dev) (blk : Nat) (b : List Byte) : Bool :=
  let c := d.sle.shadow
  let n := c.block blk b
  decide (d.sle.st = .running) &&
    (blk == 2 || blk == 3 || (blk == 0 && (n.nx != d.sle.cfg.nx || n.nu != d.sle.cfg.nu || n.ni != d.sle.cfg.ni)))

/-- SLE_CONFIG with a block. The spec gives no EFFECTIVE for a block other than APPLY: it is free (log 1). -/
def Dev.sleBlock (r : Req) (d : Dev) : Service :=
  let blk := r.get 0 2
  let b := r.pay.drop 4
  Service.of { size := 4 + sleSize blk b, reserved := [(2, 2)] }
    { denied := d.barred r, bad := (d.sleBad blk b).map (fun x => (4 + x.1, x.2)), busy := d.sle.pend.isSome || d.sleFixed blk b }
    (.now fun d =>
      let w := d.draw
      let d := w.2
      (stOk, toBytes (Config.freeWord w.1).toNat 8, { d with sle := { d.sle with shadow := d.sle.shadow.block blk b } }))

/-! ### APPLY (R641, R642, R648, R670, R671, R689) -/

/-- Duration of the computation (R645). -/
def SleCfg.calc (c : SleCfg) : Nat := 48 + c.nu * cdiv c.nx 2

/-- Largest correction Δ of a TLOCK period (R642). -/
def SleCfg.delta (c : SleCfg) : Nat := cdiv c.period 1333

/-- The ranges of the LOOP block, and the timing. -/
def SleCfg.loopBad (c : SleCfg) (g : Grade) : Bool :=
  let lo : Nat := if g = .b1618 then 750 else 1000
  let hi : Nat := if g = .b1618 then 3000000 else 4000000
  let room := if c.tlock then c.period - c.delta else c.period
  let adc := (List.range 32).any (fun i => (SMap.get {} c.inmap i).src == 3)
  decide (c.period < lo) || decide (hi < c.period) || (c.tlock && c.period % g.perTick != 0) ||
    decide (c.nx = 0) || decide (32 < c.nx) || decide (c.nu = 0) || decide (16 < c.nu) || decide (16 < c.ni) ||
    decide (c.missLim = 0) || decide (c.sampDiv = 0) ||
    decide (c.outinst < c.inwin + c.calc) || decide (room < c.outinst + 4) || decide (c.inwin < 8) ||
    (adc && decide (c.inwin < (if g = .b1618 then 120 else 160)))

/-- Channels out of range, and the conditions of R689. -/
def Dev.mapBad (d : Dev) (c : SleCfg) : Bool :=
  (List.range 32).any (fun i =>
    let e := SMap.get {} c.inmap i
    ((e.src == 1 || e.src == 2) && (decide (7 < e.ch) || decide ((d.enc e.ch).mode = 0))) || (e.src == 3 && decide (15 < e.ch)) ||
      (e.src == 4 && decide (63 < e.ch)) || (e.src == 5 && decide (15 < e.ch))) ||
  (List.range 16).any (fun i =>
    let e := SMap.get {} c.outmap i
    (e.dst == 1 && (decide (15 < e.ch) || d.mio.stepMask.getLsbD (e.ch / 2))) ||
      (e.dst == 2 && (decide (7 < e.ch) || !d.mio.stepMask.getLsbD e.ch)) || (e.dst == 3 && decide (7 < e.ch)) ||
      (e.dst == 4 && decide (63 < e.ch))) ||
  (List.range c.ni).any (fun j => let e := SMap.get {} c.integ j; decide (c.nx ≤ e.sel) || decide (c.nu ≤ e.out))

/-- Tenant that owns a counter. -/
def Dev.ownerOf (d : Dev) (c : Nat) : Option Nat :=
  let o := SMap.get 0 d.syn.owner (c / 256)
  if o = 0 then none else some (o - 1)

/-- The links: alignment, one owner, the slots and the ring in its reach (R671); tenant 0's where CMTCTR is not given. -/
def Dev.linksBad (d : Dev) (c : SleCfg) : Bool :=
  let o := match c.cmt with
    | some k => d.ownerOf k
    | none => some 0
  let same (k : Option Nat) : Bool := match k with
    | some k => c.cmt.isNone || d.ownerOf k == o
    | none => true
  c.links && (c.stageBase % 4096 != 0 || c.snapBase % 512 != 0 || o.isNone || !same c.ack || !same c.samp ||
    !d.inReach (o.getD 0) c.stageBase 262144 || !d.inReach (o.getD 0) c.snapBase 8192)

/-- The whole set fails a check. -/
def Dev.setBad (d : Dev) (c : SleCfg) : Bool := c.loopBad d.fuse.grade || d.mapBad c || d.linksBad c

/-- A set that passed its checks: it waits for a boundary, or takes effect at once (R669). -/
def Dev.takeSet (d : Dev) (store : Bool) : Dev :=
  let c := d.sle.shadow
  let d := { d with sle := { d.sle with shadow := { c with gainNew := false } } }
  if d.sle.st = .running then { d with sle := { d.sle with pend := some c, pendStore := store, applied := true } }
  else (d.installSet c store).safeOuts

/-- SLE_CONFIG APPLY. -/
def Dev.sleApply (store : Bool) (r : Req) (d : Dev) : Service :=
  Service.of { size := 4, reserved := [(2, 2)] }
    { denied := d.barred r, bad := [(0, d.setBad d.sle.shadow)], busy := d.sle.pend.isSome }
    (.now fun d =>
      let eff := if d.sle.st = .running then d.sle.tnext.toNat else 0
      (stOk, toBytes eff 8, d.takeSet store))

/-! ### SLE_START and SLE_STOP (R640, R644, R663, R708-R712) -/

/-- Encoders that the input map names. -/
def Dev.checked (d : Dev) (c : Nat) : Bool :=
  (List.range 32).any (fun i => let e := SMap.get {} d.sle.cfg.inmap i; (e.src == 1 || e.src == 2) && e.ch == c)

/-- MOVING: |VEL / 16| above START_VTOL (R708). -/
def Dev.moving (d : Dev) : Nat :=
  ((List.range 8).map (fun c =>
    let v := FVal.fin false (d.vel c).toInt.natAbs (-4)
    if d.checked c && (sv d.sle.cfg.vtol).lt v then 2 ^ c else 0)).sum

/-- RESULT (R709). -/
def Dev.startResult (d : Dev) : Nat :=
  if d.estop then 2 else if !d.sle.applied || d.mapBad d.sle.cfg then 3 else if d.moving ≠ 0 && !d.sle.cfg.fly then 1 else 0

/-- Device time of the first boundary (R644). -/
def Dev.firstBound (d : Dev) : Nat :=
  let t := d.now + 1000
  let p := d.sle.cfg.period / d.fuse.grade.perTick
  if d.sle.cfg.tlock then t + ((d.sle.cfg.alignOfs.toNat : Int) - t).emod p |>.toNat else t

/-- Element `i` of the seeded point: the measured position at zero velocity (R663). The spec gives no measured value for an ADC or TSN
source before the first sample: it is free (log 1). -/
def Dev.seedX (d : Dev) (w i : Nat) : W32 :=
  let e := SMap.get {} d.sle.cfg.inmap i
  let at_ (r : W32) : W32 := sAdd (sMul e.scale r) e.offset
  match e.src with
  | 1 => at_ (sInt (d.enc e.ch).count.toInt)
  | 3 => (Config.freeWord (w + i)).setWidth 32
  | 4 => (Config.freeWord (w + i)).setWidth 32
  | _ => at_ 0

/-- u for an output that holds SAFEVAL (R711). -/
def OutEnt.uSafe (e : OutEnt) : W32 := if e.dst = 0 then 0 else sDiv (sSub (sInt e.safeVal.toInt) e.offset) e.scale

/-- The SLE starts: first boundary, seeded point, integrators, LASTCMT (R644, R655, R663, R711). -/
def Dev.sleRun (d : Dev) : Dev :=
  let c := d.sle.cfg
  let fly := decide (d.moving ≠ 0)
  let w := d.free
  let x := tabulate 0 c.nx (d.seedX w)
  let uff : SMap W32 := if fly then tabulate 0 c.nu (fun i => (SMap.get {} c.outmap i).uSafe) else []
  let pts := if fly then [] else tabulate 0 32 (fun i => SMap.get 0 x i)
  let s := { d.sle with
    st := .running
    tnext := BitVec.ofNat 64 d.firstBound
    first := true
    catching := fly
    k := 0
    phase := .idle
    traj := { pts := pts }
    next := none
    p := 0
    q := 0
    stale := true
    swaps := 0
    z := []
    clamp := []
    uprev := uff
    u := uff
    consec := 0
    dacDue := none
    tsnNew := []
    lastCmt := (c.cmt.map d.ctrVal).getD 0
    commits := [] }
  let homes := SMap.mapV {} (fun _ h => { h with takesOver := false }) d.mio.homes
  { d with sle := s, mio := { d.mio with homes := homes }, net := { d.net with outSeq := [] }, free := d.free + 32 }

/-- SLE_START. The spec gives no TSTART for a refused start: it is free (log 1). -/
def Dev.sleStart (r : Req) (d : Dev) : Service :=
  Service.of { size := 0 } { denied := d.barred r, busy := decide (d.sle.st = .running) }
    (.now fun d =>
      let res := d.startResult
      let w := d.draw
      let t := if res = 0 then d.firstBound else (Config.freeWord w.1).toNat
      let p := [BitVec.ofNat 8 res, BitVec.ofNat 8 d.moving] ++ List.replicate 6 0 ++ toBytes t 8
      (stOk, p, if res = 0 then d.sleRun else w.2.enterStopped))

/-- SLE_STOP. -/
def Dev.sleStop (r : Req) (d : Dev) : Service :=
  Service.of { size := 0 } { denied := d.barred r } (.now fun d => (stOk, toBytes d.now 8, d.enterStopped))

/-! ### Inputs of a sample (R647, R649) -/

/-- Raw value of a source in binary32; none while it is not present. -/
def Dev.rawIn (d : Dev) (e : InEnt) : Option W32 :=
  let s := d.sle
  match e.src with
  | 1 => some (sInt (SMap.get 0 s.counts e.ch).toInt)
  | 2 => some (sInt (SMap.get 0 s.vels e.ch).toInt)
  | 3 => (SMap.get none s.adc e.ch).map (fun w => sInt w.toInt)
  | 4 =>
    let v := SMap.get (0, false) s.tsn e.ch
    if e.fresh && !SMap.get false s.tsnNew e.ch then none else some (if v.2 then v.1 else sInt v.1.toInt)
  | 5 => some (SMap.get 0 s.uprev e.ch)
  | _ => some 0

/-- State element `i`; none while its source is not present. -/
def Dev.xIn (d : Dev) (i : Nat) : Option W32 :=
  let e := SMap.get {} d.sle.cfg.inmap i
  (d.rawIn e).map (fun r => sAdd (sMul e.scale r) e.offset)

/-! ### The homing sequencer (R700-R707) -/

/-- T = PERIOD / f_LCLK. -/
def Dev.period (d : Dev) : W32 := sDiv (sInt d.sle.cfg.period) (sInt d.fuse.grade.lclkHz)

/-- A signed speed. -/
def signed (neg : Bool) (v : W32) : W32 := if neg then sNeg v else v

/-- Target of the run, and the direction of travel (true is negative). -/
def Home.target (h : Home) : W32 × Bool :=
  match h.phase with
  | .seek => (signed h.dir h.seekV, h.dir)
  | .backoff => (if h.stop then 0 else signed (!h.h) h.seekV, !h.h)
  | .latch => (if h.stop then 0 else signed h.h h.latchV, h.h)
  | _ => (0, h.dir)

/-- One step of speed and reference (R700). -/
def Home.move (h : Home) (t : W32) : Home :=
  let a := sMul h.accel t
  let tgt := h.target.1
  let diff := sSub tgt h.w
  let w := if sLt a diff then sAdd h.w a else if sLt diff (sNeg a) then sSub h.w a else tgt
  { h with w := w, rpos := sAdd h.rpos (sMul w t) }

/-- Limits that trip at this boundary, LIM_P first (R704). -/
def Home.trips (h : Home) (lp ln : Bool) : Bool × Bool :=
  (h.ev.limP || (h.first && lp && !h.dir), h.ev.limN || (h.first && ln && h.dir))

/-- Effect of the trips (Table 18-5): none where the run aborts. -/
def Home.limit (h : Home) (tp tn : Bool) : Option Home :=
  let travel := h.target.2
  let ahead := if travel then tn else tp
  let other := if travel then tp else tn
  if other then none
  else if !ahead then some h
  else if decide (h.phase = .seek) && h.reverse && !h.tripped then
    some { h with dir := !h.dir, reversed := true, tripped := true }
  else none

/-- HOME acts, and phases end (Table 18-4, R703). `active` is the accepted level of HOME. -/
def Home.advance (h : Home) (active : Bool) : Home :=
  match h.phase with
  | .seek =>
    if h.ev.homeOn || (h.first && active) then
      { h with phase := .backoff, h := h.dir, stop := false, off := if h.ev.homeOff && !active then some h.rpos else none }
    else h
  | .backoff =>
    let h := if h.off.isNone && h.ev.homeOff then { h with off := some h.rpos } else h
    match h.off with
    | none => h
    | some o =>
      let far := !(((sv h.rpos).add (sv o).neg).abs.lt (sv h.backDist))
      let h := if far then { h with stop := true } else h
      if h.stop && (sv h.w).eqv (sv 0) then { h with phase := .latch, stop := false, latch := none } else h
  | .latch =>
    let h := if !h.useIdx && h.latch.isNone && h.ev.homeOn then { h with latch := some h.ev.cap, latchReg := h.ev.cap } else h
    let h := if h.latch.isSome then { h with stop := true } else h
    if h.stop && (sv h.w).eqv (sv 0) then { h with phase := .done } else h
  | _ => h

/-- An abort at a boundary: the axis holds its measured position (R706). -/
def Dev.homeFault (d : Dev) (a outcome : Nat) : Dev :=
  let h := d.home a
  let x := (d.xIn h.posx).getD h.rpos
  (d.updHome a (fun h => { h with rpos := x, w := 0 })).homeEnd a outcome (SMap.get 0 d.sle.counts a)

/-- The run of axis `a` at a boundary: motion, then events in the order of R701. -/
def Dev.homeBound (d : Dev) (a : Nat) : Dev :=
  let h := d.home a
  if !h.active then d
  else
    let h := if h.first then { h with rpos := (d.xIn h.posx).getD 0, w := 0, takesOver := true } else h.move d.period
    let t := h.trips (d.inp a).lvl (d.inp (8 + a)).lvl
    if h.ev.chatter then (d.updHome a (fun _ => h)).homeFault a 2
    else match h.limit t.1 t.2 with
      | none => (d.updHome a (fun _ => h)).homeFault a 1
      | some h =>
        let h := h.advance (d.inp (16 + a)).lvl
        let d := d.updHome a (fun _ => { h with first := false, ev := {} })
        if h.phase = .done then d.homeEnd a 0 (h.latch.getD 0) else d

/-- HOME_AXIS (R698, R699). -/
def Dev.homeCmd (r : Req) (d : Dev) : Service :=
  let a := r.get 0 1
  let w (o : Nat) : W32 := BitVec.ofNat 32 (r.get (4 + o) 4)
  let ent (i : Nat) : InEnt := SMap.get {} d.sle.cfg.inmap i
  let names (i s : Nat) : Bool := decide (i < d.sle.cfg.nx) && (ent i).src == s && (ent i).ch == a
  let pos (v : W32) : Bool := sFinite v && sLt 0 v
  Service.of { size := 24, reserved := [(1, 3)] }
    { denied := d.barred r
      bad := [(0, decide (7 < a) || decide (d.sle.st ≠ .running)), (4, !names (r.get 4 1) 1), (5, !names (r.get 5 1) 2),
        (6, decide (7 < r.get 6 1)), (7, decide (r.get 7 1 ≠ 0)), (8, !pos (w 4)), (12, !pos (w 8) || sLt (w 4) (w 8)), (16, !pos (w 12)),
        (20, !sFinite (w 16) || sLt (w 16) 0)]
      busy := (d.home a).active }
    (.defer (.home a) (fun d =>
      let fl := r.get 6 1
      let h : Home := {
        active := true
        phase := .seek
        posx := r.get 4 1
        velx := r.get 5 1
        dir := bit1 fl 0
        reverse := bit1 fl 1
        useIdx := bit1 fl 2
        seekV := w 4
        latchV := w 8
        accel := w 12
        backDist := w 16
        first := true
        latchReg := (d.home a).latchReg }
      d.updHome a (fun _ => h)))

/-! ### The boundary (R646, R660-R662) -/

/-- The pending trajectory becomes the active one (R660). -/
def Dev.swapTraj (d : Dev) (t : Traj) : Dev :=
  let s := d.sle
  let s := { s with
    traj := t
    next := none
    p := 0
    q := 0
    stale := false
    half := !s.half
    swaps := s.swaps + 1
    catching := false
    gain := t.gain.getD s.gain }
  let homes := SMap.mapV {} (fun _ h => if h.active then h else { h with takesOver := false }) d.mio.homes
  { d with sle := s, mio := { d.mio with homes := homes } }.trace 0x21 0x0A (traceData 1 s.k.toNat)

/-- The point position advances (R661, R662). -/
def Sle.follow (s : Sle) : Sle :=
  if s.q + 1 < s.traj.div then { s with q := s.q + 1 }
  else if s.p + 1 < s.traj.count then { s with q := 0, p := s.p + 1 }
  else { s with q := 0, stale := true }

/-- The next boundary is due (R642, R644): the first one at its device time, a later one a PERIOD of LCLK after the one before; with TLOCK
at most Δ earlier than that, and not more than one LCLK before its target time. -/
def Dev.boundDue (d : Dev) : Bool :=
  let s := d.sle
  if s.first then decide (s.tnext.toNat ≤ d.now)
  else if s.cfg.tlock then decide (s.lbound + s.cfg.period ≤ d.lclk + s.cfg.delta) && decide (s.tnext.toNat ≤ d.now + 1)
  else decide (s.lbound + s.cfg.period ≤ d.lclk)

/-- Device time of the boundary after this one: with TLOCK a period after this one's target time (R642). -/
def Dev.nextBound (d : Dev) (lock : Bool) : W64 :=
  (if lock then d.sle.tnext else d.glb.time) + BitVec.ofNat 64 (d.sle.cfg.period / d.fuse.grade.perTick)

/-- The active trajectory is followed on, but for the first boundary. -/
def Dev.follow (d : Dev) (first : Bool) : Dev := if first then d else { d with sle := d.sle.follow }

/-- A sample boundary: number, parameters, latches, trajectory, homing (R646). -/
def Dev.boundary (d : Dev) : Dev :=
  if d.sle.st ≠ .running || d.sle.phase ≠ .idle || !d.boundDue then d
  else
    let first := d.sle.first
    let lock := d.sle.cfg.tlock
    let d := match d.sle.pend with
      | some c => d.installSet c d.sle.pendStore
      | none => d
    let counts := tabulate 0 8 (fun c => (d.enc c).count)
    let vels := tabulate 0 8 d.vel
    let d := { d with sle := { d.sle with
      k := if first then 0 else d.sle.k + 1
      first := false
      tbound := d.glb.time
      lbound := d.lclk
      tnext := d.nextBound (lock && d.sle.cfg.tlock)
      phase := .latched
      missNow := false
      counts := counts
      vels := vels
      adc := [] } }
    let d := match d.sle.next with
      | some t => if d.sle.nextAt < d.lclk then d.swapTraj t else d.follow first
      | none => d.follow first
    (List.range 8).foldl Dev.homeBound d

/-- LCLK since the boundary of the sample. -/
def Dev.cycleNo (d : Dev) : Nat := d.lclk - d.sle.lbound

/-- ADC results of a port's four lanes, CONVT + 68 LCLK after the boundary (R684). -/
def Dev.adcResult (d : Dev) (q : Nat) (l : List W16) : Dev :=
  if d.sle.st ≠ .running || d.sle.first || decide (d.cycleNo < d.mio.convt.toNat + 68) then d
  else
    let adc := (List.range 4).foldl (fun m i => SMap.set none m (4 * q + i) (some (nth 0 l i))) d.sle.adc
    { d with sle := { d.sle with adc := adc } }

/-! ### The control law (R650-R652, R661) -/

/-- Entry `e` of the reference: interpolated between two points (R661). -/
def Sle.refAt (s : Sle) (e : Nat) : W32 :=
  let t := s.traj
  let a := SMap.get 0 t.pts (s.p * 64 + e)
  if t.interp && decide (s.p + 1 < t.count) then
    sAdd a (sMul (sDiv (sInt s.q) (sInt t.div)) (sSub (SMap.get 0 t.pts ((s.p + 1) * 64 + e)) a))
  else a

/-- r_x of element `e`, overridden by homing (R700, R707). -/
def Dev.refX (d : Dev) (e : Nat) : W32 :=
  let hs := (List.range 8).map d.home
  match hs.find? (fun h => h.takesOver && h.posx == e), hs.find? (fun h => h.takesOver && h.velx == e) with
  | some h, _ => h.rpos
  | none, some h =>
    let p := SMap.get {} d.sle.cfg.inmap h.posx
    let v := SMap.get {} d.sle.cfg.inmap h.velx
    sAdd (sDiv (sMul (sMul v.scale (sInt 16)) h.w) p.scale) v.offset
  | none, none => d.sle.refAt e

/-- Integrator `j` is frozen (R651). -/
def Sle.frozen (s : Sle) (o : Nat) (prod : W32) : Bool :=
  match SMap.get none s.clamp o with
  | some true => sLt 0 prod
  | some false => sLt prod 0
  | none => false

/-- z[j] of this sample. -/
def Sle.newZ (s : Sle) (e : Nat → W32) (j : Nat) : W32 :=
  let g := SMap.get {} s.cfg.integ j
  let z := SMap.get 0 s.z j
  let prod := sMul g.ki (e g.sel)
  if s.frozen g.out prod then z else sClamp (sAdd z prod) (sNeg g.zlim) g.zlim

/-- v of output `i` before its clamps: u_ff, then the products in ascending order, then the integrators. -/
def Sle.sumU (s : Sle) (e z : Nat → W32) (uff : W32) (i : Nat) : W32 :=
  let v := (List.range s.cfg.nx).foldl (fun v n => sAdd v (sMul (SMap.get 0 s.gain (i * 32 + n)) (e n))) uff
  ((List.range s.cfg.ni).filter (fun j => (SMap.get {} s.cfg.integ j).out == i)).foldl (fun v j => sAdd v (z j)) v

/-- Clamped at UMAX (true) or UMIN. -/
def LimEnt.side (l : LimEnt) (v : W32) : Option Bool := if sLt l.umax v then some true else if sLt v l.umin then some false else none

/-- u of an output: level and rate limits. -/
def LimEnt.limit (l : LimEnt) (v prev : W32) : W32 :=
  sAdd prev (sClamp (sSub (sClamp v l.umin l.umax) prev) (sNeg l.dumax) l.dumax)

/-- What a sample computes: z, u, clamps. -/
def Dev.law (d : Dev) : SMap W32 × SMap W32 × SMap (Option Bool) :=
  let s := d.sle
  let e (n : Nat) : W32 := sSub (d.refX n) (SMap.get 0 s.x n)
  let zs := tabulate 0 s.cfg.ni (s.newZ e)
  let v (i : Nat) : W32 := s.sumU e (SMap.get 0 zs) (s.refAt (32 + i)) i
  let lim (i : Nat) : LimEnt := SMap.get {} s.cfg.limits i
  (zs, tabulate 0 s.cfg.nu (fun i => (lim i).limit (v i) (SMap.get 0 s.uprev i)), tabulate none s.cfg.nu (fun i => (lim i).side (v i)))

/-- The catch seeds its two points from the first sample (R710, R711). -/
def Dev.seedCatch (d : Dev) : Dev :=
  let s := d.sle
  let c := s.cfg
  let pt (e : Nat) : W32 := if e < 32 then SMap.get 0 s.x e else SMap.get 0 s.uprev (e - 32)
  let far (i : Nat) : W32 :=
    let m := SMap.get {} c.inmap i
    if m.src = 1 then
      let v := sDiv (sInt (SMap.get 0 s.vels m.ch).toInt) (sInt 16)
      sAdd (pt i) (sMul (sMul (sMul m.scale v) (sInt 65535)) d.period)
    else pt i
  let one (e : Nat) : W32 := if e < c.nx then far e else if 32 ≤ e then pt e else 0
  let pts := tabulate 0 112 (fun k => if k < 48 then pt k else if 64 ≤ k then one (k - 64) else 0)
  { d with sle := { s with traj := { count := 2, div := 65535, interp := true, pts := pts }, catching := false } }

/-- The input check at INWIN, and the computation or the miss (R647, R666). The spec gives no x for a source that is not present: it is free
(log 1). -/
def Dev.inputCheck (d : Dev) (late : Bool) : Dev :=
  if d.sle.st ≠ .running || d.sle.phase ≠ .latched || decide (d.cycleNo < d.sle.cfg.inwin) then d
  else
    let nx := d.sle.cfg.nx
    let w := d.free
    let x := tabulate 0 nx (fun i => (d.xIn i).getD ((Config.freeWord (w + i)).setWidth 32))
    let absent := (List.range nx).any (fun i => (d.xIn i).isNone)
    let d := { d with sle := { d.sle with x := x, tsnNew := [], phase := .checked }, free := d.free + nx }
    let d := if d.sle.catching then d.seedCatch else d
    let miss (d : Dev) (cause : BitVec 3) : Dev :=
      { d with sle := { d.sle with missNow := true, missCause := cause, clamp := [], u := d.sle.uprev } }
    if absent then miss d 1
    else if late then miss (d.errStat 4) 4
    else
      let r := d.law
      if (List.range d.sle.cfg.nu).all (fun i => sFinite (SMap.get 0 r.2.1 i)) then
        { d with sle := { d.sle with z := r.1, u := r.2.1, clamp := r.2.2 } }
      else miss d 2

/-! ### The output instant (R653, R664-R668) -/

/-- raw_out of an output (R653). -/
def OutEnt.rawOut (e : OutEnt) (u : W32) : Int :=
  let r := dstRange e.dst
  (sv (sAdd (sMul e.scale u) e.offset)).toIntSat .rne r.1 r.2

/-- New outputs are presented. -/
def Dev.newOuts (d : Dev) : Dev :=
  d.mappedOuts.foldl (fun d x =>
    let v := x.2.rawOut (SMap.get 0 d.sle.u x.1)
    ({ d with sle := { d.sle with raw := SMap.set 0 d.sle.raw x.1 v } }).present x.2 v) d

/-- The snapshot (R664). -/
def Sle.snapshot (s : Sle) : List Byte :=
  fitTo 512 (toBytes s.tbound.toNat 8 ++ toBytes s.k.toNat 8 ++ (List.range 32).flatMap (fun i => toBytes (SMap.get 0 s.x i).toNat 4) ++
    (List.range 16).flatMap (fun i => toBytes (SMap.get 0 s.u i).toNat 4) ++ toBytes s.p 2 ++ toBytes s.q 2 ++
    [BitVec.ofNat 8 (b2n s.missNow + 2 * b2n s.stale)])

/-- A miss is counted (R667); MISS rises. -/
def Dev.countMiss (d : Dev) : Dev :=
  let was := d.sle.miss
  let d := { d with sle := { d.sle with miss := true, missCnt := satInc d.sle.missCnt, consec := d.sle.consec + 1 } }
  let d := d.trace 0x21 0x0A (traceData 0 d.sle.k.toNat)
  if !was && d.sle.ie then d.raiseVec 0 1 else d

/-- The output instant OUTINST: outputs new or held, cyclic frames, snapshot, and SAFE after MISSLIM misses (R667, R668, R763). -/
def Dev.outputInstant (d : Dev) : Dev :=
  if d.sle.st ≠ .running || d.sle.phase ≠ .checked || decide (d.cycleNo < d.sle.cfg.outinst) then d
  else
    let c := d.sle.cfg
    let d := if d.sle.missNow then d.countMiss
      else (let d := d.newOuts; { d with sle := { d.sle with uprev := d.sle.u, consec := 0 } })
    let owner := (c.cmt.bind d.ownerOf).getD 0
    let d := if c.links then d.write owner false (c.snapBase + d.sle.k.toNat % 16 * 512) d.sle.snapshot else d
    let due := if d.sle.k.toNat % c.sampDiv = 0 then c.samp.toList else []
    let d := { d with sle := { d.sle with
      phase := .idle, dacDue := some (d.sle.lbound + c.outinst + 4), sampDue := d.sle.sampDue ++ due } }
    if d.sle.missNow && decide (c.missLim ≤ d.sle.consec) then d.enterSafe 1 4 else d.cyclicOuts false (d.now + 4 / d.fuse.grade.perTick)

/-- The ADD to SAMPCTR after its snapshot (R665). -/
def Dev.sampAdd (d : Dev) : Dev :=
  match d.sle.sampDue with
  | c :: rest =>
    ({ d with sle := { d.sle with sampDue := rest } }).synPush { ctr := c, op := .add 1, src := 3, needDma := 0, needRem := 0, fn := 0 }
  | [] => d

/-! ### Commit and load (R654-R658, R853) -/

/-- Address of a slot. -/
def Sle.slot (s : Sle) (v : W64) : Nat := s.cfg.stageBase + v.toNat % 2 * 0x20000

/-- Rows that a header announces (R657). -/
def headRows (b : List Byte) : Nat := 1 + (if bit1 (fieldAt b 4 1) 1 then 4 else 0) + cdiv (fieldAt b 0 2) 2

/-- A header with a reserved value or a reserved field that is not zero (Table 17-4). -/
def headBad (b : List Byte) : Bool :=
  let n := fieldAt b 0 2
  decide (n = 0) || decide (256 < n) || decide (fieldAt b 2 2 = 0) || decide (4 ≤ fieldAt b 4 1) || decide (fieldAt b 5 3 ≠ 0) ||
    (b.drop 12).any (fun x => x != 0)

/-- The trajectory of a staged block. -/
def trajOf (b : List Byte) : Traj :=
  let n := fieldAt b 0 2
  let kincl := bit1 (fieldAt b 4 1) 1
  let base := if kincl then 2560 else 512
  let word (o : Nat) : W32 := BitVec.ofNat 32 (fieldAt b o 4)
  { count := n
    div := fieldAt b 2 2
    interp := bit1 (fieldAt b 4 1) 0
    source := word 8
    pts := tabulate 0 (n * 64) (fun k => if k % 64 < 48 then word (base + k * 4) else 0)
    gain := if kincl then some (tabulate 0 512 (fun k => word (512 + 4 * k))) else none }

/-- A poisoned flit abandons the load and discards a pending trajectory (R853). -/
def Dev.loadPoisoned (d : Dev) : Dev := { d.ackLoad with sle := { d.ackLoad.sle with next := none, reject := true } }

/-- The SLE learns of the oldest change of CMTCTR (R655, R656): a higher value starts a load; its header is read first. -/
def Dev.commitSeen (d : Dev) : Dev :=
  match d.sle.commits with
  | [] => d
  | v :: rest =>
    let u := d.sle.lastCmt
    let d := { d with sle := { d.sle with commits := rest } }
    if d.sle.st ≠ .running then d
    else if v.toNat ≤ u.toNat then { d with sle := { d.sle with lastCmt := v } }
    else
      let d := d.ackLoad
      let d := { d with sle := { d.sle with load := some (v, u), lastCmt := v } }
      let a := d.sle.slot v
      let poisoned := d.poisoned a 512
      let b := d.peek a 512
      let d := d.countRead a 512
      if poisoned then d.loadPoisoned
      else if headBad b then { d.ackLoad with sle := { d.ackLoad.sle with reject := true } }
      else { d with sle := { d.sle with overtaken := d.sle.overtaken || d.sle.next.isSome, next := none } }

/-- The load ends (R658, R660): its trajectory waits for a boundary. A flit that the fabric delivers poisoned may be one of the slot's first
row, which was read when the load began. -/
def Dev.loadTraj (d : Dev) (fab : Fabric) : Dev :=
  match d.sle.load with
  | none => d
  | some (v, _) =>
    let a := d.sle.slot v
    let n := 512 * headRows (d.peek a 512)
    let bad := fabricLost fab || d.poisoned a n
    let b := d.peek a n
    let d := (d.countRead (a + 512) (n - 512)).fabricRead fab a 5
    if bad then d.loadPoisoned
    else { d.ackLoad with sle := { d.ackLoad.sle with next := some (trajOf b), nextAt := d.lclk } }

end Sys2Proof.Machine
end

