-- ==== Sys2Proof/Machine/MioRegs.lean ====
section
/-!
DEFINITION. Machine/MioRegs.lean: writes of the Motion I/O registers (18), by the host or by the firmware at boot.
-/
namespace Sys2Proof.Machine

/-- A register value of at most 64 bits after a write of `v` under the mask `en` of the bits that the access covers (R882). -/
def merged (old v en : Nat) : Nat := (old &&& (0xFFFFFFFFFFFFFFFF ^^^ en)) ||| (v &&& en)

/-- A write that R690 turns away. -/
def Dev.wrIgnored (d : Dev) : Dev := { d with mio := { d.mio with wrIgn := true } }

/-- Record a reserved value when there is one. -/
def Dev.warnIf (d : Dev) (b : Bool) (src : WarnSrc) (off : Nat) : Dev := if b then d.cfgWarn src off else d

/-- Largest CONVT (R685). -/
def Grade.convtMax (g : Grade) : Nat := if g = .b1618 then 52 else 60

/-- A write of `MIO_OUT_CFG`; a reserved CONVT counts as 0 (R685, R20). -/
def Dev.putOutCfg (d : Dev) (src : WarnSrc) (off v en : Nat) : Dev :=
  if d.sle.st = .running then d.wrIgnored
  else
    let n := merged d.mio.outCfg v en
    let bc := decide (d.fuse.grade.convtMax < bits n 24 6)
    let d := d.warnIf bc src off
    { d with mio := { d.mio with
      pwmPer := BitVec.ofNat 16 (bits n 0 16), stepMask := BitVec.ofNat 8 (bits n 16 8)
      convt := if bc then 0 else BitVec.ofNat 6 (bits n 24 6) } }

/-- A write of `MIO_ENC_CFG[c]`; reserved values count as 0 (R20). -/
def Dev.putEncCfg (d : Dev) (src : WarnSrc) (off c v en : Nat) : Dev :=
  if (decide (d.sle.st = .running) && d.checked c) || (d.home c).active then d.wrIgnored
  else
    let n := merged (d.enc c).cfg v en
    let bm := decide (bits n 0 2 = 3)
    let m := if bm then 0 else bits n 0 2
    let bv := decide (13 ≤ bits n 4 4)
    let bb := decide (m = 2) && decide (bits n 8 5 < 7)
    let bd := decide (m = 2) && decide (bits n 16 8 < 19)
    let d := d.warnIf (bm || bv || bb || bd) src off
    d.updEnc c (fun e => { e with
      mode := BitVec.ofNat 2 m
      dirInv := bit1 n 2
      gray := bit1 n 3
      velLog2 := if bv then 0 else BitVec.ofNat 4 (bits n 4 4)
      ssiBits := if bb then 0 else BitVec.ofNat 5 (bits n 8 5)
      ssiDiv := if bd then 0 else BitVec.ofNat 8 (bits n 16 8)
      ssi := if m = 2 then e.ssi else none
      frames := if m = 2 then e.frames else [] })

/-- A write of `MIO_IN_CFG[i]`. LIMSTO is a reserved bit of the home inputs and of ESTOP_N. -/
def Dev.putInCfg (d : Dev) (src : WarnSrc) (off i v en : Nat) : Dev :=
  if decide (i < 24) && (d.home (axisOf i)).active then d.wrIgnored
  else
    let n := merged (d.inp i).cfg v en
    let bad := decide (bits en 32 1 = 1) && decide (bits n 32 16 = 0) && decide (bits n 16 8 ≠ 0)
    let d := d.warnIf bad src off
    d.updInp i (fun x => d.stand x { x with
      deb := BitVec.ofNat 10 (bits n 0 10)
      pol := bit1 n 10
      limSto := decide (i < 16) && bit1 n 11
      chN := BitVec.ofNat 8 (bits n 16 8)
      chWin := BitVec.ofNat 16 (bits n 32 16) })

/-- A write of the W1C fields of `MIO_STAT`; LIMTRIP[a] is cleared only while both limits of the axis are inactive (R697). -/
def Dev.putMioStat (d : Dev) (v : Nat) : Dev :=
  let free (a : Nat) : Bool := !(d.inp a).lvl && !(d.inp (8 + a)).lvl
  let lim := ((List.range 8).map (fun a => if bit1 v (8 + a) && free a then 2 ^ a else 0)).sum
  let m := d.mio
  { d with mio := { m with
    limTrip := m.limTrip &&& ~~~(BitVec.ofNat 8 lim)
    wrIgn := m.wrIgn && !bit1 v 17
    encErr := m.encErr &&& ~~~(BitVec.ofNat 8 (bits v 24 8))
    chatter := m.chatter &&& ~~~(BitVec.ofNat 25 (bits v 32 25)) } }

end Sys2Proof.Machine
end

