-- ==== Sys2Proof/Machine/PcieOps.lean ====
section
/-!
DEFINITION. Machine/PcieOps.lean: the PCIe endpoint: vectors, function-level reset, VF Enable, `PERST_N`, the link, configuration
requests, BAR4 (21).
-/
namespace Sys2Proof.Machine

/-- Change a vector of a function. -/
def Dev.updVec (d : Dev) (f v : Nat) (g : Vec → Vec) : Dev :=
  { d with pcie := { d.pcie with vecs := SMap.upd {} d.pcie.vecs (vecKey f v) g } }

/-- A pending vector that nothing masks sends its message (R801). -/
def Dev.msixFlush (d : Dev) (f v : Nat) : Dev :=
  let e := SMap.get {} d.pcie.vecs (vecKey f v)
  if e.pend && !e.masked && !SMap.get false d.pcie.fnMask f && SMap.get false d.pcie.msixEn f && d.fnExists f then
    (d.updVec f v (fun e => { e with pend := false })).msixSend f v
  else d

/-- Unmasking of a vector (R801). -/
def Dev.unmask (d : Dev) (f v : Nat) : Dev :=
  if vectors f ≤ v then d else (d.updVec f v (fun e => { e with masked := false })).msixFlush f v

/-- MSI-X Enable and Function Mask of a function are written (R801). -/
def Dev.msixCtl (d : Dev) (f : Nat) (en mask : Bool) : Dev :=
  let p := d.pcie
  let d := { d with pcie := { p with msixEn := SMap.set false p.msixEn f en, fnMask := SMap.set false p.fnMask f mask } }
  (p.vecs.filterMap (fun e => if e.1 / 2048 = f && e.2.pend then some (e.1 % 2048) else none)).foldl (Dev.msixFlush · f) d

/-! ### Function-level reset (R810-R814) -/

/-- The MSI-X table of a function returns to masked, and its MSI-X Enable and Function Mask to their reset values. -/
def Dev.msixReset (d : Dev) (f : Nat) : Dev :=
  let p := d.pcie
  let vecs := SMap.keep (fun k _ => k / 2048 != f) p.vecs
  { d with pcie := { p with vecs := vecs, msixEn := SMap.set false p.msixEn f false, fnMask := SMap.set false p.fnMask f false } }

/-- The asynchronous responses of a function's deferred commands will be discarded. -/
def Dev.loseDeferred (d : Dev) (f : Nat) : Dev :=
  { d with kiln := { d.kiln with deferred := d.kiln.deferred.map (fun x => if x.fn = f then { x with lost := true } else x) } }

/-- Every job of tenant `t` that is dispatched or in the sequence of Table 1-2 becomes detached. -/
def Dev.detachJobs (d : Dev) (p : Job → Bool) : Dev :=
  (d.jobKeys (fun j => p j && (j.onCores || j.fin.isSome))).foldl (fun d k => d.updJob k (fun j => { j with detached := true })) d

/-- A queue is destroyed by a function reset: its jobs that were not dispatched end and their completions are discarded. -/
def Dev.flrQueue (d : Dev) (u : Nat) : Dev :=
  let ks := d.jobKeys (fun j => j.queue == u && !j.onCores)
  let d := ks.foldl (fun d k => d.updJob k (fun j => { j with detached := true })) d
  let d := (d.updQueue u (fun q => { q with detach := true })).destroyQueue u
  (ks.foldl Dev.complete d).queueGone u

/-- Sync blocks of tenant `t` that neither the SLE nor a camera names are freed. -/
def Dev.flrBlocks (d : Dev) (t : Nat) : Dev :=
  let named := d.cfgCtrs.map (· / 256)
  ((d.blocksOf t).filter (fun b => !named.contains b)).foldl (fun d b => d.setBlocks b 1 none) d

/-- R810 for function `f`. -/
def Dev.flrStart (d : Dev) (f : Nat) : Dev :=
  let d := d.updMbox f (fun m => { m with busy := false, valid := false, async := false, queue := [] })
  let d := ((d.loseDeferred f).msixReset f).detachJobs (fun j => j.tenant == f)
  let d := d.updTenant f (fun t => { t with detach := true })
  let d := (d.queuesOf f).foldl Dev.flrQueue d
  let d := (d.sessionsOf f).foldl Dev.closeSession d
  let d := { d with progs := SMap.mapV none (fun _ o => o.map (fun (p : Prog) => if p.tenant = f then { p with dying := true } else p)) d.progs }
  let d := d.unloadIdle.flrBlocks f
  { d with
    pcie := { d.pcie with flr := SMap.set false d.pcie.flr f true }
    syn := { d.syn with reads := d.syn.reads.filter (fun r => r.fn != f) } }

/-- Initiate FLR of VF `f` (R810): of a VF that exists. -/
def Dev.flrVf (d : Dev) (f : Nat) : Dev := if f = 0 || !d.fnExists f then d else d.flrStart f

/-- The FLR of function `f` completes (R811). -/
def Dev.flrEnd (d : Dev) (f : Nat) : Dev :=
  if SMap.get false d.pcie.flr f then
    ({ d with pcie := { d.pcie with flr := SMap.set false d.pcie.flr f false } }).updTenant f (fun t => { t with detach := false })
  else d

/-- VF Enable and NumVFs change: every VF that ceases to exist is reset (R813). -/
def Dev.setVfs (d : Dev) (en : Bool) (num : Nat) : Dev :=
  let gone := (span 1 127).filter (fun f => d.fnExists f && !(en && decide (f ≤ num)))
  let d := gone.foldl Dev.flrStart d
  { d with pcie := { d.pcie with vfEn := en, numVfs := num } }

/-- FLR of the PF (R812). -/
def Dev.flrPf (d : Dev) : Dev := (d.flrStart 0).setVfs false 0

/-! ### `PERST_N` and the link (R116, R814, R815) -/

/-- The data link goes down. -/
def Dev.linkLost (d : Dev) : Dev :=
  let p := d.pcie
  { d with pcie := { p with dlup := false, dlchg := p.dlchg || p.dlup, speed := 0, width := 0 } }

/-- The data link comes up at a rate and width of Table 21-1, once the Kiln has left reset and `PERST_N` is released (Table 3-4). -/
def Dev.linkUpPcie (d : Dev) (speed width : BitVec 4) : Dev :=
  let p := d.pcie
  if !d.clocked || p.perst || !([1, 2, 3, 4, 5].contains speed.toNat) || !([1, 2, 4, 8].contains width.toNat) then d
  else { d with pcie := { p with dlup := true, dlchg := p.dlchg || !p.dlup, speed := speed, width := width } }

/-- A ring or the head write-back of a queue lies in host space. -/
def Desc.inHostSpace (e : Desc) : Bool := decide (2 ^ 63 ≤ e.sqBase) || decide (2 ^ 63 ≤ e.cqBase) || decide (2 ^ 63 ≤ e.headWb)

/-- The reset of the endpoint alone, PERST_SCOPE = 1 (R814). -/
def Dev.endpointReset (d : Dev) : Dev :=
  let fs := List.range 128
  let d := fs.foldl Dev.loseDeferred d
  let d := { d with mbx := [], syn := { d.syn with reads := [] } }
  let d := (d.detachJobs (fun j => j.onCores || j.fin.isSome)).linkLost
  let p := d.pcie
  let d := { d with pcie := { p with
    msixEn := [], fnMask := [], vecs := [], vfEn := false, numVfs := 0, bar4Log := 2, vbar4Log := 3, flr := [], crs := true } }
  let d := { d with ten := SMap.mapV {} (fun f t => if SMap.get false p.flr f then { t with detach := false } else t) d.ten }
  ((d.stk.queues.filterMap (fun e => match e.2 with
    | some q => if q.desc.inHostSpace then some e.1 else none
    | none => none)).foldl Dev.flrQueue d)

/-- `PERST_N` is released (R116). -/
def Dev.perstRelease (d : Dev) : Dev :=
  if d.pcie.perst then { d with pcie := { d.pcie with perst := false, crs := !(d.mbox 0).ready } } else d

/-! ### Configuration requests (R116, R790, R801, R892) -/

/-- Subsystem ID of a grade (`PCI_SUBSYS`). -/
def Grade.subsys : Grade → Nat
  | .a1618 => 0xA618
  | .b1618 => 0xB618
  | .a1212 => 0xA212

/-- A word of configuration space that the spec gives; a VF's vendor and device read as PCI Express requires. -/
def Dev.cfgWord (d : Dev) (f off : Nat) : Option W32 :=
  match off with
  | 0 => some (if f = 0 then 0x5C181F63 else 0xFFFFFFFF)
  | 8 => some (if d.fuse.revB0 then 0x12000010 else 0x12000000)
  | 0x2C => some (BitVec.ofNat 32 (0x1F63 + 65536 * d.fuse.grade.subsys))
  | _ => none

/-- A configuration request to function `f`: retry status before FWREADY and during an FLR (R116, R811), else its effect. A word
whose place the spec leaves to PCI Express reads a free value. -/
def Dev.cfgRequest (d : Dev) (f : Nat) (r : CfgReq) : Dev :=
  if d.pcie.perst || !d.pcie.dlup then d
  else if d.pcie.crs || SMap.get false d.pcie.flr f then d.send (.cfgRetry f)
  else if !d.fnExists f then d.send (.unsupported f)
  else match r with
    | .read off => match d.cfgWord f (off.toNat / 4 * 4) with
      | some w => d.send (.cfgData f w)
      | none => let x := d.draw; x.2.send (.cfgData f ((Config.freeWord x.1).setWidth 32))
    | .setVfs n => if f = 0 then d.setVfs true n.toNat else d
    | .msix en mask => d.msixCtl f en mask
    | .bar4Size k => if f = 0 then { d with pcie := { d.pcie with bar4Log := k.val } } else d
    | .vfBar4Size k => if f = 0 then { d with pcie := { d.pcie with vbar4Log := k.val } } else d

/-! ### BAR4 (R90, R797-R799, R854) -/

/-- BASE of `GLB_BAR4BASE` in GiB: bits below the BAR4 size read 0. -/
def Pcie.base (p : Pcie) : Nat := p.bar4.toNat / 2 ^ p.bar4Log * 2 ^ p.bar4Log

/-- Internal address of `n` bytes at offset `x` of function `f`'s BAR4; none where unmapped. -/
def Dev.bar4Addr (d : Dev) (f x n : Nat) : Option Nat :=
  let a : Option Nat :=
    if f = 0 then if x + n ≤ 2 ^ d.pcie.bar4Log * 2 ^ 30 then some (d.pcie.base * 2 ^ 30 + x) else none
    else
      let t := d.tenant f
      if 2 ^ d.pcie.vbar4Log * 2 ^ 28 < x + n then none
      else if x + n ≤ t.size0 then some (t.base0 + x)
      else if t.size0 ≤ x && decide (x + n ≤ t.size0 + t.size1) then some (t.base1 + (x - t.size0))
      else none
  a.filter (fun a => decide (a + n ≤ d.usable))

/-- The record of a TLP with EP set; the requester and the address are the host's (log 1). -/
def Dev.epRecord (d : Dev) : Dev :=
  let x := d.draw
  x.2.record { cls := 2, source := 9, code := 0x0017, info := (Config.freeWord x.1).toNat }

/-- A host write through BAR4. -/
def Dev.bar4Write (d : Dev) (f x : Nat) (bs : List Byte) (ep : Bool) : Dev :=
  if ep then d.epRecord
  else match d.bar4Addr f x bs.length with
    | some a => d.poke a bs
    | none => { d with pcie := { d.pcie with inDrop := satInc d.pcie.inDrop } }

/-- A host read through BAR4. -/
def Dev.bar4Read (d : Dev) (f x n : Nat) (fab : Fabric) : Dev :=
  match d.bar4Addr f x n with
  | none => d.send (.unsupported f)
  | some a =>
    let v := ofBytes (d.peek a n)
    let d := (d.countRead a n).fabricRead fab a 0
    if fabricLost fab || d.poisoned a n then (d.epRecord).send (.poisoned f v) else d.send (.read f v)

end Sys2Proof.Machine
end

