-- ==== Sys2Proof/Machine/Tick.lean ====
section
/-!
DEFINITION. Machine/Tick.lean: what passes when no command waits: one CCLK, and the FCLK and LCLK that start with it (log 2).
-/
namespace Sys2Proof.Machine

/-- One CCLK without a command. -/
def Dev.tick (d : Dev) : Dev :=
  if !d.clocked then d
  else
    let d := allCores.foldl Dev.cycle { d with cclk := d.cclk + 1 }
    let d := if d.cclk % 2 = 0 then d.fclk else d
    if d.cclk % 4 = 0 then d.mioClock else d

end Sys2Proof.Machine
end

