-- ==== Sys2Proof/Machine/BootOps.lean ====
section
/-!
DEFINITION. Machine/BootOps.lean: resets, the reset sequence, image selection, the boot of the firmware, the restart of the Kiln,
device-fatal errors (03, 04, 24).
-/
namespace Sys2Proof.Machine

/-! ### Device reset (R113, R114, R860, R909, Table 3-3) -/

/-- Bit of `GLB_RSTCAUSE`, and its code in LAST. -/
def RstCause.code : RstCause → Nat
  | .por => 0
  | .pin => 1
  | .perst => 2
  | .wdt => 3
  | .swrst => 4
  | .therm => 5

/-- What a device reset leaves of Motion I/O: the levels at the input balls are the outside's. -/
def Mio.afterReset (m : Mio) : Mio :=
  { encs := SMap.mapV {} (fun _ (e : Enc) => { a := e.a, b := e.b }) m.encs
    ins := SMap.mapV {} (fun _ (i : Inp) => { raw := i.raw }) m.ins }

/-- The device after a cold or warm reset with a cause: what Table 3-3 keeps is kept, everything else is at its reset value.
A step of device time that is still due, the low halves held for a later write and the read shadows, which Table 3-3 does not name, are
cleared (log 109). -/
def Dev.deviceReset (d : Dev) (cause : RstCause) (cold : Bool) : Dev :=
  let g := d.glb
  let pool := d.fuse.grade.pool
  let bit : BitVec 6 := 1#6 <<< cause.code
  let glb : Glb :=
    { phase := if cold then .held else if g.phase = .pll then .pll else .warm
      time := if cold then 0 else g.time
      frac := if cold then 0 else g.frac
      bootMode := g.bootMode
      refsel := g.refsel
      cause := if cold then bit else g.cause ||| bit
      last := BitVec.ofNat 3 cause.code }
  let w := d.draw
  let mem : Mem := if cold then {} else { gen := w.1 + 1 }
  { cclk := if cold then 0 else d.cclk
    fuse := d.fuse
    glb := glb
    kiln := { flash := d.kiln.flash }
    ten := [(0, Tenant.zero pool)]
    blw := { size := pool, leaseCap := pool }
    mio := d.mio.afterReset
    pcie := { perst := d.pcie.perst, crs := d.pcie.crs }
    mem := mem
    err := if cold then {} else d.err
    pins :=
      { d.pins with
        trip := d.pins.trip && !cold
        scanOut := if cold then d.pins.scanOut else none
        tc := pool
        tjAt := none
        coolAt := d.pins.coolAt.map (· - (g.ticks : Int))
        vid := none
        vidAt := none }
    free := w.2.free
    out := d.out }

/-- A warm reset. -/
def Dev.warmReset (d : Dev) (cause : RstCause) : Dev := d.deviceReset cause false

/-- A warm reset by its cause, of a device that `RST_N` does not hold. -/
def Dev.warmBy (d : Dev) (c : WarmCause) : Dev :=
  if d.glb.phase = .held then d
  else d.warmReset (match c with
    | .perst => .perst
    | .wdt => .wdt
    | .swrst => .swrst
    | .therm => .therm)

/-- Power comes up: a cold reset; `RST_N` is held low (R906). -/
def Dev.powerOn (d : Dev) : Dev :=
  let d := d.deviceReset .por true
  { d with pins := { d.pins with lost := false, rstLow := true, thermHold := false } }

/-- A low pulse of `RST_N` of `ns` nanoseconds, and `RST_N` low from then on where it resets (R914, R915). -/
def Dev.rstLowFor (d : Dev) (ns : Nat) : Dev :=
  let reset (d : Dev) : Dev :=
    let d := d.deviceReset .pin true
    { d with pins := { d.pins with rstLow := true, thermHold := false } }
  if d.pins.lost || decide (ns ≤ 1000) then d
  else if 10000 ≤ ns then reset d
  else
    let w := d.draw
    if Config.pulseResets w.1 ns then reset w.2 else w.2

/-- `RST_N` rises: the straps are sampled (R111, R115). -/
def Dev.rstRise (d : Dev) (boot : BitVec 2) (refsel : Bool) : Dev :=
  if d.pins.lost || !d.pins.rstLow then d
  else
    { d with
      glb := { d.glb with phase := .pll, bootMode := boot, refsel := refsel }
      pins := { d.pins with rstLow := false, scanOut := none } }

/-- A supply falls below its minimum (R896, R898, R907). `io`: VDD_IO33 alone, so that every 3.3 V input reads low and E-stop acts;
else the device's state is lost. What a low `RST_N` or `PERST_N` does is a command of its own. -/
def Dev.supplyLoss (d : Dev) (io : Bool) : Dev :=
  if io then
    let d := (List.range 25).foldl (fun d i => d.rawEdge i false) d
    let d := (List.range 8).foldl (fun d c => d.quadrature c false false) d
    d.enterSafe 2 3
  else
    let d := d.deviceReset .por true
    { d with pins := { d.pins with lost := true, rstLow := true, thermHold := false, scanOut := none } }

/-! ### The boot ROM (R120-R128) -/

/-- Decoded boot mode (Table 3-2): 0 flash, 1 host load, 2 recovery. -/
def Glb.bootCode (g : Glb) : Nat := min g.bootMode.toNat 2

/-- Image selection in flash boot mode (R124, R125): slot, FALLBACK and image; none where neither slot is valid. -/
def Dev.pickImage (d : Dev) : Option (Bool × Bool × Image) :=
  let h := d.bootHeader
  let wdt := h.2 && decide (d.glb.last = 3)
  let first := if wdt then !h.1 else h.1
  match d.slotImage first with
  | some i => some (first, wdt, i)
  | none => (d.slotImage (!first)).map (fun i => (!first, true, i))

/-- What the ROM reads of the flash: the boot header and the slots it tries (R124). -/
def Dev.romReads (d : Dev) : List (Nat × Nat) :=
  let h := d.bootHeader
  let first := if h.2 && decide (d.glb.last = 3) then !h.1 else h.1
  (0, 12) :: d.slotExtents first ++ (if (d.slotImage first).isSome then [] else d.slotExtents (!first))

/-- The ROM starts the Kiln: it selects an image, or serves the PF mailbox itself. Nobody answers the mailboxes meanwhile. -/
def Dev.romStart (d : Dev) : Dev :=
  let d := { d with
    mbx := SMap.mapV {} (fun _ m => { m with ready := false }) d.mbx
    kiln := { d.kiln with fw := .none, nonce := none, staged := none, sram := false, wrote := [] } }
  let g := d.glb
  let m := g.bootCode
  let d := if m = 0 then d.spiRead true d.romReads else d
  let rom (d : Dev) (fb : Bool) : Dev := { d with
    glb := { g with mode := BitVec.ofNat 2 m, slot := false, fallback := fb, recovery := decide (m ≠ 1), trial := false }
    kiln := { d.kiln with next := .rom, img := {} } }
  if m = 0 then
    match d.pickImage with
    | some (s, fb, i) => { d with
        glb := { g with mode := 0, slot := s, fallback := fb, recovery := false }
        kiln := { d.kiln with next := .fw, img := i } }
    | none => rom d (d.bootHeader.2 && decide (g.last = 3))
  else rom d false

/-- The test-time remaps of the OTP fuses (R488). -/
def Dev.otpRemaps (d : Dev) : Dev := d.fuse.remaps.foldl (fun d x => d.updCore x.1 (·.useSpare x.2.1 x.2.2.1 x.2.2.2)) d

/-- The PLL has locked, or was locked at a warm reset, and the domains are released; the remaps of OTP are applied, then the Kiln leaves
reset unless a thermal trip holds it (R115, R488, R934). -/
def Dev.pllLocked (d : Dev) (f : BootFacts) : Dev :=
  if (d.glb.phase ≠ .pll && d.glb.phase ≠ .warm) || d.pins.thermHold then d
  else ({ d.otpRemaps with glb := { d.glb with phase := .boot }, kiln := { d.kiln with facts := f } } : Dev).romStart

/-- A Kiln restart (R192, R193): the Kiln alone is reloaded. -/
def Dev.kilnRestart (d : Dev) : Dev := d.romStart

/-! ### The boot of the firmware (R128, R129, R136, R137, R183, R184, R820, R821) -/

/-- An entry of the store that is skipped, or a stored set that is refused (code 0x0033). -/
def Dev.skipRecord (d : Dev) (type idx : Nat) : Dev :=
  d.record { cls := 7, source := 3, code := 0x0033, info := place idx 0 16 + place type 16 16 }

/-- The firmware looks at the banks: not in recovery, and not where the flash does not answer. -/
def Dev.storeRead (d : Dev) : Bool := !d.glb.recovery && (decide (d.glb.bootCode = 0) || d.kiln.facts.flash)

/-- The store is in use at this boot: it is looked at, and some bank is valid. -/
def Dev.storeUsed (d : Dev) : Bool := d.storeRead && d.selected.isSome

/-- What the firmware reads of the flash as it comes up: the boot header, for TRIAL, and both banks (R124, R136). -/
def Dev.bootReads (d : Dev) : Dev :=
  d.spiRead false ((if d.glb.bootCode = 0 && !d.kiln.sram then [(0, 12)] else []) ++
    (if d.storeRead then d.bankExtents false ++ d.bankExtents true else []))

/-- A device setting: the last stored value that SET_CONFIG would take, or the default (Table 4-8). -/
def bootSetting (rs : List (Nat × List Byte)) (key dflt : Nat) (ok : Nat → Bool) : Nat :=
  rs.foldl (fun v r => if r.1 = key && r.2.length = 4 && ok (fieldAt r.2 0 4) then fieldAt r.2 0 4 else v) dflt

/-- Settings and boot status. -/
def Dev.bootSettings (d : Dev) (recs : List (Nat × List Byte)) (used : Bool) : Dev :=
  let rs := parseSettings 16384 ((recordData recs 0x0001).getD [])
  let pool := d.fuse.grade.pool
  let size := bootSetting rs 0x0010 pool (fun v => decide (1 ≤ v) && decide (v ≤ pool))
  let bank : BitVec 2 := match d.selected with
    | some s => if used then (if s.1 then 1 else 0) else 2
    | none => 2
  let seq : W32 := match d.selected with
    | some s => if used then s.2.1 else 0
    | none => 0
  let h := d.bootHeader
  { d with
    glb := { d.glb with
      src := BitVec.ofNat 2 (bootSetting rs 0x0001 0 (fun v => decide (v ≤ 2)))
      backstep := bootSetting rs 0x0002 0 (fun v => decide (v ≤ 1)) == 1
      cfgBank := bank
      cfgSeq := seq
      cfgDefault := !used
      trial := decide (d.glb.bootCode = 0) && !d.kiln.sram && h.2 && h.1 == d.glb.slot }
    kiln := { d.kiln with
      perstScope := bootSetting rs 0x0003 0 (fun v => decide (v ≤ 1)) == 1
      target := bootSetting rs 0x0011 d.fuse.grade.guar (fun v => decide (1 ≤ v) && decide (v ≤ d.fuse.grade.ceil)) }
    blw := { d.blw with size := size, leaseCap := min d.pins.tc size }
    mem := { d.mem with ecc := bootSetting rs 0x0012 0 (fun v => decide (v ≤ 1)) == 1 } }

/-- Training (R818, R820, R821). -/
def Dev.train (d : Dev) : Dev :=
  let f := d.kiln.facts
  if f.trainFail = 0 then
    let den : BitVec 2 := if f.big then 2 else 1
    { d with mem := { d.mem with density := den, usable := usableMiB den d.mem.ecc } }
  else
    ({ d with mem := { d.mem with density := 0, usable := 0, trainFail := f.trainFail } }).record
      { cls := 5, source := 10, code := 0x0031, info := f.trainFail.toNat }

/-- The row remaps of record 0x0010 (R495, R496). -/
def Dev.bootRemaps (d : Dev) (recs : List (Nat × List Byte)) : Dev :=
  let b := (recordData recs 0x0010).getD []
  if fieldAt b 0 8 ≠ d.fuse.devid.toNat then d
  else (List.range ((b.length - 8) / 4)).foldl (fun d i =>
    let e := b.drop (8 + 4 * i)
    let n := fieldAt e 0 1
    let mem := bits (fieldAt e 1 1) 0 2
    let w := fieldAt e 2 2
    let row := bits w 0 10
    let k := bits w 10 3
    let bad := decide (17 < n) || decide (2 < fieldAt e 1 1) || decide (bits w 13 3 ≠ 0) || decide (memRows mem ≤ row) ||
      SMap.get false (d.core n).spares (spareKey mem (bankOf row) k)
    if bad then d.skipRecord 0x0010 i else d.updCore n (·.useSpare mem row k)) d

/-- The fence map (R605, R606). -/
def Dev.bootFences (d : Dev) (recs : List (Nat × List Byte)) : Dev :=
  let b := (recordData recs 0x0011).getD []
  if fieldAt b 0 8 ≠ d.fuse.devid.toNat then d
  else (List.range ((b.length - 8) / 4)).foldl (fun d i =>
    let e := b.drop (8 + 4 * i)
    let n := fieldAt e 0 1
    if decide (17 < n) || decide (fieldAt e 1 1 = 0) || decide (7 < fieldAt e 1 1) || decide (fieldAt e 2 2 ≠ 0) then d.skipRecord 0x0011 i
    else if (d.core n).st = .fenced then d
    else (d.fencePlain n 6).updCore n (fun c => { c with persist := true })) d

/-- TEST 0 of every other core, and the ACTIVE set (R582, R607, R626). -/
def Dev.bootCores (d : Dev) : Dev :=
  let f := d.kiln.facts
  let bad := allCores.filter (fun n => f.testFail.getLsbD n && decide ((d.core n).st ≠ .fenced))
  let d := bad.foldl (fun d n => ((d.fencePlain n 5).persistFence n f.flash).2) d
  ((allCores.filter (fun n => decide ((d.core n).st = .banked))).take d.kiln.target).foldl (Dev.activate 0) d

/-- The registers that a TAG of record 0x0030 names (R675). -/
def Dev.bootMio (d : Dev) (tag : Nat) (b : List Byte) : Dev :=
  let v := fieldAt b 0 8
  if tag = 0x1000 then d.putOutCfg .kiln 0x700010 v 0xFFFFFFFF
  else if tag < 0x1200 then d.putEncCfg .kiln (0x700100 + 16 * (tag - 0x1100)) (tag - 0x1100) v 0xFFFFFFFF
  else d.putInCfg .kiln (0x700200 + 8 * (tag - 0x1200)) (tag - 0x1200) v 0xFFFFFFFFFFFFFFFF

/-- A TAG of Motion I/O. -/
def mioTag (t : Nat) : Bool := t == 0x1000 || (decide (0x1100 ≤ t) && decide (t < 0x1108)) || (decide (0x1200 ≤ t) && decide (t < 0x1219))
/-- A TAG of an SLE block. -/
def sleTag (t : Nat) : Bool := decide (t ≤ 5) || (decide (0x100 ≤ t) && decide (t < 0x110))

/-- Record 0x0030 (R676). -/
def Dev.bootSle (d : Dev) (recs : List (Nat × List Byte)) : Dev :=
  match recordData recs 0x0030 with
  | none => d
  | some b =>
    let es := (parseRecords 16384 b).zipIdx
    let d := es.foldl (fun d e => if mioTag e.1.1 then d.bootMio e.1.1 e.1.2 else d) d
    let d := es.foldl (fun d e =>
      if mioTag e.1.1 then d
      else if !sleTag e.1.1 || decide (e.1.2.length < sleSize e.1.1 e.1.2) || (d.sleBad e.1.1 e.1.2).any Prod.snd then d.skipRecord 0x0030 e.2
      else { d with sle := { d.sle with shadow := d.sle.shadow.block e.1.1 e.1.2 } }) d
    if d.setBad d.sle.shadow then
      let w := d.draw
      ({ w.2 with sle := { w.2.sle with shadow := {} } }).skipRecord 0x0030 (Config.freeWord w.1).toNat
    else
      let c := d.sle.shadow
      ({ d with sle := { ({ d.sle with shadow := { c with gainNew := false } } : Sle).install c with applied := true } } : Dev).safeOuts

/-- Record 0x0020 (R787). -/
def Dev.bootNet (d : Dev) (recs : List (Nat × List Byte)) : Dev :=
  match recordData recs 0x0020 with
  | none => d
  | some b =>
    let es := (parseNet 8192 b).zipIdx
    let bad (r : NetRec) : Bool :=
      if r.kind = 0 then
        let shared := decide (0x10 ≤ r.id) && decide (r.id < 0x20)
        !(shared || decide (r.id ≤ 4)) || (if shared then r.unit != 0xFF else decide (1 < r.unit)) ||
          decide (r.data.length < ethSize r.id r.data) || (ethBad r.id r.data).any Prod.snd
      else r.kind != 1 || decide (127 < r.unit) || decide (4095 < r.id)
    let d := es.foldl (fun d e => if bad e.1 then d.skipRecord 0x0020 e.2 else d) d
    let blocks (d : Dev) (u : Nat) : Dev := es.foldl (fun d e =>
      if !bad e.1 && e.1.kind == 0 && e.1.unit == u then d.ethShadow (u % 255) e.1.id e.1.data else d) d
    let d := blocks (blocks (blocks d 0xFF) 0) 1
    let apply (d : Dev) (p : Nat) : Dev :=
      if d.ethSetBad p then
        let w := d.draw
        w.2.skipRecord 0x0020 (Config.freeWord w.1).toNat
      else d.ethInstall p
    let d := apply (apply d 0) 1
    es.foldl (fun d e =>
      if !bad e.1 && e.1.kind == 1 then
        d.setSession e.1.id (some { sessionOf e.1.unit e.1.data true with open_ := false, dormant := true })
      else d) d

/-- The firmware comes up for the first time after a device reset (R820, R910): settings, DRAM, cores, control I/O, network. -/
def Dev.bootFirmware (d : Dev) : Dev :=
  let used := d.storeUsed
  let recs := if used then d.records else []
  let d := (d.bootSettings recs used).train
  let d := (((d.bootRemaps recs).bootFences recs).bootCores).bootSle recs
  let d := d.bootNet recs
  { d with kiln := { d.kiln with booted := true }, pins := { d.pins with vid := some d.fuse.vid } }

/-- Boot status after a Kiln restart (R890). -/
def Dev.restartStatus (d : Dev) : Dev :=
  let used := d.storeUsed
  let h := d.bootHeader
  let g := d.glb
  let g : Glb := { g with trial := decide (g.bootCode = 0) && !d.kiln.sram && h.2 && h.1 == g.slot, cfgDefault := !used }
  match d.selected with
  | some s => if used then { d with glb := { g with cfgBank := if s.1 then 1 else 0, cfgSeq := s.2.1 } }
    else { d with glb := { g with cfgBank := 2, cfgSeq := 0 } }
  | none => { d with glb := { g with cfgBank := 2, cfgSeq := 0 } }

/-- FWREADY is set: by the firmware on every mailbox, by the ROM on the PF's (R116, R127, R192). A request that was accepted before a Kiln
restart is looked at by whoever answers now (log 54): its opcode may not be implemented any more (R22, R126). -/
def Dev.fwReady (d : Dev) : Dev :=
  if !d.clocked then d
  else
    let d := match d.kiln.fw, d.kiln.next with
      | .none, .fw => (if d.kiln.booted then d.bootReads.restartStatus else d.bootReads.bootFirmware)
      | _, _ => d
    let who := if d.kiln.fw = .none then d.kiln.next else d.kiln.fw
    let fs := match who with
      | .none => []
      | .rom => [0]
      | .fw => List.range 128
    let d := fs.foldl (fun d f => d.updMbox f (fun m => { m with ready := true })) d
    let d := { d with
      kiln := { d.kiln with fw := who, next := .none }
      glb := { d.glb with phase := if who = .none then d.glb.phase else .ready }
      pcie := { d.pcie with crs := if decide (who = .none) || d.pcie.perst then d.pcie.crs else false } }
    (fs.filter (fun f => (d.mbox f).busy)).foldl Dev.screen d

/-! ### Reset requests and errors (R113, R814, R847, R855, R856, R862) -/

/-- A write of `GLB_RSTCTL`. -/
def Dev.rstCtl (d : Dev) (v : Nat) : Dev := if bits v 0 16 = 0xC0DE then d.warmReset .swrst else d

/-- `PERST_N` is asserted: a warm reset, or a reset of the endpoint alone (R184, R814). -/
def Dev.perstDown (d : Dev) : Dev :=
  if d.pcie.perst then d
  else
    let d := { d with pcie := { d.pcie with perst := true } }
    if d.pins.rstLow then d
    else if d.kiln.perstScope then d.endpointReset
    else d.warmReset .perst

/-- A device-fatal error in unit `u` of code 0x0040 (R855). -/
def Dev.fatalError (d : Dev) (u : Nat) : Dev :=
  if !d.clocked then d else
  let source := nth 0 [1, 2, 11, 12] (u - 1)
  let d := d.enterSafe 3 4
  ({ d with stk := { d.stk with fatal := true, fatalAt := some (d.stk.fatalAt.getD d.glb.ticks) } }).record { cls := 6, source := source, code := 0x0040, info := u }

/-- `n` ticks have passed since the tick `since`. -/
def Glb.passed (g : Glb) (since : Option Nat) (n : Nat) : Bool := since.any (fun t => decide (t + n ≤ g.ticks))

/-- A device-fatal error was detected 10 ms ago (R856). -/
def Dev.fatalDue (d : Dev) : Bool := d.glb.passed d.stk.fatalAt 1000000

/-- 10 ms after a device-fatal error the Kiln resets the device, or holds its state (R856). -/
def Dev.fatalTimer (d : Dev) : Dev :=
  if !d.fatalDue then d
  else if d.err.hold then { d with stk := { d.stk with hold := true, fatalAt := none } }
  else d.warmReset .swrst

/-- An uncorrectable error in Kiln SRAM (R847). -/
def Dev.kilnUe (d : Dev) (addr : Nat) : Dev :=
  if !d.clocked then d else (d.record { cls := 5, source := 3, code := 0x0018, info := addr }).kilnRestart

/-- The watchdog expires (R862). When the firmware refreshed it last is the firmware's own affair: a free value (log 1). -/
def Dev.watchdog (d : Dev) : Dev :=
  if !d.clocked then d
  else
    let w := d.draw
    (w.2.record { cls := 7, source := 3, code := 0x0034, info := (Config.freeWord w.1).toNat }).warmReset .wdt

/-! ### Temperature (R924, R931, R933, R934) and core voltage (R908, R910) -/

/-- Throttle-on, throttle-off and trip values in quarter degrees (Table 27-2). -/
def Fuses.limits (f : Fuses) : Int × Int × Int := if f.tempE then (480, 460, 520) else (400, 380, 460)

/-- The running firmware reads Tj, which it does every 1 ms (R931). -/
def Dev.readsTj (d : Dev) : Bool := decide (d.kiln.fw = .fw) && (d.pins.tjAt.isNone || d.glb.passed d.pins.tjAt 100000)

/-- The hottest sensor reads `tj`, in quarter degrees: where 1 ms has passed the firmware moves the thermal cap, and LEASECAP with it. -/
def Dev.readTj (d : Dev) (tj : Int) : Dev :=
  let l := d.fuse.limits
  let cool := if tj < l.2.1 then some (d.pins.coolAt.getD d.glb.ticks) else none
  let reads := d.readsTj
  let d := { d with pins := { d.pins with tj := tj, coolAt := cool } }
  if !reads then d
  else
    let tc := if l.1 ≤ tj then d.pins.tc - 2 else if tj < l.2.1 then min (d.pins.tc + 2) d.fuse.grade.pool else d.pins.tc
    { d with pins := { d.pins with tc := tc, tjAt := some d.glb.ticks }, blw := { d.blw with leaseCap := min tc d.blw.size } }

/-- The comparator, which does not depend on the Kiln, trips; a device that `RST_N` holds is in reset already. -/
def Dev.thermTrip (d : Dev) (sensor : Nat) (tj : Int) : Dev :=
  if tj < d.fuse.limits.2.2 || decide (d.glb.phase = .held) then d
  else
    let d := d.enterSafe 3 4
    let d := { d with pins := { d.pins with trip := true, tj := tj, coolAt := none, thermHold := true } }
    (d.record { cls := 7, source := 12, code := 0x0041, info := sensor }).warmReset .therm

/-- Tj has read below the throttle-off value for 1 s; before the PLL is locked no tick counts that second. -/
def Dev.cooled (d : Dev) : Bool := d.pins.coolAt.any (fun (t : Int) => decide (d.glb.phase = .pll) || decide (t + 100000000 ≤ d.glb.ticks))

/-- The Kiln is let out of reset after a trip (R934). -/
def Dev.thermRelease (d : Dev) : Dev :=
  if d.cooled then { d with pins := { d.pins with thermHold := false } } else d

/-- The firmware may step the CORE_VID code: at most once per 1 ms (R910). -/
def Dev.mayStepVid (d : Dev) : Bool := decide (d.kiln.fw = .fw) && (d.pins.vidAt.isNone || d.glb.passed d.pins.vidAt 100000)

/-- The firmware steps the CORE_VID code within fused − 4 to 40. -/
def Dev.vidStep (d : Dev) (up : Bool) : Dev :=
  match d.mayStepVid, d.pins.vid with
  | true, some v =>
    let put (v : BitVec 6) : Dev := { d with pins := { d.pins with vid := some v, vidAt := some d.glb.ticks } }
    if up then (if v.toNat < 40 then put (v + 1) else d)
    else if d.fuse.vid.toNat - 4 < v.toNat then put (v - 1) else d
  | _, _ => d

/-! ### Device DRAM (R826, R827, R830, R831, R833) -/

/-- An uncorrectable error in a flit: counted, recorded, and later reads of the flit are delivered poisoned. -/
def Dev.flitUe (d : Dev) (f : Nat) : Dev :=
  let m := d.mem
  let d := { d with mem := { m with
    ue := satInc m.ue
    errAddr := if m.errAddr.getLsbD 63 then m.errAddr else BitVec.ofNat 64 (place f 6 29 + 2 ^ 63)
    poison := SMap.set false m.poison f true } }
  d.record { cls := 2, source := 10, index := portOf f, code := 0x0011, info := f * 64 }

/-- A correctable error in a flit: it is corrected, counted and recorded. -/
def Dev.flitCe (d : Dev) (f : Nat) : Dev :=
  ({ d with mem := { d.mem with ce := satInc d.mem.ce } }).record { cls := 1, source := 10, index := portOf f, code := 0x0002, info := f * 64 }

/-- A read of a flit finds an error; with ECC off nothing is detected (R827). -/
def Dev.dramError (d : Dev) (f : Nat) (corrected : Bool) : Dev :=
  if !d.mem.ecc || decide (d.usable ≤ f * 64) then d else if corrected then d.flitCe f else d.flitUe f

/-- The patrol scrub reads the next data flit. -/
def Dev.scrub (d : Dev) (r : ScrubResult) : Dev :=
  let n := d.usable / 64
  if !d.mem.ecc || decide (n = 0) then d
  else
    let f := d.mem.scrub % n
    let d := { d with mem := { d.mem with scrub := (f + 1) % n } }
    match r with
    | .clean => d
    | .corrected => d.flitCe f
    | .uncorrectable => d.flitUe f

/-- Channel `c` refreshes its next bank. -/
def Dev.refreshBank (d : Dev) (c : Nat) : Dev :=
  { d with mem := { d.mem with refresh := SMap.upd 0 d.mem.refresh c (fun b => (b + 1) % 16) } }

/-- A frame with port `p`'s slots held: it is a pressure frame too. -/
def Dev.holdFrame (d : Dev) (p : Nat) : Dev :=
  { d with mem := { d.mem with
    press := true
    ports := SMap.upd {} d.mem.ports p (fun c => { c with press := satInc c.press, hold := satInc c.hold }) } }

end Sys2Proof.Machine
end

