-- ==== Sys2Proof/Machine/DebugOps.lean ====
section
/-!
DEFINITION. Machine/DebugOps.lean: debug mode, halts and breakpoints, the test access port, the SMBus target (24, 26).
-/
namespace Sys2Proof.Machine

/-! ### Debug mode (R864, R866-R868) -/

/-- Debug mode begins. -/
def Dev.enterDebug (d : Dev) : Dev :=
  ({ d with dbg := { d.dbg with on := true } }).record { cls := 7, source := 3, code := 0x0035, info := 1 }

/-- The set of the job on core `n` halts before the instruction at the breakpoint issues: steps 2 to 4 of Table 1-2 run and stop. -/
def Dev.breakHalt (d : Dev) (n : Nat) : Dev :=
  let c := d.core n
  match d.coreJob n with
  | none => d
  | some (k, j) =>
    if j.fin.isSome || !c.run || c.dbg.halted || decide (c.wait ≠ .none) || c.spec.wrong || decide (c.spec.redirect ≠ 0) || !d.atBreak n then d
    else ((d.stopSet j true).updJob k (fun j => { j with halt := some false })).markHalt j true

/-- Core `n` of a set that resumes at a breakpoint issues again; the breakpoint at which it stands lets one instruction pass. -/
def Dev.unbreak (d : Dev) (n : Nat) : Dev :=
  let b := d.atBreak n
  d.updCore n (fun c => { c with run := true, dbg := { c.dbg with skip := c.dbg.skip || b } })

/-- The halted set of the job with key `k` resumes (R867). -/
def Dev.resumeJob (d : Dev) (k : Nat) : Dev :=
  match d.job k with
  | none => d
  | some j =>
    match j.halt with
    | none => d
    | some fault =>
      let d := (d.updJob k (fun j => { j with halt := none })).markHalt j false
      if fault then d
      else
        let d := j.cores.foldl Dev.unbreak d
        if j.deadline ≤ d.now then d.quench k else d

/-- A write of `DBG_CTL.RESUME` that names core `n`. -/
def Dev.dbgResume (d : Dev) (n : Nat) : Dev :=
  if !d.dbg.on then d
  else
    let d := { d with dbg := { d.dbg with rcore := BitVec.ofNat 5 n } }
    match d.coreJob n with
    | some (k, _) => d.resumeJob k
    | none => d

/-- Debug mode ends: every halted set resumes and the hazard detectors are off (R573, R868). -/
def Dev.dbgExit (d : Dev) : Dev :=
  if !d.dbg.on then d
  else
    let d := (d.jobKeys (fun j => j.halt.isSome)).foldl Dev.resumeJob d
    let d := d.updCores allCores (fun c => { c with haz := { c.haz with ctl := 0, mode := 0 } })
    ({ d with
      dbg := { d.dbg with on := false }
      pins := { d.pins with scanOut := none } }).record { cls := 7, source := 3, code := 0x0035, info := 0 }

/-! ### TAP (R869-R871, R920) -/

/-- Bits shifted through the one-bit bypass register, which captures 0. -/
def Dev.bypass (d : Dev) (tdi : W64) : Dev :=
  ({ d with pins := { d.pins with tap := .bypass, scanOut := none } }).send (.tdo (tdi <<< 1).toNat 64)

/-- IDCODE of the revision. -/
def Fuses.idcode (f : Fuses) : Nat := if f.revB0 then 0x15C18A5D else 0x05C18A5D

def Dev.idcode (d : Dev) : Dev :=
  ({ d with pins := { d.pins with tap := .idcode, scanOut := none } }).send (.tdo d.fuse.idcode 32)

/-- The boundary-scan register captures the pins, whose cells the spec does not order (a free value, log 1), and is preloaded. -/
def Dev.scanShift (d : Dev) (t : TapInstr) (out : Option TapInstr) (scan : W64) : Dev :=
  let w := d.draw
  ({ w.2 with pins := { d.pins with tap := t, scan := tabulate false 64 scan.getLsbD, scanOut := out } }).send
    (.tdo (Config.freeWord w.1).toNat 64)

/-- EXTEST, CLAMP and HIGHZ act. -/
def Dev.mayDrive (d : Dev) : Bool := d.pins.rstLow || d.dbg.on

/-- In debug mode the outputs are made safe first. -/
def Dev.beforeDrive (d : Dev) : Dev := if d.dbg.on then d.enterSafe 3 4 else d

def Dev.extest (d : Dev) (scan : W64) : Dev :=
  if d.mayDrive then d.beforeDrive.scanShift .extest (some .extest) scan else d.bypass scan

/-- CLAMP drives the outputs from the boundary-scan register, HIGHZ floats them; both select the bypass register. -/
def Dev.driveBypass (d : Dev) (t : TapInstr) (tdi : W64) : Dev :=
  if d.mayDrive then
    let d := d.beforeDrive
    ({ d with pins := { d.pins with tap := t, scanOut := some t } }).send (.tdo (tdi <<< 1).toNat 64)
  else d.bypass tdi

/-- TAP reset. -/
def Dev.tapReset (d : Dev) : Dev := { d with pins := { d.pins with tap := .idcode, scanOut := none } }

/-- DBGACC reads a register of a core: of a halted one; what it shows of another is not stated (log 1). -/
def Dev.dbgRead (d : Dev) (n : Nat) (w : Nat) (f : Core → Nat) : Dev :=
  let c := d.core n
  if c.dbg.halted then d.send (.tdo (f c) w)
  else
    let x := d.draw
    x.2.send (.tdo ((Config.freeWord x.1).toNat % 2 ^ w) w)

/-! ### SMBus (R918) -/

/-- The SMBus target answers with data; during a device reset and a Kiln restart it does not acknowledge its address. -/
def Dev.smbus (d : Dev) (bs : List Byte) : Dev :=
  if decide (d.kiln.fw = .none) || d.pins.lost then d.send .smbusNack else d.send (.smbus bs)

/-- PMBus LINEAR11 with exponent −2. -/
def linear11 (q : Int) : Nat := 0xF000 + (q % 2048).toNat

/-- The part number (15 characters). -/
def Fuses.partNumber (f : Fuses) : String :=
  (match f.grade with
    | .a1618 => "PVC-1618-A-"
    | .b1618 => "PVC-1618-B-"
    | .a1212 => "PVC-1212-A-") ++ (if f.tempE then "E-" else "I-") ++ (if f.revB0 then "B0" else "A0")

/-- A block read: the count and the bytes. -/
def smbBlock (bs : List Byte) : List Byte := BitVec.ofNat 8 bs.length :: bs

/-- ASCII bytes. -/
def ascii (s : String) : List Byte := s.toList.map (fun c => BitVec.ofNat 8 c.toNat)

end Sys2Proof.Machine
end

