-- ==== Sys2Proof/Machine/RegMap.lean ====
section
/-!
DEFINITION. Machine/RegMap.lean: which register lies at an offset of BAR0 (25, Tables 25-2 to 25-9). Registers wider than 8 bytes, and
tables, are taken as rows of 8-byte or 4-byte registers.
-/
namespace Sys2Proof.Machine

/-- The registers of BAR0. A name carries the index of its instance. -/
inductive RegName where
  | id | cap | devid | bootstat | time | timeAdj | timeStep | timeCtl | strap | rstCause | rstCtl | bar4Base | pcieStat | pcieCnt
  | tntAlloc (t : Nat) | tntQuota (t : Nat) | tntBase0 (t : Nat) | tntSize0 (t : Nat) | tntBase1 (t : Nat) | tntSize1 (t : Nat)
  /-- eighth bytes `i` of `MBX_REQ` and of `MBX_RESP` -/
  | mbxReq (i : Nat) | mbxResp (i : Nat) | doorbell | mbxStatus | mbxCtl
  | pba (i : Nat) | msixAddr (v : Nat) | msixData (v : Nat) | msixCtl (v : Nat)
  | stkStatus | qsel | qinfo | rejCnt | expCnt | dbErr | bpStat | vtime
  | synCtr (c : Nat) | synAdd (c : Nat) | armThresh (a : Nat) | armCtl (a : Nat) | armStep (a : Nat) | armTarget (a : Nat)
  | armStat (a : Nat) | synStatus | synAccErr | synErrInfo
  | isaLvl (n : Nat) | evt (n : Nat) | fault (n : Nat) | spGeom (n : Nat) | spErr (n : Nat) | spRes (n : Nat) | specCtl (n : Nat)
  | hazCtl (n : Nat) | hazInfo (n : Nat) | coreState (n : Nat)
  | sleStat | sleCtl | missCnt | sample | sleTraj
  | mioStat | inLvl | outCfg | encCfg (c : Nat) | encCnt (c : Nat) | inCfg (i : Nat) | homeStat (a : Nat)
  | camStat (p : Nat) | camCtl (p : Nat) | camCommit (p : Nat) | deliv (p : Nat) | drops (p : Nat) | pktCnt (p : Nat) | lastFs (p : Nat)
  | ethStat (p : Nat) | ethDrop (p : Nat) | pstCnt (p : Nat) | ptpStat | ptpOfs
  | memCfg | memStat | eccCnt | errAddr | portCnt (p : Nat) | portExt (p : Nat)
  | cfgWarn | errStat | errCtl | logPtr
  /-- eighth bytes of `ERR_FATAL`, of `ERR_LOG` (record i / 4) and of the trace buffer (entry i / 2) -/
  | errFatal (i : Nat) | errLog (i : Nat) | dbgStat | dbgCtl | brk (n : Nat) | trcCtl | trcPtr | trace (i : Nat)
  | pmcSel (n : Nat) | pmc0 (n : Nat) | pmc1 (n : Nat) | pmc2 (n : Nat) | pmc3 (n : Nat)
  | blwPool | blwRsv | peak | grants | blwCore (n : Nat) | blwStall (n : Nat)
  /-- eight bytes of the narrow debug window -/
  | narrow (i : Nat)
  deriving DecidableEq, Repr

/-- A row of registers: first offset, stride, number, bytes of each, name by index. -/
structure RegRow where
  base : Nat
  stride : Nat
  count : Nat
  width : Nat
  name : Nat → RegName

/-- One register. -/
def RegRow.one (base width : Nat) (r : RegName) : RegRow := { base := base, stride := width, count := 1, width := width, name := fun _ => r }

/-- Table 25-2. -/
def glbRows : List RegRow :=
  [.one 0x0 4 .id, .one 0x8 8 .cap, .one 0x10 8 .devid, .one 0x18 8 .bootstat, .one 0x100 8 .time, .one 0x108 4 .timeAdj,
   .one 0x110 8 .timeStep, .one 0x118 4 .timeCtl, .one 0x120 4 .strap, .one 0x124 4 .rstCause, .one 0x128 4 .rstCtl,
   .one 0x200 8 .bar4Base, .one 0x208 4 .pcieStat, .one 0x210 8 .pcieCnt,
   { base := 0x8000, stride := 0x40, count := 128, width := 8, name := .tntAlloc },
   { base := 0x8008, stride := 0x40, count := 128, width := 8, name := .tntQuota },
   { base := 0x8010, stride := 0x40, count := 128, width := 8, name := .tntBase0 },
   { base := 0x8018, stride := 0x40, count := 128, width := 8, name := .tntSize0 },
   { base := 0x8020, stride := 0x40, count := 128, width := 8, name := .tntBase1 },
   { base := 0x8028, stride := 0x40, count := 128, width := 8, name := .tntSize1 }]

/-- Table 25-3. -/
def mbxRows : List RegRow :=
  [{ base := 0x10000, stride := 8, count := 32, width := 8, name := .mbxReq },
   { base := 0x10100, stride := 8, count := 32, width := 8, name := .mbxResp },
   .one 0x10200 4 .doorbell, .one 0x10204 4 .mbxStatus, .one 0x10208 4 .mbxCtl,
   { base := 0x14000, stride := 8, count := 32, width := 8, name := .pba },
   { base := 0x18000, stride := 16, count := 2048, width := 8, name := .msixAddr },
   { base := 0x18008, stride := 16, count := 2048, width := 4, name := .msixData },
   { base := 0x1800C, stride := 16, count := 2048, width := 4, name := .msixCtl }]

/-- Table 25-4. -/
def stkRows : List RegRow :=
  [.one 0x100000 4 .stkStatus, .one 0x100010 4 .qsel, .one 0x100018 8 .qinfo, .one 0x100020 4 .rejCnt, .one 0x100024 4 .expCnt,
   .one 0x100028 4 .dbErr, .one 0x100030 8 .bpStat, .one 0x100040 8 .vtime,
   { base := 0x200000, stride := 8, count := 131072, width := 8, name := .synCtr },
   { base := 0x300000, stride := 4, count := 131072, width := 4, name := .synAdd },
   { base := 0x380000, stride := 0x20, count := 8192, width := 8, name := .armThresh },
   { base := 0x380008, stride := 0x20, count := 8192, width := 4, name := .armCtl },
   { base := 0x38000C, stride := 0x20, count := 8192, width := 4, name := .armStep },
   { base := 0x380010, stride := 0x20, count := 8192, width := 4, name := .armTarget },
   { base := 0x380014, stride := 0x20, count := 8192, width := 4, name := .armStat },
   .one 0x3F0000 4 .synStatus, .one 0x3F0008 4 .synAccErr, .one 0x3F000C 4 .synErrInfo]

/-- A row over the core windows. -/
def RegRow.core (ofs width : Nat) (r : Nat → RegName) : RegRow :=
  { base := 0x400000 + ofs, stride := 0x10000, count := 18, width := width, name := r }

/-- Table 25-5. -/
def corRows : List RegRow :=
  [.core 0x00 4 .isaLvl, .core 0x08 4 .evt, .core 0x10 8 .fault, .core 0x20 8 .spGeom, .core 0x28 8 .spErr, .core 0x30 8 .spRes,
   .core 0x40 4 .specCtl, .core 0x50 4 .hazCtl, .core 0x58 8 .hazInfo, .core 0x60 4 .coreState]

/-- Table 25-6. -/
def sleRows : List RegRow :=
  [.one 0x600000 4 .sleStat, .one 0x600004 4 .sleCtl, .one 0x600008 4 .missCnt, .one 0x600010 8 .sample, .one 0x600018 8 .sleTraj,
   .one 0x700000 8 .mioStat, .one 0x700008 4 .inLvl, .one 0x700010 4 .outCfg,
   { base := 0x700100, stride := 0x10, count := 8, width := 4, name := .encCfg },
   { base := 0x700108, stride := 0x10, count := 8, width := 8, name := .encCnt },
   { base := 0x700200, stride := 8, count := 25, width := 8, name := .inCfg },
   { base := 0x700300, stride := 8, count := 8, width := 8, name := .homeStat }]

/-- A row over the two camera ports, and over the two Ethernet ports. -/
def RegRow.cam (ofs width : Nat) (r : Nat → RegName) : RegRow :=
  { base := 0x800000 + ofs, stride := 0x100000, count := 2, width := width, name := r }
def RegRow.eth (ofs width : Nat) (r : Nat → RegName) : RegRow :=
  { base := 0xA00000 + ofs, stride := 0x10000, count := 2, width := width, name := r }

/-- Table 25-7. -/
def portRows : List RegRow :=
  [.cam 0x00 4 .camStat, .cam 0x04 4 .camCtl, .cam 0x08 4 .camCommit, .cam 0x10 4 .deliv, .cam 0x14 4 .drops, .cam 0x18 4 .pktCnt,
   .cam 0x20 8 .lastFs, .eth 0x00 4 .ethStat, .eth 0x10 8 .ethDrop, .eth 0x18 8 .pstCnt, .one 0xA00100 8 .ptpStat,
   .one 0xA00108 8 .ptpOfs]

/-- Table 25-8. -/
def errRows : List RegRow :=
  [.one 0xC00000 8 .memCfg, .one 0xC00008 4 .memStat, .one 0xC00010 8 .eccCnt, .one 0xC00018 8 .errAddr,
   { base := 0xC00100, stride := 0x10, count := 8, width := 8, name := .portCnt },
   { base := 0xC00108, stride := 0x10, count := 8, width := 8, name := .portExt },
   .one 0xD00000 8 .cfgWarn, .one 0xD00008 4 .errStat, .one 0xD00010 4 .errCtl, .one 0xD00018 4 .logPtr,
   { base := 0xD00100, stride := 8, count := 4, width := 8, name := .errFatal },
   { base := 0xD01000, stride := 8, count := 1024, width := 8, name := .errLog },
   .one 0xD80000 4 .dbgStat, .one 0xD80008 4 .dbgCtl, { base := 0xD80100, stride := 8, count := 18, width := 4, name := .brk },
   .one 0xD80200 4 .trcCtl, .one 0xD80208 4 .trcPtr, { base := 0xD90000, stride := 8, count := 8192, width := 8, name := .trace },
   { base := 0xDA0000, stride := 0x40, count := 18, width := 4, name := .pmcSel },
   { base := 0xDA0008, stride := 0x40, count := 18, width := 8, name := .pmc0 },
   { base := 0xDA0010, stride := 0x40, count := 18, width := 8, name := .pmc1 },
   { base := 0xDA0018, stride := 0x40, count := 18, width := 8, name := .pmc2 },
   { base := 0xDA0020, stride := 0x40, count := 18, width := 8, name := .pmc3 }]

/-- Table 25-9. -/
def blwRows : List RegRow :=
  [.one 0xE00000 4 .blwPool, .one 0xE00008 4 .blwRsv, .one 0xE00010 4 .peak, .one 0xE00018 4 .grants,
   { base := 0xE00100, stride := 0x10, count := 18, width := 4, name := .blwCore },
   { base := 0xE00108, stride := 0x10, count := 18, width := 4, name := .blwStall },
   { base := 0x1000000, stride := 8, count := 2097152, width := 8, name := .narrow }]

/-- Every row. -/
def regRows : List RegRow := glbRows ++ mbxRows ++ stkRows ++ corRows ++ sleRows ++ portRows ++ errRows ++ blwRows

/-- Offset `o` falls in a register of the row. -/
def RegRow.has (r : RegRow) (o : Nat) : Bool :=
  decide (r.base ≤ o) && decide ((o - r.base) / r.stride < r.count) && decide ((o - r.base) % r.stride < r.width)

/-- The register at an offset: name, first offset, bytes; none where no register lies (R875). -/
def regAt (o : Nat) : Option (RegName × Nat × Nat) :=
  (regRows.find? (·.has o)).map (fun r =>
    let i := (o - r.base) / r.stride
    (r.name i, r.base + i * r.stride, r.width))

end Sys2Proof.Machine
end

