-- ==== Sys2Proof/Machine/RegRead.lean ====
section
/-!
DEFINITION. Machine/RegRead.lean: what a register of BAR0 reads as, and what a read clears (R11, R13, ch. 25 and the chapters that own the
registers).
-/
namespace Sys2Proof.Machine

/-- Bit fields `(value, lowest bit, width)` of a register put together. -/
def pack (l : List (Nat × Nat × Nat)) : Nat := (l.map (fun f => place f.1 f.2.1 f.2.2)).sum

/-- One bit at place `i`. -/
def flagAt (b : Bool) (i : Nat) : Nat × Nat × Nat := (b2n b, i, 1)

/-- Bits given by a test, from bit 0. -/
def bitsOf (n : Nat) (p : Nat → Bool) : Nat := ((List.range n).map (fun i => if p i then 2 ^ i else 0)).sum

/-! ### Global block, mailbox, MSI-X (Tables 25-2, 25-3) -/

/-- CCLK in MHz (Table 3-1). -/
def Grade.mhz : Grade → Nat
  | .b1618 => 1200
  | _ => 1600

/-- `GLB_CAP` (R887). -/
def Fuses.capReg (f : Fuses) : Nat :=
  pack [(f.grade.code, 0, 2), flagAt f.tempE 2, (b2n f.revB0, 4, 4), (18, 8, 5), (f.grade.guar, 16, 5), (f.grade.ceil, 24, 5),
    (f.grade.mhz, 32, 12), (f.grade.pool, 48, 6), flagAt f.debugDis 56]

/-- `GLB_BOOTSTAT`. -/
def Glb.bootstat (g : Glb) : Nat :=
  pack [(g.mode.toNat, 0, 2), flagAt g.slot 2, flagAt g.fallback 3, flagAt g.recovery 4, flagAt g.trial 5, (g.cfgBank.toNat, 8, 2),
    flagAt g.cfgDefault 10, (g.cfgSeq.toNat, 32, 32)]

/-- `GLB_TIMECTL`. -/
def Glb.timeCtl (g : Glb) : Nat := pack [(g.src.toNat, 0, 2), flagAt g.backstep 2, flagAt g.stepRej 8, flagAt g.adjClamp 9]

/-- `GLB_TNT_ALLOC[t]`. -/
def Dev.tntAlloc (d : Dev) (t : Nat) : Nat :=
  if !d.tenExists t then 0
  else
    let c := (d.coresOf t).length
    pack [(1, 0, 1), (c, 8, 5), (d.tokenCap t, 16, 6), (d.rhoOf t * c, 24, 6), ((d.progsOf t).length, 32, 9)]

/-- `GLB_TNT_QUOTA[t]`: the quotas in force, tenant 0's less those of the others (R622). -/
def Dev.quotaReg (d : Dev) (t : Nat) : Nat :=
  pack [(d.quota t 65536 Tenant.queues, 0, 17), (d.quota t 512 Tenant.blocks, 17, 10), (d.quota t 4096 Tenant.sessions, 27, 13)]

/-- Eight bytes of a mailbox area. -/
def chunk (m : Memory) (i : Nat) : Nat := ofBytes (Memory.readN 0 m (8 * i) 8)

/-- `MBX_STATUS` of function `f`. -/
def Dev.mbxStatus (d : Dev) (f : Nat) : Nat :=
  let m := d.mbox f
  pack [flagAt m.ready 0, flagAt m.busy 1, flagAt m.valid 2, flagAt m.async 3, flagAt m.ringRej 4, (d.defCount f, 8, 3),
    (m.queue.length, 16, 3)]

/-- Vector `v` of function `f`. -/
def Dev.vec (d : Dev) (f v : Nat) : Vec := SMap.get {} d.pcie.vecs (vecKey f v)

/-! ### Stoker and sync block (Table 25-4) -/

/-- `STK_STATUS`. -/
def Dev.stkStatus (d : Dev) : Nat :=
  let n := d.stk.jobs.length
  pack [(n, 0, 15), flagAt d.kiln.drain.isSome 16, flagAt (decide (16384 ≤ n)) 17]

/-- `STK_QINFO` as function `f` sees it (R795). -/
def Dev.qinfo (d : Dev) (f : Nat) : Nat :=
  let u := (SMap.get 0 d.stk.qsel f).toNat
  match d.queue u with
  | none => place 4 48 3
  | some q =>
    if f ≠ 0 && q.tenant ≠ f then place 4 48 3
    else pack [(q.head, 0, 16), (q.tail, 16, 16), (q.infl, 32, 11), (q.ovfMask.toNat, 43, 4), (d.qstate u q, 48, 3)]

/-- The highest-ranked READY job of tenant `t` waits for an outbound reservation. -/
def Dev.dispOut (d : Dev) (t : Nat) : Bool :=
  match (d.best t).bind d.job with
  | none => false
  | some j => match d.queue j.queue with
    | none => false
    | some q => match q.bind with
      | none => false
      | some b => decide (b.n ≤ (d.freeCores t).length) && j.hostSinks q.boundary.desc &&
        decide (outTotal < d.pcie.outRsv + 64 * d.outWait + 4160)

/-- Queues in QSTATE 1. -/
def Dev.cqWait (d : Dev) : Nat :=
  (d.stk.queues.filter (fun e => match e.2 with
    | some q => decide (d.qstate e.1 q = 1)
    | none => false)).length

/-- `STK_BPSTAT`. -/
def Dev.bpStat (d : Dev) : Nat :=
  pack [(cdiv d.pcie.outRsv 64, 0, 12), (d.outWait, 16, 15), (d.cqWait, 32, 17), flagAt ((List.range 128).any d.dispOut) 63]

/-- `SYN_ARM_CTL`. -/
def Arm.ctl (a : Arm) : Nat := pack [(a.ctr.toNat, 0, 17), (a.action.toNat, 24, 2), flagAt a.armed 31]
/-- `SYN_ARM_STAT`. -/
def Arm.stat (a : Arm) : Nat := pack [(a.fires.toNat, 0, 16), flagAt a.skip 16, flagAt a.relFull 17, flagAt a.invTgt 18]

/-! ### Core windows (Table 25-5) -/

/-- `COR_EVT`. -/
def CorEvt.reg (e : CorEvt) : Nat :=
  pack [flagAt e.budgOvr 0, flagAt e.emberLate 1, flagAt e.tokStall 2, flagAt e.fault 3, flagAt e.quench 4, (e.ovrPhase.toNat, 8, 6)]

/-- `COR_SPRES`. -/
def Core.spRes (c : Core) : Nat :=
  match c.tag with
  | some (t, p, n) => pack [(p.toNat, 0, 32), (n, 32, 5), (t, 40, 7), (1, 63, 1)]
  | none => 0

/-- Code of a core state (Table 15-1). -/
def CoreState.code : CoreState → Nat
  | .active => 0
  | .banked => 1
  | .maint => 2
  | .fenced => 3

/-- `COR_STATE`. -/
def Core.stateReg (c : Core) : Nat :=
  pack [(c.st.code, 0, 2), (c.alloc.getD 0, 8, 7), flagAt c.alloc.isSome 15, (c.cause.toNat, 16, 3), flagAt c.persist 19,
    flagAt c.testOk 20]

/-- The core is powered: neither BANKED nor FENCED. -/
def Core.powered (c : Core) : Bool := decide (c.st = .active) || decide (c.st = .maint)

/-! ### SLE, Motion I/O, ports (Tables 25-6, 25-7) -/

/-- `SLE_STAT`. -/
def Sle.stat (s : Sle) : Nat :=
  let st := match s.st with
    | .stopped => 0
    | .running => 1
    | .safe => 2
  pack [(st, 0, 2), flagAt s.miss 2, flagAt s.stale 3, flagAt s.safeEnt 4, (s.safeCause.toNat, 5, 2), flagAt s.reject 7, (s.consec, 8, 8),
    (s.missCause.toNat, 16, 3), flagAt s.overtaken 19]

/-- `SLE_TRAJ`. -/
def Sle.trajReg (s : Sle) : Nat :=
  pack [(s.p, 0, 8), flagAt s.next.isSome 8, flagAt s.load.isSome 9, flagAt s.half 10, (s.swaps.toNat, 16, 16), (s.traj.source.toNat, 32, 32)]

/-- `MIO_STAT`. -/
def Dev.mioStat (d : Dev) : Nat :=
  let m := d.mio
  pack [(bitsOf 8 d.sto, 0, 8), (m.limTrip.toNat, 8, 8), flagAt d.estop 16, flagAt m.wrIgn 17, (m.encErr.toNat, 24, 8), (m.chatter.toNat, 32, 25)]

/-- `MIO_HOME_STAT`. -/
def Home.stat (h : Home) : Nat :=
  let ph := match h.phase with
    | .idle => 0
    | .seek => 1
    | .backoff => 2
    | .latch => 3
    | .done => 4
  pack [(h.latchReg.toNat, 0, 32), (ph, 32, 3), flagAt h.reversed 35, flagAt h.active 36, (h.outcome.toNat, 37, 3)]

/-- `CAM_STAT`. -/
def Cam.stat (c : Cam) : Nat :=
  pack [flagAt c.active.enable 0, flagAt c.frame.isSome 1, flagAt c.pend.isSome 2, flagAt c.draining 3, flagAt c.drop 4, (c.lastCause.toNat, 8, 4)]

/-- `ETH_STAT`. -/
def Eth.stat (e : Eth) : Nat :=
  pack [flagAt e.link 0, (e.cfg.speed, 1, 2), flagAt e.cfg.fec 3, flagAt e.preempt 4, flagAt e.linkChg 5, (e.ptpState.toNat, 8, 3)]

/-! ### Memory, errors, debug, Bellows (Tables 25-8, 25-9) -/

/-- A record of `ERR_LOG`. -/
def ErrRec.reg (r : ErrRec) : Nat :=
  pack [(r.seq.toNat, 0, 32), (r.time.toNat, 32, 64), (r.cls, 96, 8), (r.source, 104, 8), (r.index, 112, 8), (r.tenant, 120, 8),
    (r.code, 128, 16), (r.queue, 144, 16), (r.tag.toNat, 160, 32), (r.info.toNat, 192, 64)]

/-- A trace entry. -/
def TraceEnt.reg (e : TraceEnt) : Nat := pack [(e.time.toNat, 0, 48), (e.agent, 48, 8), (e.event, 56, 8), (e.data.toNat, 64, 64)]

/-- `BLW_CORE[n]`. -/
def Core.blwReg (c : Core) : Nat :=
  pack [(c.tok.rho, 0, 2), (c.lease, 2, 2), (c.tok.claim, 4, 2), (c.demand, 6, 2), (c.tok.pendTok, 8, 2)]

/-- A word of a scratchpad of a core. -/
structure SpWord where
  core : Nat
  mem : Nat
  row : Nat
  off : Nat
  deriving DecidableEq, Repr

/-- The word that the eight bytes `i` of the narrow debug window show: WSP, ASP and PSP of each core follow one another (R94). The window
goes on beyond SC17, where the spec names no core: there is nothing there (log 135). -/
def narrowAt (i : Nat) : SpWord :=
  let o := 8 * i % 0xE0000
  let mem := if o < 0x80000 then 0 else if o < 0xC0000 then 1 else 2
  let a := o - (if mem = 0 then 0 else if mem = 1 then 0x80000 else 0xC0000)
  { core := 8 * i / 0xE0000, mem := mem, row := a / 512, off := a % 512 }

/-- The window shows a core there, and the core is powered (R93, R94). -/
def Dev.narrowOn (d : Dev) (i : Nat) : Bool := decide ((narrowAt i).core < 18) && (d.core (narrowAt i).core).powered

/-! ### The value of a register -/

/-- What register `r` reads as to function `f`. The registers whose read does more than that, `GLB_TIME`, `STK_VTIME` and
`SYN_CTR`, are read in RegOps.lean. -/
def Dev.regVal (d : Dev) (f : Nat) (r : RegName) : Nat :=
  match r with
  | .id => d.fuse.idcode
  | .cap => d.fuse.capReg
  | .devid => d.fuse.devid.toNat
  | .bootstat => d.glb.bootstat
  | .time => d.now
  | .timeAdj => d.glb.adj.toNat
  | .timeStep => 0
  | .timeCtl => d.glb.timeCtl
  | .strap => pack [(d.glb.bootMode.toNat, 0, 2), flagAt d.glb.refsel 2]
  | .rstCause => pack [(d.glb.cause.toNat, 0, 6), (d.glb.last.toNat, 8, 3)]
  | .rstCtl => 0
  | .bar4Base => place d.pcie.base 30 5
  | .pcieStat => pack [(d.pcie.speed.toNat, 0, 4), (d.pcie.width.toNat, 4, 4), flagAt d.pcie.dlup 8, flagAt d.pcie.dlchg 9]
  | .pcieCnt => pack [(d.pcie.discard.toNat, 0, 32), (d.pcie.rdErr.toNat, 32, 16), (d.pcie.inDrop.toNat, 48, 16)]
  | .tntAlloc t => d.tntAlloc t
  | .tntQuota t => d.quotaReg t
  | .tntBase0 t => (d.tenant t).base0
  | .tntSize0 t => if t = 0 then d.fwBase else (d.tenant t).size0
  | .tntBase1 t => (d.tenant t).base1
  | .tntSize1 t => (d.tenant t).size1
  | .mbxReq i => chunk (d.mbox f).req i
  | .mbxResp i => chunk (d.mbox f).resp i
  | .doorbell => 0
  | .mbxStatus => d.mbxStatus f
  | .mbxCtl => b2n (d.mbox f).ie
  | .pba i => bitsOf 64 (fun k => decide (64 * i + k < vectors f) && (d.vec f (64 * i + k)).pend)
  | .msixAddr v => (d.vec f v).addr.toNat
  | .msixData v => (d.vec f v).data.toNat
  | .msixCtl v => b2n (d.vec f v).masked
  | .stkStatus => d.stkStatus
  | .qsel => (SMap.get 0 d.stk.qsel f).toNat
  | .qinfo => d.qinfo f
  | .rejCnt => d.stk.rejCnt.toNat
  | .expCnt => d.stk.expCnt.toNat
  | .dbErr => d.stk.dbErr.toNat
  | .bpStat => d.bpStat
  | .vtime => d.now
  | .synCtr c => (d.ctrVal c).toNat
  | .synAdd _ => 0
  | .armThresh a => (d.arm a).thresh.toNat
  | .armCtl a => (d.arm a).ctl
  | .armStep a => (d.arm a).step.toNat
  | .armTarget a => (d.arm a).target.toNat
  | .armStat a => (d.arm a).stat
  | .synStatus => pack [flagAt d.syn.wrap 0, (d.freeBlocks, 16, 10)]
  | .synAccErr => d.syn.accErr.toNat
  | .synErrInfo => d.syn.errInfo.toNat
  | .isaLvl _ => 1
  | .evt n => (d.core n).evt.reg
  | .fault n => (d.core n).fault.toNat
  | .spGeom _ => 0x0988010002000400
  | .spErr n => (d.core n).sperr.toNat
  | .spRes n => (d.core n).spRes
  | .specCtl n => (d.core n).spec.ctl.toNat
  | .hazCtl n => (d.core n).haz.ctl.toNat
  | .hazInfo n => (d.core n).haz.info.toNat
  | .coreState n => (d.core n).stateReg
  | .sleStat => d.sle.stat
  | .sleCtl => b2n d.sle.ie
  | .missCnt => d.sle.missCnt.toNat
  | .sample => d.sle.k.toNat
  | .sleTraj => d.sle.trajReg
  | .mioStat => d.mioStat
  | .inLvl => bitsOf 25 (fun i => (d.inp i).lvl)
  | .outCfg => d.mio.outCfg
  | .encCfg c => (d.enc c).cfg
  | .encCnt c => pack [((d.enc c).count.toNat, 0, 32), ((d.vel c).toNat, 32, 32)]
  | .inCfg i => (d.inp i).cfg
  | .homeStat a => (d.home a).stat
  | .camStat p => (d.cam p).stat
  | .camCtl p => b2n (d.cam p).ie
  | .camCommit p => (d.cam p).commit.toNat
  | .deliv p => (d.cam p).deliv.toNat
  | .drops p => (d.cam p).drops.toNat
  | .pktCnt p => pack [((d.cam p).eccCorr.toNat, 0, 16), ((d.cam p).discard.toNat, 16, 16)]
  | .lastFs p => (d.cam p).lastFs.toNat
  | .ethStat p => (d.eth p).stat
  | .ethDrop p =>
    let e := d.eth p
    pack [(e.bad.toNat, 0, 16), (e.noSession.toNat, 16, 16), (e.lateEvict.toNat, 32, 16), (e.full.toNat, 48, 16)]
  | .pstCnt p =>
    let e := d.eth p
    pack [(e.accepted.toNat, 0, 32), (e.notices.toNat, 32, 16), (e.respLost.toNat, 48, 16)]
  | .ptpStat => pack [(d.net.offset.toNat, 0, 32), flagAt d.net.locked 32, flagAt d.net.gm 33, (d.net.anchors, 40, 8)]
  | .ptpOfs => d.net.ptpOfs.toNat
  | .memCfg => pack [(d.mem.density.toNat, 0, 2), flagAt d.mem.ecc 2, (d.mem.usable, 32, 20)]
  | .memStat => pack [(d.mem.trainFail.toNat, 0, 16), flagAt d.mem.hot 16, flagAt d.mem.press 17]
  | .eccCnt => pack [(d.mem.ce.toNat, 0, 32), (d.mem.ue.toNat, 32, 16)]
  | .errAddr => d.mem.errAddr.toNat
  | .portCnt p =>
    let c := SMap.get {} d.mem.ports p
    pack [(c.rd.toNat, 0, 32), (c.wr.toNat, 32, 32)]
  | .portExt p =>
    let c := SMap.get {} d.mem.ports p
    pack [(c.fill.toNat, 0, 16), (c.wb.toNat, 16, 16), (c.press.toNat, 32, 16), (c.hold.toNat, 48, 16)]
  | .cfgWarn => d.err.warn.toNat
  | .errStat => pack [(d.err.stat.toNat, 0, 7), flagAt (decide (d.err.unread = 256)) 7]
  | .errCtl => pack [(d.err.ie.toNat, 0, 7), flagAt d.err.logCe 8, flagAt d.err.hold 9]
  | .logPtr => pack [(d.err.head, 0, 8), (d.err.tail, 8, 8), (d.err.lost.toNat, 16, 16)]
  | .errFatal i => bits ((d.err.fatal.map ErrRec.reg).getD 0) (64 * i) 64
  | .errLog i => bits (((SMap.get none d.err.log (i / 4)).map ErrRec.reg).getD 0) (64 * (i % 4)) 64
  | .dbgStat => pack [flagAt d.dbg.on 0, (bitsOf 18 (fun n => (d.core n).dbg.halted), 2, 18)]
  | .dbgCtl => pack [flagAt d.dbg.haltFault 0, (d.dbg.rcore.toNat, 3, 5)]
  | .brk n => (SMap.get 0 d.dbg.brk n).toNat
  | .trcCtl => pack [flagAt d.dbg.trcEn 0, flagAt d.dbg.trcWrap 1, (d.dbg.evMask.toNat, 16, 13)]
  | .trcPtr => pack [(d.dbg.wptr, 0, 12), flagAt d.dbg.full 12, (d.dbg.drops.toNat, 16, 16)]
  | .trace i => bits (((SMap.get none d.dbg.trace (i / 2)).map TraceEnt.reg).getD 0) (64 * (i % 2)) 64
  | .pmcSel n => pack ((List.range 4).map (fun i => ((SMap.get 0 (d.core n).dbg.pmcSel i).toNat, 8 * i, 8)))
  | .pmc0 n => (SMap.get 0 (d.core n).dbg.pmc 0).toNat
  | .pmc1 n => (SMap.get 0 (d.core n).dbg.pmc 1).toNat
  | .pmc2 n => (SMap.get 0 (d.core n).dbg.pmc 2).toNat
  | .pmc3 n => (SMap.get 0 (d.core n).dbg.pmc 3).toNat
  | .blwPool => pack [(d.blw.size, 0, 6), (d.fuse.grade.pool, 8, 6), (d.blw.leaseCap, 16, 6)]
  | .blwRsv => pack [(d.reserved, 0, 6), (d.leased, 8, 6), (d.float, 16, 6), (d.inuse, 24, 6)]
  | .peak => d.blw.peak
  | .grants => d.blw.grants.toNat
  | .blwCore n => (d.core n).blwReg
  | .blwStall n => (d.core n).tok.stall.toNat
  | .narrow i =>
    let x := narrowAt i
    if d.narrowOn i then ofBytes ((d.core x.core).spRead x.mem x.row x.off 8) else 0

/-! ### What a read clears (R13, R883) -/

/-- The bits `lo` to `lo + n − 1` lie in the read. -/
def covers (en lo n : Nat) : Bool := bits en lo n == 2 ^ n - 1

/-- A field after a read that covers it where `b`. -/
def rc {w : Nat} (b : Bool) (v : BitVec w) : BitVec w := if b then 0 else v

/-- What a read of register `r` by any function clears; `en` masks the bits that the read returns. -/
def Dev.regClear (d : Dev) (en : Nat) (r : RegName) : Dev :=
  let c := covers en
  match r with
  | .pcieCnt =>
    let p := d.pcie
    { d with pcie := { p with discard := rc (c 0 32) p.discard, rdErr := rc (c 32 16) p.rdErr, inDrop := rc (c 48 16) p.inDrop } }
  | .rejCnt => { d with stk := { d.stk with rejCnt := 0 } }
  | .expCnt => { d with stk := { d.stk with expCnt := 0 } }
  | .dbErr => { d with stk := { d.stk with dbErr := 0 } }
  | .armStat a => d.updArm a (fun s => { s with fires := 0 })
  | .synAccErr => { d with syn := { d.syn with accErr := 0 } }
  | .synErrInfo => { d with syn := { d.syn with errInfo := d.syn.errInfo &&& 0x7FFFFFFF } }
  | .spErr n => if c 0 16 then d.updCore n (fun k => { k with sperr := k.sperr &&& 0xFFFFFFFFFFFF0000 }) else d
  | .hazInfo n => if c 48 8 then d.updCore n (fun k => { k with haz := { k.haz with info := k.haz.info &&& 0xFF00FFFFFFFFFFFF } }) else d
  | .missCnt => { d with sle := { d.sle with missCnt := 0 } }
  | .deliv p => d.updCam p (fun k => { k with deliv := 0 })
  | .drops p => d.updCam p (fun k => { k with drops := 0 })
  | .pktCnt p => d.updCam p (fun k => { k with eccCorr := 0, discard := 0 })
  | .ethDrop p => d.updEth p (fun e =>
      { e with bad := rc (c 0 16) e.bad, noSession := rc (c 16 16) e.noSession, lateEvict := rc (c 32 16) e.lateEvict, full := rc (c 48 16) e.full })
  | .pstCnt p => d.updEth p (fun e =>
      { e with accepted := rc (c 0 32) e.accepted, notices := rc (c 32 16) e.notices, respLost := rc (c 48 16) e.respLost })
  | .eccCnt => { d with mem := { d.mem with ce := rc (c 0 32) d.mem.ce, ue := rc (c 32 16) d.mem.ue } }
  | .portCnt p => { d with mem := { d.mem with ports := SMap.upd {} d.mem.ports p (fun k =>
      { k with rd := rc (c 0 32) k.rd, wr := rc (c 32 32) k.wr }) } }
  | .portExt p => { d with mem := { d.mem with ports := SMap.upd {} d.mem.ports p (fun k =>
      { k with fill := rc (c 0 16) k.fill, wb := rc (c 16 16) k.wb, press := rc (c 32 16) k.press, hold := rc (c 48 16) k.hold }) } }
  | .cfgWarn => if c 48 8 then { d with err := { d.err with warn := d.err.warn &&& 0xFF00FFFFFFFFFFFF } } else d
  | .logPtr => { d with err := { d.err with lost := 0 } }
  | .trcPtr => { d with dbg := { d.dbg with drops := 0 } }
  | .peak => { d with blw := { d.blw with restart := true } }
  | .grants => { d with blw := { d.blw with grants := 0 } }
  | .blwStall n => d.updCore n (fun k => { k with tok := { k.tok with stall := 0 } })
  | _ => d

end Sys2Proof.Machine
end

