-- ==== Sys2Proof/Machine/RegOps.lean ====
section
/-!
DEFINITION. Machine/RegOps.lean: accesses to BAR0: who reaches a register, access sizes, reads with their latches, writes (R11-R21, R92-R95,
R107, R275, R794, R816, R875-R885, R938).
-/
namespace Sys2Proof.Machine

/-! ### Who reaches a register (R631, R794, R876, R877) -/

/-- A requester: the function whose view it has, whether it is the Kiln. -/
structure Viewer where
  fn : Nat
  kiln : Bool
  deriving DecidableEq, Repr

/-- The view of an agent; DBGACC has the PF's. -/
def viewer : Agent → Viewer
  | .kiln => { fn := 0, kiln := true }
  | .fn f => { fn := f.val, kiln := false }
  | .jtag => { fn := 0, kiln := false }

/-- Source of a write under R20. -/
def Viewer.src (w : Viewer) : WarnSrc := if w.kiln then .kiln else .host w.fn

/-- Key of the latches of a requester: its function, 128 for the Kiln. -/
def Viewer.key (w : Viewer) : Nat := if w.kiln then 128 else w.fn

/-- A VF reaches the registers of its own function and tenant (Table 21-3). -/
def vfReach (f : Nat) : RegName → Bool
  | .tntAlloc t | .tntQuota t | .tntBase0 t | .tntSize0 t | .tntBase1 t | .tntSize1 t => t == f
  | .mbxReq _ | .mbxResp _ | .doorbell | .mbxStatus | .mbxCtl | .qsel | .qinfo | .vtime => true
  | .pba i => i == 0
  | .msixAddr v | .msixData v | .msixCtl v => decide (v < 64)
  | .synCtr _ | .synAdd _ | .armThresh _ | .armCtl _ | .armStep _ | .armTarget _ | .armStat _ => true
  | _ => false

/-- Registers of code D (Table 25-1). -/
def debugOnly : RegName → Bool
  | .hazCtl _ | .hazInfo _ | .dbgCtl | .brk _ | .narrow _ => true
  | _ => false

/-- Registers of a core window that are powered with the core (Table 25-5). -/
def Dev.unpowered (d : Dev) : RegName → Bool
  | .evt n | .spRes n | .specCtl n | .hazCtl n | .hazInfo n => !(d.core n).powered
  | _ => false

/-- The requester reaches the register. -/
def Dev.reaches (d : Dev) (w : Viewer) (r : RegName) : Bool :=
  if w.fn ≠ 0 then vfReach w.fn r else (!debugOnly r || d.dbg.on) && !d.unpowered r

/-- A counter window or an arm slot. -/
def RegName.syncWindow : RegName → Bool
  | .synCtr _ | .synAdd _ | .armThresh _ | .armCtl _ | .armStep _ | .armTarget _ | .armStat _ => true
  | _ => false

/-- The requester may write the register's fields, as far as they can be written (codes K and RW2). Table 6-1 gives the Kiln no ADD, and SET
and the clearing of slots only as a part of SYNC_ALLOC: its register writes to those windows are ignored (R247, log 116). -/
def Dev.mayWrite (d : Dev) (w : Viewer) (r : RegName) : Bool :=
  d.reaches w r && !(w.kiln && r.syncWindow) && (w.kiln || match r with
    | .timeAdj | .timeStep => decide (d.glb.src = 2)
    | .timeCtl | .blwPool => false
    | _ => true)

/-- Block of the arm slot that the register belongs to (R938), and the number recorded of a refusal. -/
def slotOf : RegName → Option Nat
  | .armThresh a | .armCtl a | .armStep a | .armTarget a | .armStat a => some a
  | _ => none

/-- A refused access to a sync block: counted. -/
def Dev.synRefuses (d : Dev) (w : Viewer) (r : RegName) : Option Nat :=
  match r with
  | .synCtr c => if d.blockOpen w.fn (c / 256) then none else some c
  | r => match slotOf r with
    | some a => if d.blockOpen w.fn (a / 16) then none else some a
    | none => none

/-! ### Reads -/

/-- Latch the high half of a time register for a requester. -/
def Dev.latchTime (d : Dev) (key : Nat) : Dev :=
  { d with glb := { d.glb with shadow := SMap.set 0 d.glb.shadow key (BitVec.extractLsb' 32 32 d.glb.time) } }
def Dev.latchVtime (d : Dev) (key : Nat) : Dev :=
  { d with glb := { d.glb with vshadow := SMap.set 0 d.glb.vshadow key (BitVec.extractLsb' 32 32 d.glb.time) } }
def Dev.latchCtr (d : Dev) (key c : Nat) : Dev :=
  { d with syn := { d.syn with shadow := SMap.set 0 d.syn.shadow key (BitVec.extractLsb' 32 32 (d.ctrVal c)) } }

/-- The bits that an access of `n` bits at bit `lo` covers. -/
def maskOf (lo n : Nat) : Nat := (2 ^ n - 1) <<< lo

/-- A read of `n` bits (32 or 64) at bit `lo` of a register that the requester reaches: value and effect. -/
def Dev.readIn (d : Dev) (w : Viewer) (r : RegName) (lo n : Nat) : Nat × Dev :=
  match d.synRefuses w r with
  | some x => (0, d.accErr w.fn x)
  | none =>
    let v := bits (d.regVal w.fn r) lo n
    match r with
    | .time => if n = 64 then (v, d) else if lo = 0 then (v, d.latchTime w.key) else ((SMap.get 0 d.glb.shadow w.key).toNat, d)
    | .vtime => if n = 64 then (v, d) else if lo = 0 then (v, d.latchVtime w.key) else ((SMap.get 0 d.glb.vshadow w.key).toNat, d)
    | .synCtr c => if n = 64 then (v, d) else if lo = 0 then (v, d.latchCtr w.key c) else ((SMap.get 0 d.syn.shadow w.key).toNat, d)
    | .narrow i =>
      let x := narrowAt i
      if d.narrowOn i then (let y := d.windowRead x.core x.mem x.row x.off; (bits y.1 lo n, y.2)) else (0, d)
    | r => (v, d.regClear (maskOf lo n) r)

/-- A 4-byte read at a 4-byte aligned offset. -/
def Dev.readWord (d : Dev) (w : Viewer) (off : Nat) : Nat × Dev :=
  match regAt off with
  | none => (0, d)
  | some (r, base, _) => if d.reaches w r then d.readIn w r (8 * (off - base)) 32 else (0, d)

/-- An aligned read of 8 bytes (`wide`) or of 4 (R879, R880). -/
def Dev.readAt (d : Dev) (w : Viewer) (off : Nat) (wide : Bool) : Nat × Dev :=
  if !wide then d.readWord w (off / 4 * 4)
  else
    let o := off / 8 * 8
    match regAt o with
    | some (r, _, 8) => if d.reaches w r then d.readIn w r 0 64 else (0, d)
    | _ =>
      let x := d.readWord w o
      let y := x.2.readWord w (o + 4)
      (x.1 + 2 ^ 32 * y.1, y.2)

/-! ### Writes -/

/-- A field of a W1C bit at place `i`. -/
def w1c (b : Bool) (v i : Nat) : Bool := b && !bit1 v i

/-- ACK, then RING (R149). -/
def Dev.doorbellReg (d : Dev) (f v : Nat) : Dev :=
  let d := if bit1 v 1 then d.mbxAck f else d
  if bit1 v 0 then d.mbxRing f else d

/-- TAIL of `ERR_LOGPTR` (R949). -/
def Dev.logTail (d : Dev) (t : Nat) : Dev :=
  { d with err := { d.err with tail := t % 256, unread := (d.err.head + 256 - t % 256) % 256 } }

/-- `BLW_POOL` (R20, R945). -/
def Dev.poolWrite (d : Dev) (v : Nat) : Dev :=
  let top := d.fuse.grade.pool
  let badS := decide (bits v 0 6 = 0) || decide (top < bits v 0 6)
  let size := if badS then top else bits v 0 6
  let badC := decide (size < bits v 16 6)
  let d := d.warnIf (badS || badC) .kiln 0xE00000
  { d with blw := { d.blw with size := size, leaseCap := if badC then size else bits v 16 6 } }

/-- `GLB_TIMECTL`, by the Kiln. -/
def Dev.timeCtlWrite (d : Dev) (v : Nat) : Dev :=
  let bad := decide (bits v 0 2 = 3)
  let d := (d.warnIf bad .kiln 0x118).setTimeSrc (if bad then 0 else bits v 0 2)
  let g := d.glb
  { d with glb := { g with backstep := bit1 v 2, stepRej := w1c g.stepRej v 8, adjClamp := w1c g.adjClamp v 9 } }

/-- `DBG_CTL`: the fields, then RESUME, then EXIT. -/
def Dev.dbgCtlWrite (d : Dev) (v : Nat) : Dev :=
  let d := { d with dbg := { d.dbg with haltFault := bit1 v 0, rcore := BitVec.ofNat 5 (bits v 3 5) } }
  let d := if bit1 v 1 then d.dbgResume (bits v 3 5) else d
  if bit1 v 2 then d.dbgExit else d

/-- `DBG_PMCSEL[n]`; a reserved selection counts as 0 (R20). -/
def Dev.pmcSelWrite (d : Dev) (src : WarnSrc) (off n v : Nat) : Dev :=
  let bad (i : Nat) : Bool := decide (0x0D < bits v (8 * i) 8)
  let d := d.warnIf ((List.range 4).any bad) src off
  d.updCore n (fun c => { c with dbg := { c.dbg with
    pmcSel := tabulate 0 4 (fun i => if bad i then 0 else BitVec.ofNat 32 (bits v (8 * i) 8)) } })

/-- `COR_HAZCTL` (R20). -/
def Dev.hazCtlWrite (d : Dev) (src : WarnSrc) (off n v : Nat) : Dev :=
  let bad := decide (bits v 0 2 = 3)
  (d.warnIf bad src off).updCore n (fun c => { c with haz := { c.haz with ctl := if bad then 0 else BitVec.ofNat 2 (bits v 0 2) } })

/-- Change an arm slot that is not armed (R265). -/
def Dev.armSet (d : Dev) (a : Nat) (f : Arm → Arm) : Dev := if (d.arm a).armed then d else d.updArm a f

/-- A write to a register that the requester may write: `v` at its place in the register, under the mask `en`; `off` is the offset of the
access. What `en` leaves out keeps its value; fields that cannot be written keep theirs. -/
def Dev.regWrite (d : Dev) (w : Viewer) (off v en : Nat) (r : RegName) : Dev :=
  let f := w.fn
  let n := merged (d.regVal f r) v en
  let b := v &&& en
  match r with
  | .timeAdj => d.setAdj (BitVec.ofNat 32 b)
  | .timeStep =>
    if en = maskOf 0 64 then d.stepWrite w.kiln .full (BitVec.ofNat 64 b)
    else if bit1 en 0 then d.stepWrite w.kiln .low (BitVec.ofNat 64 b)
    else d.stepWrite w.kiln .high (BitVec.ofNat 64 (b >>> 32))
  | .timeCtl => d.timeCtlWrite b
  | .rstCause => { d with glb := { d.glb with cause := d.glb.cause &&& ~~~(BitVec.ofNat 6 b) } }
  | .rstCtl => d.rstCtl b
  | .bar4Base => { d with pcie := { d.pcie with bar4 := BitVec.ofNat 5 (bits n 30 5) } }
  | .pcieStat => { d with pcie := { d.pcie with dlchg := w1c d.pcie.dlchg b 9 } }
  | .mbxReq i => d.updMbox f (fun m => if m.busy then m else { m with req := Memory.writeL 0 m.req (8 * i) (toBytes n 8) })
  | .doorbell => d.doorbellReg f b
  | .mbxStatus => d.updMbox f (fun m => { m with ringRej := w1c m.ringRej b 4 })
  | .mbxCtl => d.updMbox f (fun m => { m with ie := bit1 b 0 })
  | .msixAddr k => d.updVec f k (fun e => { e with addr := BitVec.ofNat 64 n })
  | .msixData k => d.updVec f k (fun e => { e with data := BitVec.ofNat 32 n })
  | .msixCtl k => if bit1 b 0 then d.updVec f k (fun e => { e with masked := true }) else d.unmask f k
  | .qsel => { d with stk := { d.stk with qsel := SMap.set 0 d.stk.qsel f (BitVec.ofNat 16 (bits b 0 16)) } }
  | .synCtr c => d.synCtrWrite f c (en ≠ maskOf 0 64) (BitVec.ofNat 64 b)
  | .synAdd c => d.synAddWrite f c (BitVec.ofNat 32 b)
  | .armThresh a => d.armSet a (fun s => { s with thresh := BitVec.ofNat 64 n })
  | .armCtl a => d.armCtl w.src f a (BitVec.ofNat 32 b)
  | .armStep a => d.armSet a (fun s => { s with step := BitVec.ofNat 32 b })
  | .armTarget a => d.armSet a (fun s => { s with target := BitVec.ofNat 16 (bits b 0 16) })
  | .armStat a => d.updArm a (fun s => { s with skip := w1c s.skip b 16, relFull := w1c s.relFull b 17, invTgt := w1c s.invTgt b 18 })
  | .synStatus => { d with syn := { d.syn with wrap := w1c d.syn.wrap b 0 } }
  | .evt n => d.updCore n (fun c => { c with evt := { c.evt with
      budgOvr := w1c c.evt.budgOvr b 0, emberLate := w1c c.evt.emberLate b 1, tokStall := w1c c.evt.tokStall b 2,
      fault := w1c c.evt.fault b 3, quench := w1c c.evt.quench b 4 } })
  | .fault n => if bit1 b 63 then d.updCore n (fun c => { c with fault := c.fault &&& 0x7FFFFFFFFFFFFFFF }) else d
  | .spErr n => if bit1 b 63 then d.updCore n (fun c => { c with sperr := c.sperr &&& 0x7FFFFFFFFFFFFFFF }) else d
  | .specCtl n => d.updCore n (fun c => { c with spec := { c.spec with ctl := BitVec.ofNat 2 (bits b 0 2) } })
  | .hazCtl n => d.hazCtlWrite w.src off n b
  | .hazInfo n => if bit1 b 63 then d.updCore n (fun c => { c with haz := { c.haz with info := c.haz.info &&& 0x7FFFFFFFFFFFFFFF } }) else d
  | .sleStat =>
    let s := d.sle
    { d with sle := { s with
      miss := w1c s.miss b 2, safeEnt := w1c s.safeEnt b 4, reject := w1c s.reject b 7, overtaken := w1c s.overtaken b 19 } }
  | .sleCtl => { d with sle := { d.sle with ie := bit1 b 0 } }
  | .mioStat => d.putMioStat b
  | .outCfg => d.putOutCfg w.src off b en
  | .encCfg c => d.putEncCfg w.src off c b en
  | .inCfg i => d.putInCfg w.src off i b en
  | .camStat p => d.updCam p (fun c => { c with drop := w1c c.drop b 4 })
  | .camCtl p => d.updCam p (fun c => { c with ie := bit1 b 0 })
  | .ethStat p => d.updEth p (fun e => { e with linkChg := w1c e.linkChg b 5 })
  | .memStat => { d with mem := { d.mem with press := w1c d.mem.press b 17 } }
  | .errAddr => if bit1 b 63 then { d with mem := { d.mem with errAddr := d.mem.errAddr &&& 0x7FFFFFFFFFFFFFFF } } else d
  | .cfgWarn => if bit1 b 63 then { d with err := { d.err with warn := d.err.warn &&& 0x7FFFFFFFFFFFFFFF } } else d
  | .errStat => { d with err := { d.err with stat := d.err.stat &&& ~~~(BitVec.ofNat 7 b) } }
  | .errCtl => { d with err := { d.err with ie := BitVec.ofNat 7 b, logCe := bit1 b 8, hold := bit1 b 9 } }
  | .logPtr => d.logTail (bits b 8 8)
  | .dbgCtl => d.dbgCtlWrite b
  | .brk n => { d with dbg := { d.dbg with brk := SMap.set 0 d.dbg.brk n (BitVec.ofNat 32 (place b 0 24 + place (bits b 31 1) 31 1)) } }
  | .trcCtl => { d with dbg := { d.dbg with trcEn := bit1 b 0, trcWrap := bit1 b 1, evMask := BitVec.ofNat 13 (bits b 16 13) } }
  | .trcPtr => { d with dbg := { d.dbg with full := w1c d.dbg.full b 12 } }
  | .pmcSel n => d.pmcSelWrite w.src off n b
  | .pmc0 k => d.updCore k (fun c => { c with dbg := { c.dbg with pmc := SMap.set 0 c.dbg.pmc 0 (BitVec.ofNat 64 (bits n 0 48)) } })
  | .pmc1 k => d.updCore k (fun c => { c with dbg := { c.dbg with pmc := SMap.set 0 c.dbg.pmc 1 (BitVec.ofNat 64 (bits n 0 48)) } })
  | .pmc2 k => d.updCore k (fun c => { c with dbg := { c.dbg with pmc := SMap.set 0 c.dbg.pmc 2 (BitVec.ofNat 64 (bits n 0 48)) } })
  | .pmc3 k => d.updCore k (fun c => { c with dbg := { c.dbg with pmc := SMap.set 0 c.dbg.pmc 3 (BitVec.ofNat 64 (bits n 0 48)) } })
  | .blwPool => d.poolWrite b
  | .narrow i =>
    let x := narrowAt i
    let lo := if bits en 0 32 = 0 then 4 else 0
    let len := if en = 2 ^ 64 - 1 then 8 else 4
    if d.narrowOn i then d.windowWrite x.core x.mem x.row (x.off + lo) (((toBytes n 8).drop lo).take len) else d
  | _ => d

/-- A write of `n` bits at bit `lo` of a register: refused at the sync block (R250, R938), or made. -/
def Dev.writeIn (d : Dev) (w : Viewer) (off v lo n : Nat) (r : RegName) : Dev :=
  if !d.mayWrite w r then d
  else match slotOf r, d.synRefuses w r with
    | some _, some x => d.accErr w.fn x
    | _, _ => d.regWrite w off ((v % 2 ^ n) <<< lo) (maskOf lo n) r

/-- A 4-byte write at a 4-byte aligned offset. -/
def Dev.writeWord (d : Dev) (w : Viewer) (off v : Nat) : Dev :=
  match regAt off with
  | none => d
  | some (r, base, _) => d.writeIn w off v (8 * (off - base)) 32 r

/-- A write of 8 bytes (`wide`) or of 4; one that is not aligned is ignored (R879, R881). -/
def Dev.writeAt (d : Dev) (w : Viewer) (off : Nat) (wide : Bool) (v : Nat) : Dev :=
  if !wide then (if off % 4 = 0 then d.writeWord w off v else d)
  else if off % 8 ≠ 0 then d
  else match regAt off with
    | some (r, _, 8) => d.writeIn w off v 0 64 r
    | _ => (d.writeWord w off (v % 2 ^ 32)).writeWord w (off + 4) (v / 2 ^ 32)

/-! ### Accesses by agents -/

/-- DBGACC acts only in debug mode (R871). -/
def Dev.tapActs (d : Dev) (a : Agent) : Bool := decide (a ≠ .jtag) || d.dbg.on

/-- A read that function `f` has sent is answered. -/
def Dev.answerRead (d : Dev) (f off : Nat) (wide : Bool) : Dev :=
  let x := d.readAt { fn := f, kiln := false } off wide
  x.2.send (.read f x.1)

/-- Host reads that wait for no operation any more are answered, in order (R939); a read stands behind the earlier ones of its function. -/
def Dev.answerReads (d : Dev) : Dev :=
  d.syn.reads.foldl (fun d r =>
    if d.synBehind r.fn r.upto || d.syn.reads.any (fun x => x.fn == r.fn) then
      { d with syn := { d.syn with reads := d.syn.reads ++ [r] } }
    else d.answerRead r.fn r.off r.wide) { d with syn := { d.syn with reads := [] } }

/-- A read by an agent; its answer goes to the agent. A function's read joins the reads that wait for the operations on counters which it sent
before, and is answered at once where there is none (R939). In place of DBGACC outside debug mode the TAP has its bypass register. -/
def Dev.agentRead (d : Dev) (a : Agent) (off : Nat) (wide : Bool) : Dev :=
  if !d.tapActs a then d.bypass 0
  else
    let x := d.readAt (viewer a) off wide
    match a with
    | .jtag => ({ x.2 with pins := { x.2.pins with tap := .dbgacc, scanOut := none } }).send (.tdo x.1 (if wide then 64 else 32))
    | .kiln => x.2.send (.read 128 x.1)
    | .fn f =>
      ({ d with syn := { d.syn with
          reads := d.syn.reads ++ [{ fn := f.val, off := off, wide := wide, upto := d.syn.nextId }] } } : Dev).answerReads

/-- A write by an agent. -/
def Dev.agentWrite (d : Dev) (a : Agent) (off : Nat) (wide : Bool) (v : Nat) : Dev :=
  if !d.tapActs a then d.bypass 0
  else
    let d := match a with
      | .jtag => { d with pins := { d.pins with tap := .dbgacc, scanOut := none } }
      | _ => d
    (d.writeAt (viewer a) off wide v).answerReads

/-- DBGACC (R871). -/
def Dev.dbgacc (d : Dev) (r : DbgAcc) : Dev :=
  match r with
  | .readReg off wide => d.agentRead .jtag off.toNat wide
  | .writeReg off wide v => d.agentWrite .jtag off.toNat wide v.toNat
  | r =>
    if !d.dbg.on then d.bypass 0
    else
      let d := { d with pins := { d.pins with tap := .dbgacc, scanOut := none } }
      match r with
      | .readX n i => d.dbgRead n.val 64 (fun c => (c.getX i.toNat).toNat)
      | .readF n i => d.dbgRead n.val 32 (fun c => (c.getF i.toNat).toNat)
      | .readP n i => d.dbgRead n.val 1 (fun c => b2n (c.getP i.toNat))
      | .readV n i l => d.dbgRead n.val 32 (fun c => (c.getL i.toNat l.toNat).toNat)
      | _ => d

/-- A write by the Kiln or by the PF. -/
def Dev.hostWriteReg (d : Dev) (kiln : Bool) (off : Nat) (wide : Bool) (v : Nat) : Dev :=
  d.writeAt { fn := 0, kiln := kiln } off wide v

/-- A write of `GLB_TIMESTEP` in one part (R109). -/
def Dev.timestepWrite (d : Dev) (kiln : Bool) (part : Part) (v : W64) : Dev :=
  match part with
  | .full => d.hostWriteReg kiln 0x110 true v.toNat
  | .low => d.hostWriteReg kiln 0x110 false (v.toNat % 2 ^ 32)
  | .high => d.hostWriteReg kiln 0x114 false (v.toNat % 2 ^ 32)

end Sys2Proof.Machine
end

