-- ==== Sys2Proof/Machine/Debug.lean ====
section
/-!
DEFINITION. Machine/Debug.lean: the meanings of halts and of what comes through the TAP and the SMBus (24, 26).
-/
namespace Sys2Proof.Machine

/-- BREAKPOINT_HALT (R866): A committed instruction at an enabled breakpoint halts its set. -/
def execBreakpointHalt (n : CoreN) (s : State) : Host.Outcome State Fault Refusal :=
  s.run (fun d => d.breakHalt n.val)

/-- DBG_RESUME (R867): RESUME completes a fault halt or resumes a breakpoint halt. -/
def execDbgResume (n : CoreN) (s : State) : Host.Outcome State Fault Refusal :=
  s.run (fun d => d.dbgResume n.val)

/-- DBG_EXIT (R868): EXIT leaves debug mode and resumes halted sets. -/
def execDbgExit (s : State) : Host.Outcome State Fault Refusal :=
  s.run (fun d => d.dbgExit)

/-- BYPASS (R869): JTAG BYPASS instruction. -/
def execBypass (_code : BitVec 6) (tdi : BitVec 64) (s : State) : Host.Outcome State Fault Refusal :=
  s.run (fun d => d.bypass tdi)

/-- IDCODE (R869): JTAG IDCODE shifts out the revision's IDCODE. -/
def execIdcode (s : State) : Host.Outcome State Fault Refusal :=
  s.run (fun d => d.idcode)

/-- SAMPLE_PRELOAD (R869): JTAG SAMPLE/PRELOAD boundary-scan instruction. -/
def execSamplePreload (scan : BitVec 64) (s : State) : Host.Outcome State Fault Refusal :=
  s.run (fun d => d.scanShift .sample none scan)

/-- EXTEST (R870): JTAG EXTEST, active only in reset or debug mode. -/
def execExtest (scan : BitVec 64) (s : State) : Host.Outcome State Fault Refusal :=
  s.run (fun d => d.extest scan)

/-- CLAMP (R870): JTAG CLAMP, active only in reset or debug mode. -/
def execClamp (tdi : BitVec 64) (s : State) : Host.Outcome State Fault Refusal :=
  s.run (fun d => d.driveBypass .clamp tdi)

/-- HIGHZ (R870): JTAG HIGHZ, active only in reset or debug mode. -/
def execHighz (tdi : BitVec 64) (s : State) : Host.Outcome State Fault Refusal :=
  s.run (fun d => d.driveBypass .highz tdi)

/-- DBGACC (R871): JTAG register access, only in debug mode. -/
def execDbgacc (r : DbgAcc) (s : State) : Host.Outcome State Fault Refusal :=
  s.run (fun d => d.dbgacc r)

/-- TAP_RESET (R920): TRST_N low resets the JTAG TAP asynchronously. -/
def execTapReset (s : State) : Host.Outcome State Fault Refusal :=
  s.run (fun d => d.tapReset)

/-- READ_TEMPERATURE_1 (R918): SMBus read of the hottest sensor temperature. -/
def execReadTemperature1 (s : State) : Host.Outcome State Fault Refusal :=
  s.run (fun d => d.smbus (toBytes (linear11 d.pins.tj) 2))

/-- MFR_MODEL (R918): SMBus block read of the part number. -/
def execMfrModel (s : State) : Host.Outcome State Fault Refusal :=
  s.run (fun d => d.smbus (smbBlock (ascii d.fuse.partNumber)))

/-- MFR_SERIAL (R918): SMBus block read of the device identifier. -/
def execMfrSerial (s : State) : Host.Outcome State Fault Refusal :=
  s.run (fun d => d.smbus (smbBlock (toBytes d.fuse.devid.toNat 8)))

end Sys2Proof.Machine
end

