-- ==== Sys2Proof/Machine/FwOps.lean ====
section
/-!
DEFINITION. Machine/FwOps.lean: mailbox commands of the firmware update, the configuration store and debug unlock; the end of a deferred
command (03, 04, 24).
-/
namespace Sys2Proof.Machine

/-! ### Firmware update (R126, R188-R196) -/

/-- FW_STAGE: the request is accepted; the image is read and validated later. -/
def Dev.fwStageCmd (r : Req) (d : Dev) : Service :=
  Service.of { size := 16, reserved := [(12, 4)] } { denied := d.barred r, busy := d.glb.trial }
    (.defer (.fwStage (r.get 0 8) (r.get 8 4)) id)

/-- What FW_STAGE answers of an image. -/
def Image.payload (i : Image) (slot : Nat) : List Byte :=
  [BitVec.ofNat 8 slot, 0, 0, 0] ++ toBytes i.build.toNat 4 ++ toBytes i.svn.toNat 4 ++ toBytes i.abiMinor.toNat 2 ++ [0, 0]

/-- The image of FW_STAGE has been read, from device DRAM or as `host` gave it: no byte where the host did not answer. `ok`: the flash took the
write and read back as written; else the slot is left invalid (R188). -/
def Dev.stageFinish (d : Dev) (a n : Nat) (host : List Byte) (ok : Bool) : (Nat × List Byte) × Dev :=
  let inH := inHost a n
  let readable := if inH then (!host.isEmpty || n == 0) && d.hostReads 0 false else d.inReach 0 a n && !d.poisoned a n && decide (d.kiln.fw = .fw)
  let bs := if inH then fitTo n host else d.peek a n
  let d := if inH then d.hostRead 0 a n else if readable then d.countRead a n else d
  let valid := d.fuse.imageValid bs
  let stage (d : Dev) (o : Option Image) : Dev := { d with kiln := { d.kiln with staged := o } }
  if d.kiln.fw = .rom then
    if readable && valid then ((stOk, (imageOf bs).payload 0xFF), stage d (some (imageOf bs))) else ((stFault, []), stage d none)
  else if !readable then ((stFault, []), d)
  else
    let slot := !d.glb.slot
    if ok && valid && decide (n ≤ slotSize) then
      ((stOk, (imageOf bs).payload (b2n slot)), stage (d.flashProgram (slotBase slot) slotSize bs) (some (imageOf bs)))
    else ((stFault, []), stage (d.flashProgram (slotBase slot) slotSize []) none)

/-- Some function has a deferred command outstanding. -/
def Dev.anyDeferred (d : Dev) : Bool := !d.kiln.deferred.isEmpty || d.mbx.any (fun e => !e.2.queue.isEmpty)

/-- FW_ACTIVATE. -/
def Dev.fwActivateCmd (r : Req) (d : Dev) : Service :=
  let warm := bit1 (r.get 0 1) 0
  let rom := decide (d.kiln.fw = .rom)
  Service.of { size := 4, reserved := [(1, 3)] }
    { denied := d.barred r, bad := [(0, decide (1 < r.get 0 1) || d.kiln.staged.isNone || (rom && warm))], busy := d.anyDeferred }
    (.after fun d =>
      if rom then
        let d := d.updMbox 0 (fun m => { m with ready := false })
        { d with kiln := { d.kiln with fw := .none, next := .fw, img := d.kiln.staged.getD {}, staged := none, sram := true } }
      else
        let d := d.setBootHeader (!d.glb.slot) true
        if warm then d.warmReset .swrst else d.kilnRestart)

/-- FW_COMMIT; `store` says whether the flash takes the boot header. Where no image is on trial it answers INVALID, for the running firmware as
R126 says it for the boot ROM (log 139). -/
def Dev.fwCommitCmd (store : Bool) (r : Req) (d : Dev) : Service :=
  let trial := decide (d.kiln.fw = .fw) && d.glb.trial
  Service.of { size := 4, reserved := [(1, 3)] } { denied := d.barred r, bad := [(0, decide (1 < r.get 0 1) || !trial)] }
    (.now fun d =>
      if !store then (stFault, [], d.flashProgram 0 65536 [])
      else
        let d := d.setBootHeader d.glb.slot false
        let svn := if bit1 (r.get 0 1) 0 then BitVec.ofNat 32 (max d.fuse.svn.toNat d.kiln.img.svn.toNat) else d.fuse.svn
        (stOk, toBytes svn.toNat 4, { d with fuse := { d.fuse with svn := svn }, glb := { d.glb with trial := false } }))

/-- FW_ROLLBACK; `store` says whether the flash takes the write. The header of a staged image is erased with the 64 KiB block that holds it
(log 142). -/
def Dev.fwRollbackCmd (store : Bool) (r : Req) (d : Dev) : Service :=
  let fw := decide (d.kiln.fw = .fw)
  let trial := fw && d.glb.trial
  let staged := fw && d.kiln.staged.isSome
  Service.of { size := 0 } { denied := d.barred r, bad := [(0, !trial && !staged)] }
    (if !store then .now fun d => (stFault, [], if trial then d.flashProgram 0 65536 [] else d)
     else if trial then .after fun d => (d.setBootHeader (!d.glb.slot) false).kilnRestart
     else .now fun d =>
      let d := d.flashErase (slotBase (!d.glb.slot)) 65536
      (stOk, [], { d with kiln := { d.kiln with staged := none } }))

/-! ### The configuration store (R177-R179) -/

/-- Record types that only firmware writes. -/
def fwTypes : List Nat := [0x0010, 0x0011, 0x0020, 0x0030]

/-- CFGSTORE_WRITE: BUSY while another one is deferred (log 140). -/
def Dev.cfgWriteCmd (r : Req) (d : Dev) : Service :=
  let t := r.get 0 2
  let n := r.get 4 2
  let del := bit1 (r.get 2 2) 0
  Service.of { size := 8 + n, reserved := [(6, 2)] }
    { denied := d.barred r || fwTypes.contains t
      bad := [(0, decide (t < 0x8000) && t != 1 && !fwTypes.contains t), (2, decide (1 < r.get 2 2)), (4, decide (232 < n))]
      busy := d.kiln.deferred.any (fun x => match x.op with
        | .cfgWrite _ _ _ => true
        | _ => false) }
    (.defer (.cfgWrite t del ((r.pay.drop 8).take n)) id)

/-- The bank is written. -/
def Dev.cfgFinish (d : Dev) (t : Nat) (del : Bool) (data : List Byte) (ok : Bool) : (Nat × List Byte) × Dev :=
  let x := d.storeRecord t (if del then none else some data) ok
  if x.1 then ((stOk, toBytes x.2.glb.cfgSeq.toNat 4 ++ [BitVec.ofNat 8 x.2.glb.cfgBank.toNat, 0, 0, 0]), x.2) else ((stFault, []), x.2)

/-- The bank in use: sequence, BANK, records; none where it can no longer be read. -/
def Dev.bankInUse (d : Dev) : Option (Nat × Nat × List (Nat × List Byte)) :=
  let b := d.glb.cfgBank.toNat
  if 2 ≤ b then some (0, 0xFF, [])
  else (d.bank (b == 1)).map (fun x => (x.1.toNat, b, parseRecords 16384 x.2))

/-- CFGSTORE_READ. -/
def Dev.cfgReadCmd (r : Req) (d : Dev) : Service :=
  Service.of { size := 8, reserved := [(2, 2)] } { denied := d.barred r }
    (.now fun d =>
      let t := if d.glb.cfgBank.toNat < 2 then d.spiRead false (d.bankExtents (d.glb.cfgBank == 1)) else d
      match d.bankInUse with
      | none => (stFault, [], t)
      | some (seq, bank, rs) =>
        let o := recordData rs (r.get 0 2)
        let b := o.getD []
        (stOk, toBytes seq 4 ++ [BitVec.ofNat 8 bank, BitVec.ofNat 8 (b2n o.isSome), 0, 0] ++ toBytes b.length 4 ++ [0, 0, 0, 0] ++
          (b.drop (r.get 4 4)).take 224, t))

/-! ### Debug unlock (R180, R863) -/

/-- The answer to a nonce verifies under the debug key in OTP (R180, R863). -/
def Fuses.answerVerifies (f : Fuses) (nonce ans : List Byte) : Bool := ecdsaVerifies (toBytesBE f.debugKey.toNat 97) nonce ans

/-- Stage 0: a new nonce. -/
def Dev.unlockChallenge (nonce : BitVec 256) (r : Req) (d : Dev) : Service :=
  let bs := toBytes nonce.toNat 32
  Service.of { size := 4, reserved := [(1, 3)] } { denied := d.barred r || d.fuse.debugDis }
    (.now fun d => (stOk, bs, { d with kiln := { d.kiln with nonce := some bs } }))

/-- Stage 1: the answer to the nonce, which is valid for one answer only. An answer that is refused INVALID has no effect (R23): it leaves
the nonce. -/
def Dev.unlockAnswer (r : Req) (d : Dev) : Service :=
  let ans := (r.pay.drop 4).take 96
  let good := match d.kiln.nonce with
    | some n => d.fuse.answerVerifies n ans
    | none => false
  let fm : Form := { size := 100, reserved := [(1, 3)] }
  let barred := d.barred r || d.fuse.debugDis
  let k : Check := { denied := barred || !good }
  let used := !barred && !r.dry && decide ((r.verdict fm k).map Prod.fst ≠ some stInvalid)
  { form := fm
    check := k
    act := .now fun d => (stOk, [], d.enterDebug)
    pre := fun d => if used then { d with kiln := { d.kiln with nonce := none } } else d }

/-! ### The end of a deferred command (R159, R162) -/

/-- What ends with DEFERRED_COMMAND_FINISH: status, payload and the device; none where another event ends the operation, or not yet. -/
def Dev.finishNow (d : Dev) (o : DefOp) (data : List Byte) (ok : Bool) : Option ((Nat × List Byte) × Dev) :=
  match o with
  | .loadProgram a n t => some (d.loadFinish a n t data ok)
  | .fwStage a n => some (d.stageFinish a n data ok)
  | .cfgWrite t del b => some (d.cfgFinish t del b ok)
  | .tenantDestroy t => if d.tenantBusy t then none else some ((stOk, []), d.tenantClear t ok)
  | _ => none

/-- The oldest deferred command of function `f` with an opcode and SEQ whose operation can finish does so, and its asynchronous response
is queued. -/
def Dev.deferredFinish (d : Dev) (f opcode : Nat) (seq : W32) (data : List Byte) (ok : Bool) : Dev :=
  if d.kiln.fw = .none then d
  else
    let p (x : Deferred) : Bool := x.fn == f && x.opcode == opcode && x.seq == seq && (d.finishNow x.op data ok).isSome
    match d.kiln.deferred.find? p with
    | none => d
    | some x => match d.finishNow x.op data ok with
      | none => d
      | some (r, t) => ({ t with kiln := { t.kiln with deferred := removeFirst p t.kiln.deferred } } : Dev).queueAsync x r

/-! ### Readings of the firmware -/

/-- DRAM temperature as the firmware reads it: refresh runs at twice the rate above 85 °C (R830). -/
def Dev.dramHot (d : Dev) (hot : Bool) : Dev := { d with mem := { d.mem with hot := hot } }

end Sys2Proof.Machine
end

