-- ==== Sys2Proof/Machine/DeviceMemory.lean ====
section
/-!
DEFINITION. Machine/DeviceMemory.lean: the meanings of what the memory controller does and finds (22).
-/
namespace Sys2Proof.Machine

/-- DRAM_REFRESH (R830): A channel refreshes one bank. -/
def execDramRefresh (ch : Fin 16) (s : State) : Host.Outcome State Fault Refusal :=
  s.run (fun d => d.refreshBank ch.val)

/-- PATROL_SCRUB (R827): The patrol scrub reads data flits in maintenance slots. -/
def execPatrolScrub (r : ScrubResult) (s : State) : Host.Outcome State Fault Refusal :=
  s.run (fun d => d.scrub r)

/-- DRAM_READ_UE (R826): A DRAM read finding an uncorrectable error delivers the flit poisoned. One that finds a correctable error, for which
the table has no row of its own, comes with this one (log 169). -/
def execDramReadUe (e : FlitError) (s : State) : Host.Outcome State Fault Refusal :=
  s.run (fun d => d.dramError e.flit.toNat e.corrected)

/-- PORT_SLOT_HOLD (R833): A full port write buffer holds the port's slots for the next frame. -/
def execPortSlotHold (port : Fin 8) (s : State) : Host.Outcome State Fault Refusal :=
  s.run (fun d => d.holdFrame port.val)

/-- DRAM_TEMPERATURE_CHANGE (R830): The DRAM reports a temperature crossing 85 °C, changing MEM_STAT.HOT and the refresh interval. -/
def execDramTemperatureChange (hot : Bool) (s : State) : Host.Outcome State Fault Refusal :=
  s.run (fun d => d.dramHot hot)

end Sys2Proof.Machine
end

