-- ==== Sys2Proof/WellFormed.lean ====
section
/-!
DEFINITION. WellFormed.lean: which commands can be sent. Register fields and numbers carry their range in their type; the
commands that carry a list or a length have the checks below, and every other command is well-formed.
-/
namespace Sys2Proof

/-- A PCIe memory request carries 1 to 4,096 bytes that do not cross a 4 KiB boundary. -/
def wfRequest (off len : Nat) : Bool := decide (1 ≤ len) && decide (off % 4096 + len ≤ 4096)

/-- A command that can be sent. -/
def Instr.wf : Instr → Bool
  | .bar4Write _ off data _ => wfRequest off.toNat data.length
  | .bar4Read _ off len => wfRequest off.toNat len.val.toNat
  | _ => true

end Sys2Proof
end

