-- ==== Sys2Proof/Machine/Ethernet.lean ====
section
/-!
DEFINITION. Machine/Ethernet.lean: the meanings of the Ethernet ports and of PST sessions (20).
-/
namespace Sys2Proof.Machine

/-- ETH_CONFIG_PORT (R782): Shadows an Ethernet port block. -/
def execEthConfigPort (f : Fn) (s : State) : Host.Outcome State Fault Refusal :=
  s.run (fun d => d.mail f.val 0x0078 (fun r => r.get 2 2 == 0) (Dev.ethBlock))

/-- ETH_CONFIG_IP (R782): Shadows an Ethernet IP block. -/
def execEthConfigIp (f : Fn) (s : State) : Host.Outcome State Fault Refusal :=
  s.run (fun d => d.mail f.val 0x0078 (fun r => r.get 2 2 == 1) (Dev.ethBlock))

/-- ETH_CONFIG_QOS (R782): Shadows an Ethernet QoS block. -/
def execEthConfigQos (f : Fn) (s : State) : Host.Outcome State Fault Refusal :=
  s.run (fun d => d.mail f.val 0x0078 (fun r => r.get 2 2 == 2) (Dev.ethBlock))

/-- ETH_CONFIG_GCL (R782): Shadows a gate control list header. -/
def execEthConfigGcl (f : Fn) (s : State) : Host.Outcome State Fault Refusal :=
  s.run (fun d => d.mail f.val 0x0078 (fun r => r.get 2 2 == 3) (Dev.ethBlock))

/-- ETH_CONFIG_GCLENT (R782): Shadows gate control list entries. -/
def execEthConfigGclent (f : Fn) (s : State) : Host.Outcome State Fault Refusal :=
  s.run (fun d => d.mail f.val 0x0078 (fun r => r.get 2 2 == 4) (Dev.ethBlock))

/-- ETH_CONFIG_CYCIN (R782): Shadows a cyclic input stream block. -/
def execEthConfigCycin (f : Fn) (s : State) : Host.Outcome State Fault Refusal :=
  s.run (fun d => d.mail f.val 0x0078 (fun r => decide (0x10 ≤ r.get 2 2) && decide (r.get 2 2 ≤ 0x17)) (Dev.ethBlock))

/-- ETH_CONFIG_CYCOUT (R782): Shadows a cyclic output stream block. -/
def execEthConfigCycout (f : Fn) (s : State) : Host.Outcome State Fault Refusal :=
  s.run (fun d => d.mail f.val 0x0078 (fun r => decide (0x18 ≤ r.get 2 2) && decide (r.get 2 2 ≤ 0x1F)) (Dev.ethBlock))

/-- ETH_CONFIG_APPLY (R784): Checks and installs the Ethernet shadow set. -/
def execEthConfigApply (f : Fn) (store : Bool) (s : State) : Host.Outcome State Fault Refusal :=
  s.run (fun d => d.mail f.val 0x0078 (fun r => r.get 2 2 == 0xFFFF) (Dev.ethApply store))

/-- PST_SESSION_OPEN (R768): Opens a PST session mapping to queues. -/
def execPstSessionOpen (f : Fn) (store : Bool) (s : State) : Host.Outcome State Fault Refusal :=
  s.run (fun d => d.mail f.val 0x0079 (fun r => r.get 0 1 == 0) (Dev.pstOpen store))

/-- PST_SESSION_CLOSE (R770): Closes a PST session. -/
def execPstSessionClose (f : Fn) (store : Bool) (s : State) : Host.Outcome State Fault Refusal :=
  s.run (fun d => d.mail f.val 0x0079 (fun r => r.get 0 1 == 1) (Dev.pstClose store))

/-- PST_SESSION_QUERY (R770): Returns a PST session's state and counts. -/
def execPstSessionQuery (f : Fn) (s : State) : Host.Outcome State Fault Refusal :=
  s.run (fun d => d.mail f.val 0x0079 (fun r => r.get 0 1 == 2) (Dev.pstQuery))

/-- ETH_FRAME_RECEIVE (R750): A received Ethernet frame is classified to its path. -/
def execEthFrameReceive (p : Port) (fcsOk : Bool) (bytes : List Byte) (s : State) : Host.Outcome State Fault Refusal :=
  s.run (fun d => d.receive p.val fcsOk bytes)

/-- PST_REQUEST_PROCESS (R772): The receive path checks a SOLVE_REQUEST and submits it or sends a NOTICE. -/
def execPstRequestProcess (p : Port) (s : State) : Host.Outcome State Fault Refusal :=
  s.run (fun d => d.pstProcess p.val)

/-- SOLVE_RESPONSE_SENT (R777): A response's last byte is sent and its slot and completion entry are released. -/
def execSolveResponseSent (p : Port) (s : State) : Host.Outcome State Fault Refusal :=
  s.run (fun d => d.respSent p.val)

/-- ETH_LINK_DOWN (R778): A port link goes down and queued responses are discarded. -/
def execEthLinkDown (p : Port) (s : State) : Host.Outcome State Fault Refusal :=
  s.run (fun d => d.linkDown p.val)

/-- ETH_LINK_UP (R784): An Ethernet port's link comes up, setting LINK and LINKCHG. -/
def execEthLinkUp (p : Port) (s : State) : Host.Outcome State Fault Refusal :=
  s.run (fun d => d.linkUp p.val)

/-- PREEMPTION_VERIFY_SUCCESS (R760): Frame preemption verification with the link partner succeeds and preemption becomes active. -/
def execPreemptionVerifySuccess (p : Port) (s : State) : Host.Outcome State Fault Refusal :=
  s.run (fun d => d.verifyOk p.val)

/-- GATE_EVENT (R758): A gate control list event changes queue gates. -/
def execGateEvent (p : Port) (s : State) : Host.Outcome State Fault Refusal :=
  s.run (fun d => d.gateEvent p.val)

/-- GCL_CONFIG_CHANGE (R758): A new gate control list becomes operational at its ConfigChangeTime. -/
def execGclConfigChange (p : Port) (s : State) : Host.Outcome State Fault Refusal :=
  s.run (fun d => d.gclChange p.val)

/-- TRANSMIT_SELECT (R759): A port starts the next frame from the highest open queue that fits. -/
def execTransmitSelect (p : Port) (s : State) : Host.Outcome State Fault Refusal :=
  s.run (fun d => d.transmit p.val)

/-- PTP_SYNC_PROCESS (R754): The Kiln servo processes a Sync and adjusts rate or re-anchors PTPOFS. -/
def execPtpSyncProcess (p : Port) (err : W64) (adj : W32) (s : State) : Host.Outcome State Fault Refusal :=
  s.run (fun d => d.ptpSync p.val err adj)

/-- PTP_LOCK_TIMEOUT (R755): No Sync for 3 intervals clears LOCKED. -/
def execPtpLockTimeout (s : State) : Host.Outcome State Fault Refusal :=
  s.run (fun d => d.ptpTimeout)

/-- PTP_MESSAGE_SEND (R756): A master port sends Sync and peer-delay messages at their intervals. -/
def execPtpMessageSend (p : Port) (kind : PtpMsg) (s : State) : Host.Outcome State Fault Refusal :=
  s.run (fun d => d.ptpSend p.val kind)

/-- KILN_NEIGHBOUR_REPLY (R751): The Kiln answers ARP, neighbour solicitation or echo. -/
def execKilnNeighbourReply (p : Port) (s : State) : Host.Outcome State Fault Refusal :=
  s.run (fun d => d.neighbour p.val)

end Sys2Proof.Machine
end

