-- ==== Sys2Proof/Machine/Fencing.lean ====
section
/-!
DEFINITION. Machine/Fencing.lean: the meanings of fences, promotion, drain-switch changes, row remaps and self-tests (11, 15, 16).
-/
namespace Sys2Proof.Machine

/-- FENCE_HW_TRIGGER (R584): A hardware fault trigger starts the fence sequence without the Kiln. -/
def execFenceHwTrigger (n : CoreN) (late : Bool) (s : State) : Host.Outcome State Fault Refusal :=
  s.run (fun d => d.fence n.val (if late then 2 else 3))

/-- PROMOTION (R592): After a fence the lowest BANKED core is tested, ashed and allocated. -/
def execPromotion (pass store : Bool) (s : State) : Host.Outcome State Fault Refusal :=
  s.run (fun d => d.promotion pass store)

/-- DRAIN_SWITCH_APPLY (R609): Once affected jobs are done, the change is applied, the epoch advances and dispatch resumes. -/
def execDrainSwitchApply (ok store : Bool) (s : State) : Host.Outcome State Fault Refusal :=
  s.run (fun d => d.drainApply ok store)

/-- QUEUE_DESTROY_DONE (R172): A queue being destroyed completes when its last running job completes. -/
def execQueueDestroyDone (u : QId) (s : State) : Host.Outcome State Fault Refusal :=
  s.run (fun d => d.queueGone u.toNat)

/-- ROW_REMAP_APPLY (R489): After the core's job completes, a spare row is assigned, zeroed and persisted. -/
def execRowRemapApply (n : CoreN) (store : Bool) (s : State) : Host.Outcome State Fault Refusal :=
  s.run (fun d => d.remapApply n.val store)

/-- CORE_MAINT_TEST_END (R601): A self-test ends and the core returns to its prior state or is fenced. -/
def execCoreMaintTestEnd (n : CoreN) (pass : Bool) (sig : W32) (store : Bool) (s : State) : Host.Outcome State Fault Refusal :=
  s.run (fun d => d.testEnd n.val pass sig store)

end Sys2Proof.Machine
end

