-- ==== Sys2Proof/Machine/Firmware.lean ====
section
/-!
DEFINITION. Machine/Firmware.lean: the meanings of the firmware update, the configuration store, debug unlock and the end of deferred commands (03, 04, 24).
-/
namespace Sys2Proof.Machine

/-- DEFERRED_COMMAND_FINISH (R162): A deferred command's operation finishes and its asynchronous response is queued. -/
def execDeferredCommandFinish (f : Fn) (opcode : W16) (seq : W32) (data : List Byte) (ok : Bool) (s : State) : Host.Outcome State Fault Refusal :=
  s.run (fun d => d.deferredFinish f.val opcode.toNat seq data ok)

/-- FW_STAGE (R188): Stages a firmware image into the other slot and validates it. -/
def execFwStage (f : Fn) (s : State) : Host.Outcome State Fault Refusal :=
  s.run (fun d => d.mail f.val 0x0080 (fun _ => true) (Dev.fwStageCmd))

/-- FW_ACTIVATE (R191): Sets the staged slot preferred on trial and restarts the Kiln or warm-resets. -/
def execFwActivate (f : Fn) (s : State) : Host.Outcome State Fault Refusal :=
  s.run (fun d => d.mail f.val 0x0081 (fun _ => true) (Dev.fwActivateCmd))

/-- FW_COMMIT (R195): Clears TRIAL and optionally raises the OTP SVN. -/
def execFwCommit (f : Fn) (store : Bool) (s : State) : Host.Outcome State Fault Refusal :=
  s.run (fun d => d.mail f.val 0x0082 (fun _ => true) (Dev.fwCommitCmd store))

/-- FW_ROLLBACK (R196): Returns to the other slot or erases a staged image. -/
def execFwRollback (f : Fn) (store : Bool) (s : State) : Host.Outcome State Fault Refusal :=
  s.run (fun d => d.mail f.val 0x0083 (fun _ => true) (Dev.fwRollbackCmd store))

/-- CFGSTORE_WRITE (R178): Writes a new configuration store bank with a record replaced, added or removed. -/
def execCfgstoreWrite (f : Fn) (s : State) : Host.Outcome State Fault Refusal :=
  s.run (fun d => d.mail f.val 0x0090 (fun _ => true) (Dev.cfgWriteCmd))

/-- CFGSTORE_READ (R179): Returns part of a record from the bank in use. -/
def execCfgstoreRead (f : Fn) (s : State) : Host.Outcome State Fault Refusal :=
  s.run (fun d => d.mail f.val 0x0091 (fun _ => true) (Dev.cfgReadCmd))

/-- DEBUG_UNLOCK_CHALLENGE (R180): Returns a 32-byte nonce. -/
def execDebugUnlockChallenge (f : Fn) (nonce : BitVec 256) (s : State) : Host.Outcome State Fault Refusal :=
  s.run (fun d => d.mail f.val 0x00A0 (fun r => r.get 0 1 == 0) (Dev.unlockChallenge nonce))

/-- DEBUG_UNLOCK_ANSWER (R863): Verifies the signed answer and enters debug mode. -/
def execDebugUnlockAnswer (f : Fn) (s : State) : Host.Outcome State Fault Refusal :=
  s.run (fun d => d.mail f.val 0x00A0 (fun r => r.get 0 1 == 1) (Dev.unlockAnswer))

/-- FWREADY_SET (R192): Firmware finishes starting and sets FWREADY on every mailbox. -/
def execFwreadySet (s : State) : Host.Outcome State Fault Refusal :=
  s.run (fun d => d.fwReady)

end Sys2Proof.Machine
end

