-- ==== Sys2Proof/Machine/ErrorOps.lean ====
section
/-!
DEFINITION. Machine/ErrorOps.lean: uncorrectable scratchpad reads, poisoned writes and reads, failed reads of host space (11, 21, 22, 24).
-/
namespace Sys2Proof.Machine

/-- SCRATCHPAD_UE: word `w` of a row of core `n` holds an uncorrectable error, and a read of it by the core's job, or by run-ahead or the
wrong path (`spec`), meets it (R484-R486, R493). -/
def Dev.scratchEvent (d : Dev) (n mem row w : Nat) (spec : Bool) : Dev :=
  if (d.coreJob n).isNone || decide (memRows mem ≤ row) then d
  else (d.updCore n (·.upset mem row w true)).scratchUe n mem row spec

/-- POISON_CONSUME: a flit reaches core `n` poisoned; one that DRAM does not hold poisoned met the error on the fabric (R85, R850). -/
def Dev.poisonArrives (d : Dev) (n synd flit : Nat) : Dev :=
  if (d.coreJob n).isNone then d
  else (if SMap.get false d.mem.poison flit then d else d.fabricError true (flitNode flit) (coreNode n)).consume n synd flit

/-- A write flit of node `node` that reaches its port poisoned, by an error on the fabric (R85), is stored, and no partition keeps it (R540, R852). -/
def Dev.poisonedWrite (d : Dev) (node flit : Nat) (writer : Option Nat) : Dev :=
  if d.usable ≤ flit * 64 then d
  else
    let d := d.fabricError true node (flitNode flit)
    let d := if d.mem.ecc then { d with mem := { d.mem with poison := SMap.set false d.mem.poison flit true } } else d
    let rj := (writer.bind d.job).bind Job.forRec
    let d := { d with
      mem := d.mem.countFlit true flit
      cores := SMap.mapV {} (fun _ c => { c with spec := c.spec.dropHints [flit] }) d.cores }
    let info := place flit 6 57 + place (b2n d.mem.ecc) 63 1
    let d := d.record { cls := 2, source := 10, index := portOf flit, code := 0x0015, info := info, job := rj }
    match writer with
    | some k => d.lateFault k 0x34
    | none => d

/-- Who reads host space: function and address. -/
def Dev.hostAccess (d : Dev) : HostReader → Option (Nat × Nat)
  | .core n => match d.coreJob n.val, (d.core n.val).dmaq with
    | some (_, j), t :: _ => if t.rd && inHost t.addr 1 then some (j.tenant, t.rowAddr t.moved) else none
    | _, _ => none
  | .fetch u => match d.queue u.toNat with
    | some q => if inHost q.nextEntry 64 && d.fetchPick == some u.toNat then some (q.tenant, q.nextEntry) else none
    | none => none
  | .load k => match d.job k.toNat with
    | some j =>
      if j.loading && j.loadsHost then
        some (j.tenant, if decide (j.paramSrc.2 ≠ 0) && inHost j.paramSrc.1 1 then j.paramSrc.1 else j.kindSrc.1)
      else none
    | none => none

/-- A read of host space fails (R806): the load's job and the core's job end FAULT, a fetch stops. -/
def Dev.readFails (d : Dev) (r : HostReader) : Dev :=
  match d.hostAccess r with
  | none => d
  | some (_, a) => match r with
    | .core n => d.dmaError n.val
    | .fetch u => d.fetchStop u.toNat a
    | .load k => d.jobFault k.toNat 0x20

/-- A read of host space times out or completes in error, or with EP set (R806, R854). -/
def Dev.hostReadError (d : Dev) (r : HostReader) (ep : Bool) : Dev :=
  match d.hostAccess r with
  | none => d
  | some (f, a) =>
    let d := { d with pcie := { d.pcie with rdErr := satInc d.pcie.rdErr } }
    let d := if ep then
        d.record { cls := 2, source := 9, code := 0x0017, info := place a 0 48 + place (Config.requesterId f).toNat 48 16 }
      else d
    d.readFails r

end Sys2Proof.Machine
end

