-- ==== Sys2Proof/Machine/Jobs.lean ====
section
/-!
DEFINITION. Machine/Jobs.lean: the meanings of the steps of a job, the doorbells and the errors that end jobs (01, 05, 13, 21, 24).
-/
namespace Sys2Proof.Machine

/-- EMBER_LATE_CHECK (R62): No ember by start plus TTFE sets EMBERLATE and EMBER_LATE. -/
def execEmberLateCheck (j : JobId) (s : State) : Host.Outcome State Fault Refusal :=
  s.run (fun d => d.emberCheck j.toNat)

/-- COMPARATOR_FIRE (R29): The deadline comparator fires and quenches the job. -/
def execComparatorFire (j : JobId) (s : State) : Host.Outcome State Fault Refusal :=
  s.run (fun d => d.comparator j.toNat)

/-- RESULT_ROWS_WRITE (R46): After program writes drain, ember or result rows are written to the result pointer. -/
def execResultRowsWrite (j : JobId) (emberUe : Option (Fin 8)) (s : State) : Host.Outcome State Fault Refusal :=
  s.run (fun d => d.resultRows j.toNat (emberUe.map Fin.val))

/-- COMPLETION_WRITE (R47): The completion entry is written once result writes are visible. -/
def execCompletionWrite (j : JobId) (s : State) : Host.Outcome State Fault Refusal :=
  s.run (fun d => d.complete j.toNat)

/-- DOORBELL_SQ_TAIL (R215): A doorbell write sets a queue's submission tail. -/
def execDoorbellSqTail (f : Fn) (off : BitVec 12) (data : W64) (s : State) : Host.Outcome State Fault Refusal :=
  s.run (fun d => d.doorbell f.val off.toNat data)

/-- DOORBELL_CQ_HEAD (R841): A doorbell write sets the completion head, releasing ring credits. -/
def execDoorbellCqHead (f : Fn) (off : BitVec 12) (data : W64) (s : State) : Host.Outcome State Fault Refusal :=
  s.run (fun d => d.doorbell f.val off.toNat data)

/-- DOORBELL_OVFACK (R241): A doorbell write releases overflow slots. -/
def execDoorbellOvfack (f : Fn) (off : BitVec 12) (data : W64) (s : State) : Host.Outcome State Fault Refusal :=
  s.run (fun d => d.doorbell f.val off.toNat data)

/-- STOKER_FETCH (R222): The Stoker fetches an entry, reserves its sink and admits or rejects it. -/
def execStokerFetch (u : QId) (entry : Over (BitVec 512)) (s : State) : Host.Outcome State Fault Refusal :=
  s.run (fun d => d.fetch u.toNat entry.val entry.fab)

/-- STOKER_WATCH_REPORT (R269): A job's wait counter is reached and the job becomes READY. -/
def execStokerWatchReport (j : JobId) (s : State) : Host.Outcome State Fault Refusal :=
  s.run (fun d => d.watchReport j.toNat)

/-- DEADLINE_WAITING_EXPIRE (R270): A WAITING job reaches its deadline and ends EXPIRED_IN_QUEUE 0x01. -/
def execDeadlineWaitingExpire (j : JobId) (s : State) : Host.Outcome State Fault Refusal :=
  s.run (fun d => d.expireAt j.toNat .waiting)

/-- DEADLINE_READY_EXPIRE (R231): A READY job reaches its deadline and ends EXPIRED_IN_QUEUE 0x02. -/
def execDeadlineReadyExpire (j : JobId) (s : State) : Host.Outcome State Fault Refusal :=
  s.run (fun d => d.expireAt j.toNat .ready)

/-- DISPATCH (R230): A core set is assigned to the highest-ranked READY job and the dispatch check runs. -/
def execDispatch (t : Fn) (s : State) : Host.Outcome State Fault Refusal :=
  s.run (fun d => d.dispatch t.val)

/-- OUTBOUND_SPACE_FREE (R840): Freed outbound buffer space goes to waiting completions, then dispatch reservations. -/
def execOutboundSpaceFree (bytes : BitVec 18) (s : State) : Host.Outcome State Fault Refusal :=
  s.run (fun d => d.outFree bytes.toNat)

/-- JOB_LOAD_COMPLETE (R234): All parameter and kindling rows are resident and the entry point starts. -/
def execJobLoadComplete (j : JobId) (host : List Byte) (s : State) : Host.Outcome State Fault Refusal :=
  s.run (fun d => d.loadDone j.toNat host)

/-- FETCH_READ_FAILURE (R806): A failed host read of a submission or parameters stops fetch or faults the job. -/
def execFetchReadFailure (r : HostReader) (s : State) : Host.Outcome State Fault Refusal :=
  s.run (fun d => d.readFails r)

/-- HOST_READ_ERROR (R806): A host-space read times out or fails and gets an error response. -/
def execHostReadError (r : HostReader) (ep : Bool) (s : State) : Host.Outcome State Fault Refusal :=
  s.run (fun d => d.hostReadError r ep)

/-- MEASUREMENT_DELIVER (R544): The measurement counter reaches MEASVAL for a pre-solving job. -/
def execMeasurementDeliver (j : JobId) (s : State) : Host.Outcome State Fault Refusal :=
  s.run (fun d => d.deliver j.toNat)

/-- VERSIONED_FLIP (R472): After commit, each core flips SEL by SHD once no versioned write is in flight. -/
def execVersionedFlip (n : CoreN) (s : State) : Host.Outcome State Fault Refusal :=
  s.run (fun d => d.updCore n.val Core.flip)

/-- RESTART_START (R551): After reload the restarted run issues its first instruction. -/
def execRestartStart (j : JobId) (s : State) : Host.Outcome State Fault Refusal :=
  s.run (fun d => d.restart j.toNat)

/-- POISON_CONSUME (R850): A poisoned flit reaches a core and ends the job FAULT. -/
def execPoisonConsume (n : CoreN) (k : PoisonUse) (flit : BitVec 58) (s : State) : Host.Outcome State Fault Refusal :=
  s.run (fun d => d.poisonArrives n.val (match k with | .icache => 0x31 | .load => 0x32 | .dma => 0x33) flit.toNat)

/-- POISONED_WRITE_STORE (R852): A poisoned write flit is stored at a memory port and may fault its writer. -/
def execPoisonedWriteStore (flit : Fin 40 × BitVec 29) (writer : Option JobId) (s : State) : Host.Outcome State Fault Refusal :=
  s.run (fun d => d.poisonedWrite flit.1.val flit.2.toNat (writer.map BitVec.toNat))

/-- SCRATCHPAD_UE (R484): An uncorrectable scratchpad read ends the job FAULT and is recorded. -/
def execScratchpadUe (n : CoreN) (mem : Fin 3) (at_ : BitVec 10 × Fin 64) (spec : Bool) (s : State) : Host.Outcome State Fault Refusal :=
  s.run (fun d => d.scratchEvent n.val mem.val at_.1.toNat at_.2.val spec)

end Sys2Proof.Machine
end

