-- ==== Sys2Proof/Machine/Loop.lean ====
section
/-!
DEFINITION. Machine/Loop.lean: the meanings of the servo loop engine and of Motion I/O (17, 18).
-/
namespace Sys2Proof.Machine

/-- SLE_CONFIG_LOOP (R669): Shadows the SLE loop block. -/
def execSleConfigLoop (f : Fn) (s : State) : Host.Outcome State Fault Refusal :=
  s.run (fun d => d.mail f.val 0x0060 (fun r => r.get 0 2 == 0) (Dev.sleBlock))

/-- SLE_CONFIG_LINKS (R671): Shadows the SLE counter and DRAM links. -/
def execSleConfigLinks (f : Fn) (s : State) : Host.Outcome State Fault Refusal :=
  s.run (fun d => d.mail f.val 0x0060 (fun r => r.get 0 2 == 1) (Dev.sleBlock))

/-- SLE_CONFIG_INMAP (R669): Shadows SLE input map entries. -/
def execSleConfigInmap (f : Fn) (s : State) : Host.Outcome State Fault Refusal :=
  s.run (fun d => d.mail f.val 0x0060 (fun r => r.get 0 2 == 2) (Dev.sleBlock))

/-- SLE_CONFIG_OUTMAP (R669): Shadows SLE output map entries. -/
def execSleConfigOutmap (f : Fn) (s : State) : Host.Outcome State Fault Refusal :=
  s.run (fun d => d.mail f.val 0x0060 (fun r => r.get 0 2 == 3) (Dev.sleBlock))

/-- SLE_CONFIG_LIMITS (R669): Shadows SLE output limits. -/
def execSleConfigLimits (f : Fn) (s : State) : Host.Outcome State Fault Refusal :=
  s.run (fun d => d.mail f.val 0x0060 (fun r => r.get 0 2 == 4) (Dev.sleBlock))

/-- SLE_CONFIG_INTEG (R669): Shadows SLE integrator entries. -/
def execSleConfigInteg (f : Fn) (s : State) : Host.Outcome State Fault Refusal :=
  s.run (fun d => d.mail f.val 0x0060 (fun r => r.get 0 2 == 5) (Dev.sleBlock))

/-- SLE_CONFIG_GAIN (R669): Shadows one SLE gain matrix row. -/
def execSleConfigGain (f : Fn) (s : State) : Host.Outcome State Fault Refusal :=
  s.run (fun d => d.mail f.val 0x0060 (fun r => decide (0x100 ≤ r.get 0 2) && decide (r.get 0 2 ≤ 0x10F)) (Dev.sleBlock))

/-- SLE_CONFIG_APPLY (R670): Checks the SLE shadow set and installs it at the next boundary. -/
def execSleConfigApply (f : Fn) (store : Bool) (s : State) : Host.Outcome State Fault Refusal :=
  s.run (fun d => d.mail f.val 0x0060 (fun r => r.get 0 2 == 0xFFFF) (Dev.sleApply store))

/-- SLE_START (R709): Starts the SLE or refuses, catching a moving axis if permitted. -/
def execSleStart (f : Fn) (s : State) : Host.Outcome State Fault Refusal :=
  s.run (fun d => d.mail f.val 0x0061 (fun _ => true) (Dev.sleStart))

/-- SLE_STOP (R640): Moves the SLE to STOPPED. -/
def execSleStop (f : Fn) (s : State) : Host.Outcome State Fault Refusal :=
  s.run (fun d => d.mail f.val 0x0062 (fun _ => true) (Dev.sleStop))

/-- HOME_AXIS (R699): Starts a homing run of an axis. -/
def execHomeAxis (f : Fn) (s : State) : Host.Outcome State Fault Refusal :=
  s.run (fun d => d.mail f.val 0x0063 (fun _ => true) (Dev.homeCmd))

/-- SAMPLE_BOUNDARY (R646): An SLE sample boundary latches inputs, starts ADCs and swaps a pending trajectory. -/
def execSampleBoundary (s : State) : Host.Outcome State Fault Refusal :=
  s.run (fun d => d.boundary)

/-- INPUT_CHECK (R666): At INWIN the SLE checks inputs and computes or declares a miss. -/
def execInputCheck (late : Bool) (s : State) : Host.Outcome State Fault Refusal :=
  s.run (fun d => d.inputCheck late)

/-- OUTPUT_INSTANT (R667): At OUTINST the SLE presents new or held outputs and may enter SAFE. -/
def execOutputInstant (s : State) : Host.Outcome State Fault Refusal :=
  s.run (fun d => d.outputInstant)

/-- SAMPCTR_ADD (R665): The SLE adds 1 to SAMPCTR after the snapshot is visible. -/
def execSampctrAdd (s : State) : Host.Outcome State Fault Refusal :=
  s.run (fun d => d.sampAdd)

/-- COMMIT_SEEN (R655): The SLE sees CMTCTR change and starts loading a trajectory slot. -/
def execCommitSeen (s : State) : Host.Outcome State Fault Refusal :=
  s.run (fun d => d.commitSeen)

/-- TRAJECTORY_LOAD_DONE (R658): A trajectory load ends and ACKCTR counts its commits. -/
def execTrajectoryLoadDone (fab : Fabric) (s : State) : Host.Outcome State Fault Refusal :=
  s.run (fun d => d.loadTraj fab)

/-- QUADRATURE_EDGE (R679): A quadrature input change updates COUNT or sets ENCERR. -/
def execQuadratureEdge (c : Axis) (a b : Bool) (s : State) : Host.Outcome State Fault Refusal :=
  s.run (fun d => d.quadrature c.val a b)

/-- INDEX_PULSE (R703): An ENC_Z edge captures COUNT for index latching. -/
def execIndexPulse (c : Axis) (s : State) : Host.Outcome State Fault Refusal :=
  s.run (fun d => d.indexPulse c.val)

/-- SSI_FRAME_START (R682): An SSI frame starts at a boundary or every 65,536 LCLK. -/
def execSsiFrameStart (c : Axis) (s : State) : Host.Outcome State Fault Refusal :=
  s.run (fun d => d.ssiStart c.val)

/-- SSI_FRAME_END (R682): An SSI frame ends and COUNT takes its value. -/
def execSsiFrameEnd (c : Axis) (bits : W32) (s : State) : Host.Outcome State Fault Refusal :=
  s.run (fun d => d.ssiEnd c.val bits)

/-- ADC_RESULT (R684): ADC conversions complete and results are present. -/
def execAdcResult (port : Fin 4) (l0 l1 l2 l3 : W16) (s : State) : Host.Outcome State Fault Refusal :=
  s.run (fun d => d.adcResult port.val [l0, l1, l2, l3])

/-- DAC_SEND (R686): DAC ports send mapped outputs at OUTINST + 4. -/
def execDacSend (s : State) : Host.Outcome State Fault Refusal :=
  s.run (fun d => d.dacSend)

/-- PWM_PERIOD_START (R687): All PWM periods start and new duties take effect. -/
def execPwmPeriodStart (s : State) : Host.Outcome State Fault Refusal :=
  s.run (fun d => d.pwmStart)

/-- STEP_PULSE (R688): A step accumulator carry emits one STEP pulse. -/
def execStepPulse (a : Axis) (s : State) : Host.Outcome State Fault Refusal :=
  s.run (fun d => d.stepPulse a.val)

/-- INPUT_RAW_EDGE (R692): A first raw edge captures the axis COUNT pending debounce. -/
def execInputRawEdge (i : Fin 25) (level : Bool) (s : State) : Host.Outcome State Fault Refusal :=
  s.run (fun d => d.rawEdge i.val level)

/-- DEBOUNCE_ACCEPT (R691): The debounce time elapses and the input's accepted level changes. -/
def execDebounceAccept (i : Fin 25) (s : State) : Host.Outcome State Fault Refusal :=
  s.run (fun d => d.acceptIn i.val)

/-- CAPTURE_DISCARD (R692): The raw input stays at the accepted level for DEB µs and the pending position capture is discarded. -/
def execCaptureDiscard (i : Fin 25) (s : State) : Host.Outcome State Fault Refusal :=
  s.run (fun d => d.discardCap i.val)

/-- SAFE_CYCLIC_FRAME (R764): In STOPPED or SAFE each output stream sends a SAFE frame every 1 ms. -/
def execSafeCyclicFrame (s : State) : Host.Outcome State Fault Refusal :=
  s.run (fun d => d.safeFrames)

end Sys2Proof.Machine
end

