-- ==== Sys2Proof/Machine/Mailbox.lean ====
section
/-!
DEFINITION. Machine/Mailbox.lean: the meanings of the mailbox handshake and of the commands on queues, programs, tenants, cores and settings (04, 05, 14, 15, 16).
-/
namespace Sys2Proof.Machine

/-- MBX_RING (R144): A RING submits the request in MBX_REQ if the mailbox is free. -/
def execMbxRing (f : Fn) (s : State) : Host.Outcome State Fault Refusal :=
  s.run (fun d => d.mbxRing f.val)

/-- MBX_ACK (R148): An ACK releases the response area. -/
def execMbxAck (f : Fn) (s : State) : Host.Outcome State Fault Refusal :=
  s.run (fun d => d.mbxAck f.val)

/-- ASYNC_RESPONSE_PLACE (R160): A waiting asynchronous response is placed in the free response area. -/
def execAsyncResponsePlace (f : Fn) (s : State) : Host.Outcome State Fault Refusal :=
  s.run (fun d => d.placeAsync f.val)

/-- GET_INFO (R168): Returns device, tenant and firmware information. -/
def execGetInfo (f : Fn) (s : State) : Host.Outcome State Fault Refusal :=
  s.run (fun d => d.mail f.val 0x0001 (fun _ => true) (Dev.getInfo))

/-- CREATE_QUEUE (R203): Creates a job queue from a descriptor and allocates its overflow area. -/
def execCreateQueue (f : Fn) (s : State) : Host.Outcome State Fault Refusal :=
  s.run (fun d => d.mail f.val 0x0010 (fun _ => true) (Dev.createQueue))

/-- DESTROY_QUEUE (R172): Stops fetch, expires admitted jobs and destroys the queue after running jobs end. -/
def execDestroyQueue (f : Fn) (s : State) : Host.Outcome State Fault Refusal :=
  s.run (fun d => d.mail f.val 0x0011 (fun _ => true) (Dev.destroyCmd))

/-- LOAD_PROGRAM (R561): Checks and loads a program image. -/
def execLoadProgram (f : Fn) (s : State) : Host.Outcome State Fault Refusal :=
  s.run (fun d => d.mail f.val 0x0020 (fun _ => true) (Dev.loadCmd))

/-- BIND_PROGRAM (R505): Binds a program to a queue with a core count and reservation. -/
def execBindProgram (f : Fn) (s : State) : Host.Outcome State Fault Refusal :=
  s.run (fun d => d.mail f.val 0x0021 (fun _ => true) (Dev.bindCmd))

/-- UNBIND (R174): Unbinds a queue so fetch stops. -/
def execUnbind (f : Fn) (s : State) : Host.Outcome State Fault Refusal :=
  s.run (fun d => d.mail f.val 0x0022 (fun _ => true) (Dev.unbindCmd))

/-- TENANT_CREATE (R624): Creates a tenant with quotas, windows and cores moved from tenant 0. -/
def execTenantCreate (f : Fn) (s : State) : Host.Outcome State Fault Refusal :=
  s.run (fun d => d.mail f.val 0x0030 (fun _ => true) (Dev.tenantCmd))

/-- TENANT_DESTROY (R625): Destroys a tenant and returns its resources to tenant 0. -/
def execTenantDestroy (f : Fn) (store : Bool) (s : State) : Host.Outcome State Fault Refusal :=
  s.run (fun d => d.mail f.val 0x0031 (fun _ => true) (Dev.tenantDestroyCmd store))

/-- SYNC_ALLOC_ALLOC (R176): Allocates contiguous sync blocks zeroed and disarmed. -/
def execSyncAllocAlloc (f : Fn) (s : State) : Host.Outcome State Fault Refusal :=
  s.run (fun d => d.mail f.val 0x0038 (fun r => r.get 0 1 == 0) (Dev.syncAlloc))

/-- SYNC_ALLOC_FREE (R272): Frees sync blocks not in use. -/
def execSyncAllocFree (f : Fn) (s : State) : Host.Outcome State Fault Refusal :=
  s.run (fun d => d.mail f.val 0x0038 (fun r => r.get 0 1 == 1) (Dev.syncFree))

/-- SET_CONFIG_TIME_SRC (R181): Sets the device time discipline source. -/
def execSetConfigTimeSrc (f : Fn) (store : Bool) (s : State) : Host.Outcome State Fault Refusal :=
  s.run (fun d => d.mail f.val 0x0040 (fun r => r.get 0 2 == 0x0001) (fun r => Dev.setNow r 2 store Dev.setTimeSrc))

/-- SET_CONFIG_BACKSTEP_EN (R181): Sets whether negative time steps are permitted. -/
def execSetConfigBackstepEn (f : Fn) (store : Bool) (s : State) : Host.Outcome State Fault Refusal :=
  s.run (fun d => d.mail f.val 0x0040 (fun r => r.get 0 2 == 0x0002) (fun r => Dev.setNow r 1 store Dev.setBackstep))

/-- SET_CONFIG_PERST_SCOPE (R181): Sets the scope of PERST_N for the next assertion. -/
def execSetConfigPerstScope (f : Fn) (store : Bool) (s : State) : Host.Outcome State Fault Refusal :=
  s.run (fun d => d.mail f.val 0x0040 (fun r => r.get 0 2 == 0x0003) (fun r => Dev.setNow r 1 store Dev.setPerstScope))

/-- SET_CONFIG_BELLOWS_POOL (R521): Drain-switch change of the half-token pool size. -/
def execSetConfigBellowsPool (f : Fn) (s : State) : Host.Outcome State Fault Refusal :=
  s.run (fun d => d.mail f.val 0x0040 (fun r => r.get 0 2 == 0x0010) (Dev.setPool))

/-- SET_CONFIG_ACTIVE_CORES (R582): Drain-switch change of the ACTIVE core target. -/
def execSetConfigActiveCores (f : Fn) (s : State) : Host.Outcome State Fault Refusal :=
  s.run (fun d => d.mail f.val 0x0040 (fun r => r.get 0 2 == 0x0011) (Dev.setActive))

/-- SET_CONFIG_MEM_ECC (R828): Drain-switch change switching inline ECC on or off. -/
def execSetConfigMemEcc (f : Fn) (s : State) : Host.Outcome State Fault Refusal :=
  s.run (fun d => d.mail f.val 0x0040 (fun r => r.get 0 2 == 0x0012) (Dev.setEcc))

/-- SET_CONFIG_QUEUE_PARAMS (R204): Shadow-swaps a queue descriptor at the queue's next job boundary. -/
def execSetConfigQueueParams (f : Fn) (s : State) : Host.Outcome State Fault Refusal :=
  s.run (fun d => d.mail f.val 0x0040 (fun r => r.get 0 2 == 0x0020) (Dev.setParams))

/-- CONFIG_EPOCH_STATUS (R167): Returns the epoch and drain-switch progress. -/
def execConfigEpochStatus (f : Fn) (s : State) : Host.Outcome State Fault Refusal :=
  s.run (fun d => d.mail f.val 0x0041 (fun _ => true) (Dev.epochStatus))

/-- FENCE_CORE (R586): Fences a core by command, deferring until promotion completes. -/
def execFenceCore (f : Fn) (store : Bool) (s : State) : Host.Outcome State Fault Refusal :=
  s.run (fun d => d.mail f.val 0x0050 (fun _ => true) (Dev.fenceCoreCmd store))

/-- CORE_MAINT (R599): Takes a test lease and runs a self-test on a BANKED or FENCED core. -/
def execCoreMaint (f : Fn) (s : State) : Host.Outcome State Fault Refusal :=
  s.run (fun d => d.mail f.val 0x0051 (fun _ => true) (Dev.maintCmd))

/-- CORE_RETURN_ACTIVE (R603): Returns a core to ACTIVE through a drain-switch change. -/
def execCoreReturnActive (f : Fn) (s : State) : Host.Outcome State Fault Refusal :=
  s.run (fun d => d.mail f.val 0x0052 (fun r => r.get 1 1 == 0) (Dev.returnActive))

/-- CORE_RETURN_BANKED (R603): Returns a FENCED core to BANKED. -/
def execCoreReturnBanked (f : Fn) (store : Bool) (s : State) : Host.Outcome State Fault Refusal :=
  s.run (fun d => d.mail f.val 0x0052 (fun r => r.get 1 1 == 1) (Dev.returnBanked store))

/-- ROW_REMAP (R489): Requests remapping of a scratchpad row to a spare. -/
def execRowRemap (f : Fn) (s : State) : Host.Outcome State Fault Refusal :=
  s.run (fun d => d.mail f.val 0x0058 (fun _ => true) (Dev.rowRemapCmd))

end Sys2Proof.Machine
end

