-- ==== Sys2Proof/Machine/Pcie.lean ====
section
/-!
DEFINITION. Machine/Pcie.lean: the meanings of what the host and the link do at the PCIe endpoint (21).
-/
namespace Sys2Proof.Machine

/-- MSIX_UNMASK (R801): Unmasking a vector with its pending bit set sends one message. -/
def execMsixUnmask (f : Fn) (v : BitVec 11) (s : State) : Host.Outcome State Fault Refusal :=
  s.run (fun d => d.unmask f.val v.toNat)

/-- PERST_N_ASSERT (R814): PERST_N resets the endpoint only or the device according to PERST_SCOPE. -/
def execPerstNAssert (s : State) : Host.Outcome State Fault Refusal :=
  s.run (fun d => d.perstDown)

/-- PERST_N_DEASSERT (R116): PERST_N is released, and configuration requests get retry status until FWREADY. -/
def execPerstNDeassert (s : State) : Host.Outcome State Fault Refusal :=
  s.run (fun d => d.perstRelease)

/-- CONFIG_REQUEST (R116): A configuration request is answered with retry status until FWREADY. -/
def execConfigRequest (f : Fn) (r : CfgReq) (s : State) : Host.Outcome State Fault Refusal :=
  s.run (fun d => d.cfgRequest f.val r)

/-- FLR (R810): Function-level reset of a VF detaches its jobs and destroys its queues. -/
def execFlr (f : Fn) (s : State) : Host.Outcome State Fault Refusal :=
  s.run (fun d => d.flrVf f.val)

/-- FLR_COMPLETE (R811): The FLR completes within 10 ms and the VF answers again. -/
def execFlrComplete (f : Fn) (s : State) : Host.Outcome State Fault Refusal :=
  s.run (fun d => d.flrEnd f.val)

/-- PF_FLR (R812): FLR of the PF applies to tenant 0 and clears VF Enable. -/
def execPfFlr (s : State) : Host.Outcome State Fault Refusal :=
  s.run (fun d => d.flrPf)

/-- VF_ENABLE_CLEAR (R813): Clearing VF Enable or lowering NumVFs resets every removed VF. -/
def execVfEnableClear (en : Bool) (num : BitVec 7) (s : State) : Host.Outcome State Fault Refusal :=
  s.run (fun d => d.setVfs en num.toNat)

/-- PCIE_LINK_UP (R815): The PCIe data link comes up, DLUP and DLCHG are set, and host-space traffic resumes. -/
def execPcieLinkUp (speed : BitVec 4) (width : BitVec 4) (s : State) : Host.Outcome State Fault Refusal :=
  s.run (fun d => d.linkUpPcie speed width)

/-- PCIE_LINK_DOWN (R815): While the data link is down, host writes are discarded and reads fail. -/
def execPcieLinkDown (s : State) : Host.Outcome State Fault Refusal :=
  s.run (fun d => d.linkLost)

/-- BAR4_WRITE (R799): A host BAR4 write reaches device DRAM or is discarded. -/
def execBar4Write (f : Fn) (off : BitVec 35) (data : List Byte) (ep : Bool) (s : State) : Host.Outcome State Fault Refusal :=
  s.runIf (wfRequest off.toNat data.length) (fun d => d.bar4Write f.val off.toNat data ep)

/-- BAR4_READ (R799): A host BAR4 read returns DRAM data, EP data or Unsupported Request. -/
def execBar4Read (f : Fn) (off : BitVec 35) (len : Over (BitVec 13)) (s : State) : Host.Outcome State Fault Refusal :=
  s.runIf (wfRequest off.toNat len.val.toNat) (fun d => d.bar4Read f.val off.toNat len.val.toNat len.fab)

end Sys2Proof.Machine
end

