-- ==== Sys2Proof/Machine/Registers.lean ====
section
/-!
DEFINITION. Machine/Registers.lean: the meanings of register accesses and of the tick of device time (03, 12, 24, 25).
-/
namespace Sys2Proof.Machine

/-- GLB_TIMESTEP_WRITE (R109): A write of GLB_TIMESTEP makes or holds a pending time step. -/
def execGlbTimestepWrite (kiln : Bool) (part : Part) (data : W64) (s : State) : Host.Outcome State Fault Refusal :=
  s.run (fun d => d.timestepWrite kiln part data)

/-- GLB_TIMEADJ_WRITE (R108): A write of the rate adjustment, clamped at ±500 ppm. -/
def execGlbTimeadjWrite (kiln : Bool) (data : W32) (s : State) : Host.Outcome State Fault Refusal :=
  s.run (fun d => d.hostWriteReg kiln 0x108 false data.toNat)

/-- GLB_TIME_LOW_READ (R107): A 32-bit low-half read latches the high half in a per-function shadow. -/
def execGlbTimeLowRead (f : Fn) (s : State) : Host.Outcome State Fault Refusal :=
  s.run (fun d => d.agentRead (.fn f) 0x100 false)

/-- STK_VTIME_LOW_READ (R816): A 32-bit low-half read of STK_VTIME latches the high half. -/
def execStkVtimeLowRead (f : Fn) (s : State) : Host.Outcome State Fault Refusal :=
  s.run (fun d => d.agentRead (.fn f) 0x100040 false)

/-- TCLK_TICK (R101): Device time advances by the fractional accumulator or applies a pending step. -/
def execTclkTick (s : State) : Host.Outcome State Fault Refusal :=
  s.run (fun d => d.tclk)

/-- GLB_RSTCTL_WRITE (R113): Writing the key 0xC0DE starts a warm reset. -/
def execGlbRstctlWrite (kiln : Bool) (data : W32) (s : State) : Host.Outcome State Fault Refusal :=
  s.run (fun d => d.hostWriteReg kiln 0x128 false data.toNat)

/-- BLW_POOL_WRITE (R945): A Kiln write of SIZE and LEASECAP with reserved-value handling. -/
def execBlwPoolWrite (data : W32) (s : State) : Host.Outcome State Fault Refusal :=
  s.run (fun d => d.hostWriteReg true 0xE00000 false data.toNat)

/-- BLW_PEAK_READ (R946): Reading PEAK restarts it from the following cycle's INUSE. -/
def execBlwPeakRead (f : Fn) (s : State) : Host.Outcome State Fault Refusal :=
  s.run (fun d => d.agentRead (.fn f) 0xE00010 false)

/-- ERR_LOGPTR_TAIL_WRITE (R949): Writing TAIL sets the unread record count and ends the full state. -/
def execErrLogptrTailWrite (tail : Byte) (s : State) : Host.Outcome State Fault Refusal :=
  s.run (fun d => d.hostWriteReg false 0xD00018 false (place tail.toNat 8 8))

/-- REGISTER_WRITE (R11): A write to a register without a row of its own under the field access codes. -/
def execRegisterWrite (w : Agent) (off : BitVec 26) (wide : Bool) (data : W64) (s : State) : Host.Outcome State Fault Refusal :=
  s.run (fun d => d.agentWrite w off.toNat wide data.toNat)

/-- RC_FIELD_READ (R13): A register read returns its RC fields and then clears them, such as STK_REJCNT, SYN_ACCERR, SLE_MISSCNT or ERR_LOGPTR.LOST. -/
def execRcFieldRead (w : Agent) (off : BitVec 26) (wide : Bool) (s : State) : Host.Outcome State Fault Refusal :=
  s.run (fun d => d.agentRead w off.toNat wide)

end Sys2Proof.Machine
end

