-- ==== Sys2Proof/Machine/Resets.lean ====
section
/-!
DEFINITION. Machine/Resets.lean: the meanings of resets, the reset sequence, fatal errors, supplies and temperature (03, 24, 26, 27).
-/
namespace Sys2Proof.Machine

/-- DEVICE_FATAL_ERROR (R855): A device-fatal error makes outputs safe, stops dispatch and records ERR_FATAL. -/
def execDeviceFatalError (unit : Fin 4) (s : State) : Host.Outcome State Fault Refusal :=
  s.run (fun d => d.fatalError (unit.val + 1))

/-- FATAL_RESET_TIMER (R856): 10 ms after a fatal error the Kiln warm-resets unless FATALHOLD is set. -/
def execFatalResetTimer (s : State) : Host.Outcome State Fault Refusal :=
  s.run (fun d => d.fatalTimer)

/-- KILN_SRAM_UE (R847): An uncorrectable Kiln SRAM error causes a Kiln restart. -/
def execKilnSramUe (addr : W32) (s : State) : Host.Outcome State Fault Refusal :=
  s.run (fun d => d.kilnUe addr.toNat)

/-- KILN_WATCHDOG_EXPIRE (R862): The watchdog expires 2 s after the last refresh and warm-resets the device. -/
def execKilnWatchdogExpire (s : State) : Host.Outcome State Fault Refusal :=
  s.run (fun d => d.watchdog)

/-- POWER_ON_RESET (R113): Power-on causes a cold reset. -/
def execPowerOnReset (s : State) : Host.Outcome State Fault Refusal :=
  s.run (fun d => d.powerOn)

/-- POWER_LOSS (R896): A supply falls below its minimum: the 3.3 V outputs are held at their reset levels, inputs read low and device state is lost. -/
def execPowerLoss (io : Bool) (s : State) : Host.Outcome State Fault Refusal :=
  s.run (fun d => d.supplyLoss io)

/-- RST_N_ASSERT (R915): RST_N driven low for long enough causes a cold reset. -/
def execRstNAssert (ns : Nat) (s : State) : Host.Outcome State Fault Refusal :=
  s.run (fun d => d.rstLowFor ns)

/-- RST_N_RISE (R115): RST_N rises, straps are sampled and the reset sequence starts. -/
def execRstNRise (boot : BitVec 2) (refsel : Bool) (s : State) : Host.Outcome State Fault Refusal :=
  s.run (fun d => d.rstRise boot refsel)

/-- PLL_LOCK (R115): The root PLL locks and the domains are released, starting the Kiln. -/
def execPllLock (big : Bool) (trainFail : W16) (testFail : BitVec 18) (flash : Bool) (s : State) : Host.Outcome State Fault Refusal :=
  s.run (fun d => d.pllLocked { big := big, trainFail := trainFail, testFail := testFail, flash := flash })

/-- WARM_RESET (R113): A warm reset resets blocks while device time keeps counting. -/
def execWarmReset (cause : WarmCause) (s : State) : Host.Outcome State Fault Refusal :=
  s.run (fun d => d.warmBy cause)

/-- THERMAL_READING (R931): Every 1 ms the Kiln reads Tj and adjusts the thermal cap. -/
def execThermalReading (tj : Int) (s : State) : Host.Outcome State Fault Refusal :=
  s.run (fun d => d.readTj tj)

/-- THERMAL_TRIP (R933): The hardware comparator trips: outputs safe, THERMTRIP_N, record, warm reset. -/
def execThermalTrip (sensor : Byte) (tj : Int) (s : State) : Host.Outcome State Fault Refusal :=
  s.run (fun d => d.thermTrip sensor.toNat tj)

/-- THERMAL_HOLD_RELEASE (R934): After a trip the Kiln leaves reset once Tj has been low for 1 s. -/
def execThermalHoldRelease (s : State) : Host.Outcome State Fault Refusal :=
  s.run (fun d => d.thermRelease)

/-- CORE_VID_CHANGE (R910): The firmware steps the CORE_VID code by one, at most once per 1 ms, as the on-die delay monitors require. -/
def execCoreVidChange (up : Bool) (s : State) : Host.Outcome State Fault Refusal :=
  s.run (fun d => d.vidStep up)

end Sys2Proof.Machine
end

