-- ==== Sys2Proof/Machine/Scalar.lean ====
section
/-!
DEFINITION. Machine/Scalar.lean: the meanings of the integer, multiply and divide, and narrow load and store instructions (08).
-/
namespace Sys2Proof.Machine

/-- ADD (R315): Integer add of x[A] and x[B] modulo 2^64 into x[D]. -/
def execAdd (n : CoreN) (q : Pred) (d a b : Reg) (s : State) : Host.Outcome State Fault Refusal :=
  s.run (issueAlu .add n.val q d.toNat a.toNat (.reg b.toNat))

/-- ADD_I (R315): Integer add with immediate. -/
def execAddI (n : CoreN) (q : Pred) (d a : Reg) (imm : W64) (s : State) : Host.Outcome State Fault Refusal :=
  s.run (issueAlu .add n.val q d.toNat a.toNat (.imm imm))

/-- SUB (R315): Integer subtract of x[B] from x[A] into x[D]. -/
def execSub (n : CoreN) (q : Pred) (d a b : Reg) (s : State) : Host.Outcome State Fault Refusal :=
  s.run (issueAlu .sub n.val q d.toNat a.toNat (.reg b.toNat))

/-- SUB_I (R315): Integer subtract of immediate. -/
def execSubI (n : CoreN) (q : Pred) (d a : Reg) (imm : W64) (s : State) : Host.Outcome State Fault Refusal :=
  s.run (issueAlu .sub n.val q d.toNat a.toNat (.imm imm))

/-- AND (R315): Bitwise AND of two x registers. -/
def execAnd (n : CoreN) (q : Pred) (d a b : Reg) (s : State) : Host.Outcome State Fault Refusal :=
  s.run (issueAlu .and n.val q d.toNat a.toNat (.reg b.toNat))

/-- AND_I (R315): Bitwise AND with immediate. -/
def execAndI (n : CoreN) (q : Pred) (d a : Reg) (imm : W64) (s : State) : Host.Outcome State Fault Refusal :=
  s.run (issueAlu .and n.val q d.toNat a.toNat (.imm imm))

/-- OR (R315): Bitwise OR of two x registers. -/
def execOr (n : CoreN) (q : Pred) (d a b : Reg) (s : State) : Host.Outcome State Fault Refusal :=
  s.run (issueAlu .or n.val q d.toNat a.toNat (.reg b.toNat))

/-- OR_I (R315): Bitwise OR with immediate. -/
def execOrI (n : CoreN) (q : Pred) (d a : Reg) (imm : W64) (s : State) : Host.Outcome State Fault Refusal :=
  s.run (issueAlu .or n.val q d.toNat a.toNat (.imm imm))

/-- XOR (R315): Bitwise XOR of two x registers. -/
def execXor (n : CoreN) (q : Pred) (d a b : Reg) (s : State) : Host.Outcome State Fault Refusal :=
  s.run (issueAlu .xor n.val q d.toNat a.toNat (.reg b.toNat))

/-- XOR_I (R315): Bitwise XOR with immediate. -/
def execXorI (n : CoreN) (q : Pred) (d a : Reg) (imm : W64) (s : State) : Host.Outcome State Fault Refusal :=
  s.run (issueAlu .xor n.val q d.toNat a.toNat (.imm imm))

/-- SHL (R315): Left shift of x[A] by x[B][5:0]. -/
def execShl (n : CoreN) (q : Pred) (d a b : Reg) (s : State) : Host.Outcome State Fault Refusal :=
  s.run (issueAlu .shl n.val q d.toNat a.toNat (.reg b.toNat))

/-- SHL_I (R315): Left shift by IMM[5:0]. -/
def execShlI (n : CoreN) (q : Pred) (d a : Reg) (imm : BitVec 6) (s : State) : Host.Outcome State Fault Refusal :=
  s.run (issueAlu .shl n.val q d.toNat a.toNat (.imm (imm.setWidth 64)))

/-- SHR (R315): Logical right shift of x[A] by x[B][5:0]. -/
def execShr (n : CoreN) (q : Pred) (d a b : Reg) (s : State) : Host.Outcome State Fault Refusal :=
  s.run (issueAlu .shr n.val q d.toNat a.toNat (.reg b.toNat))

/-- SHR_I (R315): Logical right shift by IMM[5:0]. -/
def execShrI (n : CoreN) (q : Pred) (d a : Reg) (imm : BitVec 6) (s : State) : Host.Outcome State Fault Refusal :=
  s.run (issueAlu .shr n.val q d.toNat a.toNat (.imm (imm.setWidth 64)))

/-- SRA (R315): Arithmetic right shift of x[A] by x[B][5:0]. -/
def execSra (n : CoreN) (q : Pred) (d a b : Reg) (s : State) : Host.Outcome State Fault Refusal :=
  s.run (issueAlu .sra n.val q d.toNat a.toNat (.reg b.toNat))

/-- SRA_I (R315): Arithmetic right shift by IMM[5:0]. -/
def execSraI (n : CoreN) (q : Pred) (d a : Reg) (imm : BitVec 6) (s : State) : Host.Outcome State Fault Refusal :=
  s.run (issueAlu .sra n.val q d.toNat a.toNat (.imm (imm.setWidth 64)))

/-- MIN (R315): Signed minimum of two x registers. -/
def execMin (n : CoreN) (q : Pred) (d a b : Reg) (s : State) : Host.Outcome State Fault Refusal :=
  s.run (issueAlu .min n.val q d.toNat a.toNat (.reg b.toNat))

/-- MIN_I (R315): Signed minimum with immediate. -/
def execMinI (n : CoreN) (q : Pred) (d a : Reg) (imm : W64) (s : State) : Host.Outcome State Fault Refusal :=
  s.run (issueAlu .min n.val q d.toNat a.toNat (.imm imm))

/-- MAX (R315): Signed maximum of two x registers. -/
def execMax (n : CoreN) (q : Pred) (d a b : Reg) (s : State) : Host.Outcome State Fault Refusal :=
  s.run (issueAlu .max n.val q d.toNat a.toNat (.reg b.toNat))

/-- MAX_I (R315): Signed maximum with immediate. -/
def execMaxI (n : CoreN) (q : Pred) (d a : Reg) (imm : W64) (s : State) : Host.Outcome State Fault Refusal :=
  s.run (issueAlu .max n.val q d.toNat a.toNat (.imm imm))

/-- MIN_U (R315): Unsigned minimum of two x registers. -/
def execMinU (n : CoreN) (q : Pred) (d a b : Reg) (s : State) : Host.Outcome State Fault Refusal :=
  s.run (issueAlu .minU n.val q d.toNat a.toNat (.reg b.toNat))

/-- MIN_U_I (R315): Unsigned minimum with immediate. -/
def execMinUI (n : CoreN) (q : Pred) (d a : Reg) (imm : W64) (s : State) : Host.Outcome State Fault Refusal :=
  s.run (issueAlu .minU n.val q d.toNat a.toNat (.imm imm))

/-- MAX_U (R315): Unsigned maximum of two x registers. -/
def execMaxU (n : CoreN) (q : Pred) (d a b : Reg) (s : State) : Host.Outcome State Fault Refusal :=
  s.run (issueAlu .maxU n.val q d.toNat a.toNat (.reg b.toNat))

/-- MAX_U_I (R315): Unsigned maximum with immediate. -/
def execMaxUI (n : CoreN) (q : Pred) (d a : Reg) (imm : W64) (s : State) : Host.Outcome State Fault Refusal :=
  s.run (issueAlu .maxU n.val q d.toNat a.toNat (.imm imm))

/-- SEL (R315): Selects x[A] or x[B] into x[D] by predicate p[C]. -/
def execSel (n : CoreN) (q : Pred) (d a b : Reg) (c : PReg) (s : State) : Host.Outcome State Fault Refusal :=
  s.run (issueSel n.val q d.toNat a.toNat b.toNat c.toNat)

/-- MUL_U (R317): Low 64 bits of the unsigned product on the iterative multiplier. -/
def execMulU (n : CoreN) (q : Pred) (d a b : Reg) (s : State) : Host.Outcome State Fault Refusal :=
  s.run (issueMd .mulU n.val q d.toNat a.toNat b.toNat)

/-- MUL_S (R317): Low 64 bits of the signed product on the iterative multiplier. -/
def execMulS (n : CoreN) (q : Pred) (d a b : Reg) (s : State) : Host.Outcome State Fault Refusal :=
  s.run (issueMd .mulS n.val q d.toNat a.toNat b.toNat)

/-- MULH_U (R317): High 64 bits of the unsigned 128-bit product. -/
def execMulhU (n : CoreN) (q : Pred) (d a b : Reg) (s : State) : Host.Outcome State Fault Refusal :=
  s.run (issueMd .mulhU n.val q d.toNat a.toNat b.toNat)

/-- MULH_S (R317): High 64 bits of the signed 128-bit product. -/
def execMulhS (n : CoreN) (q : Pred) (d a b : Reg) (s : State) : Host.Outcome State Fault Refusal :=
  s.run (issueMd .mulhS n.val q d.toNat a.toNat b.toNat)

/-- DIV_U (R318): Unsigned truncated quotient on the iterative divider, with divide-by-zero result. -/
def execDivU (n : CoreN) (q : Pred) (d a b : Reg) (s : State) : Host.Outcome State Fault Refusal :=
  s.run (issueMd .divU n.val q d.toNat a.toNat b.toNat)

/-- DIV_S (R318): Signed quotient truncated toward zero, with overflow and zero-divisor results. -/
def execDivS (n : CoreN) (q : Pred) (d a b : Reg) (s : State) : Host.Outcome State Fault Refusal :=
  s.run (issueMd .divS n.val q d.toNat a.toNat b.toNat)

/-- REM_U (R318): Unsigned remainder on the iterative divider. -/
def execRemU (n : CoreN) (q : Pred) (d a b : Reg) (s : State) : Host.Outcome State Fault Refusal :=
  s.run (issueMd .remU n.val q d.toNat a.toNat b.toNat)

/-- REM_S (R318): Signed remainder with the sign of the dividend. -/
def execRemS (n : CoreN) (q : Pred) (d a b : Reg) (s : State) : Host.Outcome State Fault Refusal :=
  s.run (issueMd .remS n.val q d.toNat a.toNat b.toNat)

/-- LD (R322): Narrow 8-byte scratchpad load through a handle into x[D]. -/
def execLd (n : CoreN) (q : Pred) (d a : Reg) (h : Handle) (imm : W64) (s : State) : Host.Outcome State Fault Refusal :=
  s.run (issueLd false n.val q d.toNat a.toNat h.toNat imm)

/-- LD_F (R322): Narrow 4-byte scratchpad load into f[D]. -/
def execLdF (n : CoreN) (q : Pred) (d a : Reg) (h : Handle) (imm : W64) (s : State) : Host.Outcome State Fault Refusal :=
  s.run (issueLd true n.val q d.toNat a.toNat h.toNat imm)

/-- ST (R322): Narrow 8-byte scratchpad store of x[B] through a handle. -/
def execSt (n : CoreN) (q : Pred) (a b : Reg) (h : Handle) (imm : W64) (s : State) : Host.Outcome State Fault Refusal :=
  s.run (issueSt false n.val q a.toNat b.toNat h.toNat imm)

/-- ST_F (R322): Narrow 4-byte scratchpad store of f[B], merged into its word. -/
def execStF (n : CoreN) (q : Pred) (a b : Reg) (h : Handle) (imm : W64) (s : State) : Host.Outcome State Fault Refusal :=
  s.run (issueSt true n.val q a.toNat b.toNat h.toNat imm)

end Sys2Proof.Machine
end

