-- ==== Sys2Proof/Machine/Sync.lean ====
section
/-!
DEFINITION. Machine/Sync.lean: the meanings of the accesses to sync counters and arm slots, and of what the sync block does (06).
-/
namespace Sys2Proof.Machine

/-- SYN_CTR_WRITE (R248): Host SET of a sync counter. -/
def execSynCtrWrite (f : Fn) (c : CtrId) (narrow : Bool) (data : W64) (s : State) : Host.Outcome State Fault Refusal :=
  s.run (fun d => d.agentWrite (.fn f) (0x200000 + 8 * c.toNat) (!narrow) data.toNat)

/-- SYN_CTR_LOW_READ (R275): A 32-bit low-half counter read latches the high half for the same function. -/
def execSynCtrLowRead (f : Fn) (c : CtrId) (s : State) : Host.Outcome State Fault Refusal :=
  s.run (fun d => d.agentRead (.fn f) (0x200000 + 8 * c.toNat) false)

/-- SYN_ADD_WRITE (R248): Host ADD of DELTA to a sync counter. -/
def execSynAddWrite (f : Fn) (c : CtrId) (delta : W32) (s : State) : Host.Outcome State Fault Refusal :=
  s.run (fun d => d.agentWrite (.fn f) (0x300000 + 4 * c.toNat) false delta.toNat)

/-- SYN_ARM_CTL_WRITE (R261): Arms an arm slot and evaluates it at once, or refuses the arming. -/
def execSynArmCtlWrite (f : Fn) (a : SlotId) (data : W32) (s : State) : Host.Outcome State Fault Refusal :=
  s.run (fun d => d.agentWrite (.fn f) (0x380008 + 32 * a.toNat) false data.toNat)

/-- COUNTER_APPLY (R252): The sync block applies operations on a counter in source order and evaluates watches. -/
def execCounterApply (c : CtrId) (srcs : BitVec 24) (s : State) : Host.Outcome State Fault Refusal :=
  s.run (fun d => (d.counterApply c.toNat srcs).answerReads)

/-- ARM_SLOT_FIRE (R262): A satisfied armed slot fires, performs its action and advances THRESH. -/
def execArmSlotFire (a : SlotId) (s : State) : Host.Outcome State Fault Refusal :=
  s.run (fun d => d.armFire a.toNat)

/-- ARM_RELEASE_TAIL (R267): A RELEASE fire advances its queue's submission tail or is discarded. -/
def execArmReleaseTail (a : SlotId) (s : State) : Host.Outcome State Fault Refusal :=
  s.run (fun d => d.armRelease a.toNat)

/-- ARM_IRQ_MESSAGE (R268): An IRQ fire issues its MSI-X message, merging pending fires. -/
def execArmIrqMessage (a : SlotId) (s : State) : Host.Outcome State Fault Refusal :=
  s.run (fun d => d.armIrq a.toNat)

/-- SYNC_COUNTER_UE (R848): An uncorrectable sync counter error marks the counter BAD. -/
def execSyncCounterUe (c : CtrId) (s : State) : Host.Outcome State Fault Refusal :=
  s.run (fun d => d.ctrUe c.toNat)

end Sys2Proof.Machine
end

