-- ==== Sys2Proof/Machine/System.lean ====
section
/-!
DEFINITION. Machine/System.lean: the meanings of the special-register, sync, phase, ember, job and pre-solve instructions (08, 13).
-/
namespace Sys2Proof.Machine

/-- SR_READ (R334): Reads a special register zero-extended into x[D]. -/
def execSrRead (n : CoreN) (q : Pred) (d : Reg) (sr : Fin 9) (s : State) : Host.Outcome State Fault Refusal :=
  s.run (issueSrRead n.val q d.toNat sr.val)

/-- SR_WRITE (R336): Writes fpc once no binary32, vector or matrix work is in flight, reseeding the generators. -/
def execSrWrite (n : CoreN) (q : Pred) (a : Reg) (s : State) : Host.Outcome State Fault Refusal :=
  s.run (issueSrWrite n.val q a.toNat)

/-- SYNC_ADD (R337): Core ADD of x[B][31:0] to a sync counter after earlier writes are visible. -/
def execSyncAdd (n : CoreN) (q : Pred) (a b : Reg) (s : State) : Host.Outcome State Fault Refusal :=
  s.run (issueSyncAdd n.val q a.toNat (.reg b.toNat))

/-- SYNC_ADD_I (R337): Core ADD of IMM[31:0] to a sync counter. -/
def execSyncAddI (n : CoreN) (q : Pred) (a : Reg) (imm : W32) (s : State) : Host.Outcome State Fault Refusal :=
  s.run (issueSyncAdd n.val q a.toNat (.imm (imm.setWidth 64)))

/-- SYNC_SET (R337): Core SET of a sync counter to x[B]. -/
def execSyncSet (n : CoreN) (q : Pred) (a b : Reg) (s : State) : Host.Outcome State Fault Refusal :=
  s.run (issueSyncSet n.val q a.toNat b.toNat)

/-- SYNC_READ (R338): Core READ of a sync counter into x[D], pending until returned. -/
def execSyncRead (n : CoreN) (q : Pred) (d a : Reg) (s : State) : Host.Outcome State Fault Refusal :=
  s.run (issueSyncRead n.val q d.toNat a.toNat)

/-- SYNC_WAIT (R339): Core WAIT_GE that holds issue until the counter reaches x[B]. -/
def execSyncWait (n : CoreN) (q : Pred) (a b : Reg) (s : State) : Host.Outcome State Fault Refusal :=
  s.run (issueSyncWait n.val q a.toNat b.toNat)

/-- PHASE (R340): Phase marker loading the phase budget and token claim. -/
def execPhase (n : CoreN) (q : Pred) (ph : BitVec 6) (s : State) : Host.Outcome State Fault Refusal :=
  s.run (issuePhase n.val q ph.toNat)

/-- EMBER_SAVE (R344): Starts saving an ember from lead-core rows with residual and iteration count. -/
def execEmberSave (n : CoreN) (q : Pred) (a b : Reg) (h : Handle) (rows : Fin 9) (first : W16) (s : State) : Host.Outcome State Fault Refusal :=
  s.run (issueEmberSave n.val q a.toNat b.toNat h.toNat rows.val first.toNat)

/-- JOB_DONE (R348): Issues the end of the job with status, result rows, residual and count, holding later issue. -/
def execJobDone (n : CoreN) (q : Pred) (a b c : Reg) (h : Handle) (rows : Fin 9) (status : Byte) (first : W16) (s : State) : Host.Outcome State Fault Refusal :=
  s.run (issueJobDone n.val q a.toNat b.toNat c.toNat h.toNat rows.val status.toNat first.toNat)

/-- SPEC_ACCEPT (R353): Pre-solve acceptance test that commits or squashes once the measurement is delivered. -/
def execSpecAccept (n : CoreN) (q : Pred) (a : PReg) (s : State) : Host.Outcome State Fault Refusal :=
  s.run (issueAccept n.val q a.toNat)

end Sys2Proof.Machine
end

