-- ==== Sys2Proof/Machine/Transfer.lean ====
section
/-!
DEFINITION. Machine/Transfer.lean: the meanings of the transfer, ring and arrival-counter instructions (09).
-/
namespace Sys2Proof.Machine

/-- DMA_RD (R381): Queues a local DMA read from memory into a scratchpad tile. -/
def execDmaRd (n : CoreN) (q : Pred) (t : Tile) (f1 : Fmt) (b1 : Bool) (xa xb xc : Reg) (async : Bool) (s : State) : Host.Outcome State Fault Refusal :=
  s.run (issueDmaRd n.val q (.of t) f1.toNat b1 xa.toNat xb.toNat xc.toNat async)

/-- DMA_WR (R381): Queues a local DMA write from a scratchpad tile into memory. -/
def execDmaWr (n : CoreN) (q : Pred) (t : Tile) (f1 : Fmt) (b1 : Bool) (xa xb xc : Reg) (s : State) : Host.Outcome State Fault Refusal :=
  s.run (issueDmaWr n.val q (.of t) f1.toNat b1 xa.toNat xb.toNat xc.toNat)

/-- RW_PUT (R389): Queues a remote write of rows to another core of the set. -/
def execRwPut (n : CoreN) (q : Pred) (h0 : Handle) (o0 n0 : BitVec 10) (h1 : Handle) (o1 : BitVec 10) (xb xc : Reg) (s : State) : Host.Outcome State Fault Refusal :=
  s.run (issueRwPut n.val q h0.toNat o0.toNat n0.toNat h1.toNat o1.toNat xb.toNat xc.toNat)

/-- RING_PUSH (R393): Appends rows to a ring on a core once the ring has room. -/
def execRingPush (n : CoreN) (q : Pred) (h0 : Handle) (o0 n0 : BitVec 10) (h1 : Handle) (xb : Reg) (s : State) : Host.Outcome State Fault Refusal :=
  s.run (issueRingPush n.val q h0.toNat o0.toNat n0.toNat h1.toNat xb.toNat)

/-- RING_HEAD (R396): Reads the ring head row. -/
def execRingHead (n : CoreN) (q : Pred) (d : Reg) (h : Handle) (s : State) : Host.Outcome State Fault Refusal :=
  s.run (issueRingHead n.val q d.toNat h.toNat)

/-- RING_AVAIL (R396): Reads the ring occupancy. -/
def execRingAvail (n : CoreN) (q : Pred) (d : Reg) (h : Handle) (s : State) : Host.Outcome State Fault Refusal :=
  s.run (issueRingAvail n.val q d.toNat h.toNat)

/-- RING_POP (R466): Advances the ring head count. -/
def execRingPop (n : CoreN) (q : Pred) (a : Reg) (h : Handle) (s : State) : Host.Outcome State Fault Refusal :=
  s.run (issueRingPop n.val q a.toNat h.toNat)

/-- ARR_WAIT (R398): Holds issue until an arrival counter reaches x[B]. -/
def execArrWait (n : CoreN) (q : Pred) (b : Reg) (i : BitVec 6) (s : State) : Host.Outcome State Fault Refusal :=
  s.run (issueArrWait n.val q b.toNat i.toNat)

/-- ARR_READ (R398): Reads an arrival counter into x[D]. -/
def execArrRead (n : CoreN) (q : Pred) (d : Reg) (i : BitVec 6) (s : State) : Host.Outcome State Fault Refusal :=
  s.run (issueArrRead n.val q d.toNat i.toNat)

/-- ARR_SET (R399): Sets an arrival counter. -/
def execArrSet (n : CoreN) (q : Pred) (b : Reg) (i : BitVec 6) (s : State) : Host.Outcome State Fault Refusal :=
  s.run (issueArrSet n.val q b.toNat i.toNat)

/-- XFER_FENCE (R400): Holds issue until every earlier transfer of the core is complete. -/
def execXferFence (n : CoreN) (q : Pred) (s : State) : Host.Outcome State Fault Refusal :=
  s.run (issueFence n.val q)

end Sys2Proof.Machine
end

