-- ==== Sys2Proof/Machine/Vector.lean ====
section
/-!
DEFINITION. Machine/Vector.lean: the meanings of the vector, refinement and matrix instructions and rcount (09).
-/
namespace Sys2Proof.Machine

/-- VLD (R367): Loads part of a scratchpad row into a v register, converted to binary32. -/
def execVld (n : CoreN) (q : Pred) (d : VReg) (a : Reg) (h : Handle) (fmt : Fmt) (b32 : Bool) (part : BitVec 2) (imm : W16) (s : State) : Host.Outcome State Fault Refusal :=
  s.run (issueVld n.val q d.toNat a.toNat h.toNat fmt.toNat b32 part.toNat imm.toNat)

/-- VST (R369): Stores a v register into part of a row with conversion and scale selection. -/
def execVst (n : CoreN) (q : Pred) (a : Reg) (b : VReg) (c : Reg) (h : Handle) (fmt : Fmt) (b32 : Bool) (part : BitVec 2) (expl : Bool) (imm : W16) (s : State) : Host.Outcome State Fault Refusal :=
  s.run (issueVst n.val q a.toNat b.toNat c.toNat h.toNat fmt.toNat b32 part.toNat expl imm.toNat)

/-- VADD (R366): Lane-wise vector addition. -/
def execVadd (n : CoreN) (q : Pred) (d a b : VReg) (rm : Rm) (s : State) : Host.Outcome State Fault Refusal :=
  s.run (issueVbin .add n.val q d.toNat a.toNat b.toNat rm)

/-- VSUB (R366): Lane-wise vector subtraction. -/
def execVsub (n : CoreN) (q : Pred) (d a b : VReg) (rm : Rm) (s : State) : Host.Outcome State Fault Refusal :=
  s.run (issueVbin .sub n.val q d.toNat a.toNat b.toNat rm)

/-- VMUL (R366): Lane-wise vector multiplication. -/
def execVmul (n : CoreN) (q : Pred) (d a b : VReg) (rm : Rm) (s : State) : Host.Outcome State Fault Refusal :=
  s.run (issueVbin .mul n.val q d.toNat a.toNat b.toNat rm)

/-- VMIN (R366): Lane-wise minimum. -/
def execVmin (n : CoreN) (q : Pred) (d a b : VReg) (s : State) : Host.Outcome State Fault Refusal :=
  s.run (issueVbin .min n.val q d.toNat a.toNat b.toNat .dyn)

/-- VMAX (R366): Lane-wise maximum. -/
def execVmax (n : CoreN) (q : Pred) (d a b : VReg) (s : State) : Host.Outcome State Fault Refusal :=
  s.run (issueVbin .max n.val q d.toNat a.toNat b.toNat .dyn)

/-- VFMA (R366): Lane-wise fused multiply-add. -/
def execVfma (n : CoreN) (q : Pred) (d a b c : VReg) (rm : Rm) (s : State) : Host.Outcome State Fault Refusal :=
  s.run (issueVfma n.val q d.toNat a.toNat b.toNat c.toNat rm)

/-- VABS (R943): Clears each lane's sign bit as a bit copy. -/
def execVabs (n : CoreN) (q : Pred) (d a : VReg) (s : State) : Host.Outcome State Fault Refusal :=
  s.run (issueVsign true n.val q d.toNat a.toNat)

/-- VNEG (R943): Inverts each lane's sign bit as a bit copy. -/
def execVneg (n : CoreN) (q : Pred) (d a : VReg) (s : State) : Host.Outcome State Fault Refusal :=
  s.run (issueVsign false n.val q d.toNat a.toNat)

/-- VBCAST (R943): Broadcasts f[A] to every lane. -/
def execVbcast (n : CoreN) (q : Pred) (d : VReg) (a : Reg) (s : State) : Host.Outcome State Fault Refusal :=
  s.run (issueVbcast n.val q d.toNat a.toNat)

/-- VEXT (R943): Extracts one lane into an f register. -/
def execVext (n : CoreN) (q : Pred) (d : Reg) (a : VReg) (b : Reg) (s : State) : Host.Outcome State Fault Refusal :=
  s.run (issueVext n.val q d.toNat a.toNat b.toNat)

/-- VINS (R943): Inserts f[A] into one lane. -/
def execVins (n : CoreN) (q : Pred) (d : VReg) (a b : Reg) (s : State) : Host.Outcome State Fault Refusal :=
  s.run (issueVins n.val q d.toNat a.toNat b.toNat)

/-- VSUM (R370): Sums 128 lanes in a fixed binary tree. -/
def execVsum (n : CoreN) (q : Pred) (d : Reg) (a : VReg) (rm : Rm) (s : State) : Host.Outcome State Fault Refusal :=
  s.run (issueVsum n.val q d.toNat a.toNat rm)

/-- VDOT (R370): Sums 128 rounded lane products in a fixed tree. -/
def execVdot (n : CoreN) (q : Pred) (d : Reg) (a b : VReg) (rm : Rm) (s : State) : Host.Outcome State Fault Refusal :=
  s.run (issueVdot n.val q d.toNat a.toNat b.toNat rm)

/-- VAMAX (R366): Largest lane magnitude into an f register. -/
def execVamax (n : CoreN) (q : Pred) (d : Reg) (a : VReg) (s : State) : Host.Outcome State Fault Refusal :=
  s.run (issueVamax n.val q d.toNat a.toNat)

/-- VRF_TSUM (R372): Two-part sum keeping the exact rounding error. -/
def execVrfTsum (n : CoreN) (q : Pred) (d c a b : VReg) (s : State) : Host.Outcome State Fault Refusal :=
  s.run (issueTsum n.val q d.toNat c.toNat a.toNat b.toNat)

/-- VRF_RES (R371): Residual formed exactly and rounded once. -/
def execVrfRes (n : CoreN) (q : Pred) (d a b c : VReg) (s : State) : Host.Outcome State Fault Refusal :=
  s.run (issueVres n.val q d.toNat a.toNat b.toNat c.toNat)

/-- VRF_EXP (R373): Exponent of the largest lane magnitude into x[D]. -/
def execVrfExp (n : CoreN) (q : Pred) (d : Reg) (a : VReg) (s : State) : Host.Outcome State Fault Refusal :=
  s.run (issueVexp n.val q d.toNat a.toNat)

/-- MXE_MMA (R374): Matrix engine product of two tiles into a PSP tile. -/
def execMxeMma (n : CoreN) (q : Pred) (t0 t1 : Tile) (h2 : Handle) (o2 : BitVec 10) (xa xb xc : Reg) (acc : Bool) (kch : BitVec 4) (qq : BitVec 2) (s : State) : Host.Outcome State Fault Refusal :=
  s.run (issueMma n.val q (.of t0) (.of t1) h2.toNat o2.toNat xa.toNat xb.toNat xc.toNat acc kch.toNat qq.toNat)

/-- RCOUNT (R402): Counts row elements satisfying a compare mode against a threshold. -/
def execRcount (n : CoreN) (q : Pred) (d a b : Reg) (h : Handle) (rows : BitVec 5) (mode : BitVec 3) (fmt : Fmt) (imm : W16) (s : State) : Host.Outcome State Fault Refusal :=
  s.run (issueRcount n.val q d.toNat a.toNat b.toNat h.toNat rows.toNat mode.toNat fmt.toNat imm.toNat)

end Sys2Proof.Machine
end

