-- ==== Sys2Proof/Machine/Dispatch.lean ====
section
/-!
DEFINITION. Machine/Dispatch.lean: the effect of a command on everything but the queue, one arm per constructor of
`Instr`. Each arm is one direct call of the command's meaning.
-/
namespace Sys2Proof.Machine

def exec (i : Instr) (s : State) : Host.Outcome State Fault Refusal :=
  match i with
  | .add n q d a b => Sys2Proof.Machine.execAdd n q d a b s
  | .sub n q d a b => Sys2Proof.Machine.execSub n q d a b s
  | .and n q d a b => Sys2Proof.Machine.execAnd n q d a b s
  | .or n q d a b => Sys2Proof.Machine.execOr n q d a b s
  | .xor n q d a b => Sys2Proof.Machine.execXor n q d a b s
  | .shl n q d a b => Sys2Proof.Machine.execShl n q d a b s
  | .shr n q d a b => Sys2Proof.Machine.execShr n q d a b s
  | .sra n q d a b => Sys2Proof.Machine.execSra n q d a b s
  | .min n q d a b => Sys2Proof.Machine.execMin n q d a b s
  | .max n q d a b => Sys2Proof.Machine.execMax n q d a b s
  | .minU n q d a b => Sys2Proof.Machine.execMinU n q d a b s
  | .maxU n q d a b => Sys2Proof.Machine.execMaxU n q d a b s
  | .sel n q d a b c => Sys2Proof.Machine.execSel n q d a b c s
  | .addI n q d a imm => Sys2Proof.Machine.execAddI n q d a imm s
  | .subI n q d a imm => Sys2Proof.Machine.execSubI n q d a imm s
  | .andI n q d a imm => Sys2Proof.Machine.execAndI n q d a imm s
  | .orI n q d a imm => Sys2Proof.Machine.execOrI n q d a imm s
  | .xorI n q d a imm => Sys2Proof.Machine.execXorI n q d a imm s
  | .shlI n q d a imm => Sys2Proof.Machine.execShlI n q d a imm s
  | .shrI n q d a imm => Sys2Proof.Machine.execShrI n q d a imm s
  | .sraI n q d a imm => Sys2Proof.Machine.execSraI n q d a imm s
  | .minI n q d a imm => Sys2Proof.Machine.execMinI n q d a imm s
  | .maxI n q d a imm => Sys2Proof.Machine.execMaxI n q d a imm s
  | .minUI n q d a imm => Sys2Proof.Machine.execMinUI n q d a imm s
  | .maxUI n q d a imm => Sys2Proof.Machine.execMaxUI n q d a imm s
  | .mulU n q d a b => Sys2Proof.Machine.execMulU n q d a b s
  | .mulS n q d a b => Sys2Proof.Machine.execMulS n q d a b s
  | .mulhU n q d a b => Sys2Proof.Machine.execMulhU n q d a b s
  | .mulhS n q d a b => Sys2Proof.Machine.execMulhS n q d a b s
  | .divU n q d a b => Sys2Proof.Machine.execDivU n q d a b s
  | .divS n q d a b => Sys2Proof.Machine.execDivS n q d a b s
  | .remU n q d a b => Sys2Proof.Machine.execRemU n q d a b s
  | .remS n q d a b => Sys2Proof.Machine.execRemS n q d a b s
  | .ld n q d a h imm => Sys2Proof.Machine.execLd n q d a h imm s
  | .st n q a b h imm => Sys2Proof.Machine.execSt n q a b h imm s
  | .ldF n q d a h imm => Sys2Proof.Machine.execLdF n q d a h imm s
  | .stF n q a b h imm => Sys2Proof.Machine.execStF n q a b h imm s
  | .fadd n q d a b rm => Sys2Proof.Machine.execFadd n q d a b rm s
  | .fsub n q d a b rm => Sys2Proof.Machine.execFsub n q d a b rm s
  | .fmul n q d a b rm => Sys2Proof.Machine.execFmul n q d a b rm s
  | .fmadd n q d a b c rm => Sys2Proof.Machine.execFmadd n q d a b c rm s
  | .fmin n q d a b => Sys2Proof.Machine.execFmin n q d a b s
  | .fmax n q d a b => Sys2Proof.Machine.execFmax n q d a b s
  | .fabs n q d a => Sys2Proof.Machine.execFabs n q d a s
  | .fneg n q d a => Sys2Proof.Machine.execFneg n q d a s
  | .fdiv n q d a b rm => Sys2Proof.Machine.execFdiv n q d a b rm s
  | .fsqrt n q d a rm => Sys2Proof.Machine.execFsqrt n q d a rm s
  | .fmvX n q d a => Sys2Proof.Machine.execFmvX n q d a s
  | .fmvF n q d a => Sys2Proof.Machine.execFmvF n q d a s
  | .fcvtSL n q d a rm => Sys2Proof.Machine.execFcvtSL n q d a rm s
  | .fcvtSLu n q d a rm => Sys2Proof.Machine.execFcvtSLu n q d a rm s
  | .fcvtLS n q d a rm => Sys2Proof.Machine.execFcvtLS n q d a rm s
  | .fcvtLuS n q d a rm => Sys2Proof.Machine.execFcvtLuS n q d a rm s
  | .fli n q d imm => Sys2Proof.Machine.execFli n q d imm s
  | .jmp n q imm => Sys2Proof.Machine.execJmp n q imm s
  | .jmpr n q a => Sys2Proof.Machine.execJmpr n q a s
  | .call n q d imm => Sys2Proof.Machine.execCall n q d imm s
  | .loop n q d a imm => Sys2Proof.Machine.execLoop n q d a imm s
  | .cmpEq n q d a b => Sys2Proof.Machine.execCmpEq n q d a b s
  | .cmpNe n q d a b => Sys2Proof.Machine.execCmpNe n q d a b s
  | .cmpLt n q d a b => Sys2Proof.Machine.execCmpLt n q d a b s
  | .cmpGe n q d a b => Sys2Proof.Machine.execCmpGe n q d a b s
  | .cmpLtu n q d a b => Sys2Proof.Machine.execCmpLtu n q d a b s
  | .cmpGeu n q d a b => Sys2Proof.Machine.execCmpGeu n q d a b s
  | .cmpEqI n q d a imm => Sys2Proof.Machine.execCmpEqI n q d a imm s
  | .cmpNeI n q d a imm => Sys2Proof.Machine.execCmpNeI n q d a imm s
  | .cmpLtI n q d a imm => Sys2Proof.Machine.execCmpLtI n q d a imm s
  | .cmpGeI n q d a imm => Sys2Proof.Machine.execCmpGeI n q d a imm s
  | .cmpLtuI n q d a imm => Sys2Proof.Machine.execCmpLtuI n q d a imm s
  | .cmpGeuI n q d a imm => Sys2Proof.Machine.execCmpGeuI n q d a imm s
  | .fcmpEq n q d a b => Sys2Proof.Machine.execFcmpEq n q d a b s
  | .fcmpLt n q d a b => Sys2Proof.Machine.execFcmpLt n q d a b s
  | .fcmpLe n q d a b => Sys2Proof.Machine.execFcmpLe n q d a b s
  | .fcmpUn n q d a b => Sys2Proof.Machine.execFcmpUn n q d a b s
  | .pand n q d a b => Sys2Proof.Machine.execPand n q d a b s
  | .por n q d a b => Sys2Proof.Machine.execPor n q d a b s
  | .pxor n q d a b => Sys2Proof.Machine.execPxor n q d a b s
  | .pandn n q d a b => Sys2Proof.Machine.execPandn n q d a b s
  | .srRead n q d sr => Sys2Proof.Machine.execSrRead n q d sr s
  | .srWrite n q a => Sys2Proof.Machine.execSrWrite n q a s
  | .syncAdd n q a b => Sys2Proof.Machine.execSyncAdd n q a b s
  | .syncAddI n q a imm => Sys2Proof.Machine.execSyncAddI n q a imm s
  | .syncSet n q a b => Sys2Proof.Machine.execSyncSet n q a b s
  | .syncRead n q d a => Sys2Proof.Machine.execSyncRead n q d a s
  | .syncWait n q a b => Sys2Proof.Machine.execSyncWait n q a b s
  | .phase n q ph => Sys2Proof.Machine.execPhase n q ph s
  | .emberSave n q a b h rows first => Sys2Proof.Machine.execEmberSave n q a b h rows first s
  | .jobDone n q a b c h rows status first => Sys2Proof.Machine.execJobDone n q a b c h rows status first s
  | .specAccept n q a => Sys2Proof.Machine.execSpecAccept n q a s
  | .vld n q d a h fmt b32 part imm => Sys2Proof.Machine.execVld n q d a h fmt b32 part imm s
  | .vst n q a b c h fmt b32 part expl imm => Sys2Proof.Machine.execVst n q a b c h fmt b32 part expl imm s
  | .vadd n q d a b rm => Sys2Proof.Machine.execVadd n q d a b rm s
  | .vsub n q d a b rm => Sys2Proof.Machine.execVsub n q d a b rm s
  | .vmul n q d a b rm => Sys2Proof.Machine.execVmul n q d a b rm s
  | .vfma n q d a b c rm => Sys2Proof.Machine.execVfma n q d a b c rm s
  | .vmin n q d a b => Sys2Proof.Machine.execVmin n q d a b s
  | .vmax n q d a b => Sys2Proof.Machine.execVmax n q d a b s
  | .vabs n q d a => Sys2Proof.Machine.execVabs n q d a s
  | .vneg n q d a => Sys2Proof.Machine.execVneg n q d a s
  | .vbcast n q d a => Sys2Proof.Machine.execVbcast n q d a s
  | .vext n q d a b => Sys2Proof.Machine.execVext n q d a b s
  | .vins n q d a b => Sys2Proof.Machine.execVins n q d a b s
  | .vsum n q d a rm => Sys2Proof.Machine.execVsum n q d a rm s
  | .vdot n q d a b rm => Sys2Proof.Machine.execVdot n q d a b rm s
  | .vamax n q d a => Sys2Proof.Machine.execVamax n q d a s
  | .vrfTsum n q d c a b => Sys2Proof.Machine.execVrfTsum n q d c a b s
  | .vrfRes n q d a b c => Sys2Proof.Machine.execVrfRes n q d a b c s
  | .vrfExp n q d a => Sys2Proof.Machine.execVrfExp n q d a s
  | .mxeMma n q t0 t1 h2 o2 xa xb xc acc kch qq => Sys2Proof.Machine.execMxeMma n q t0 t1 h2 o2 xa xb xc acc kch qq s
  | .dmaRd n q t f1 b1 xa xb xc async => Sys2Proof.Machine.execDmaRd n q t f1 b1 xa xb xc async s
  | .dmaWr n q t f1 b1 xa xb xc => Sys2Proof.Machine.execDmaWr n q t f1 b1 xa xb xc s
  | .rwPut n q h0 o0 n0 h1 o1 xb xc => Sys2Proof.Machine.execRwPut n q h0 o0 n0 h1 o1 xb xc s
  | .ringPush n q h0 o0 n0 h1 xb => Sys2Proof.Machine.execRingPush n q h0 o0 n0 h1 xb s
  | .ringHead n q d h => Sys2Proof.Machine.execRingHead n q d h s
  | .ringAvail n q d h => Sys2Proof.Machine.execRingAvail n q d h s
  | .ringPop n q a h => Sys2Proof.Machine.execRingPop n q a h s
  | .arrWait n q b k => Sys2Proof.Machine.execArrWait n q b k s
  | .arrRead n q d k => Sys2Proof.Machine.execArrRead n q d k s
  | .arrSet n q b k => Sys2Proof.Machine.execArrSet n q b k s
  | .xferFence n q => Sys2Proof.Machine.execXferFence n q s
  | .rcount n q d a b h rows mode fmt imm => Sys2Proof.Machine.execRcount n q d a b h rows mode fmt imm s
  | .illegalInstruction n w => Sys2Proof.Machine.execIllegalInstruction n w s
  | .codeEndFault n => Sys2Proof.Machine.execCodeEndFault n s
  | .longOpComplete n => Sys2Proof.Machine.execLongOpComplete n s
  | .mxeComplete n => Sys2Proof.Machine.execMxeComplete n s
  | .vstWriteDone n => Sys2Proof.Machine.execVstWriteDone n s
  | .scratchpadGrant n mem bank upset row word ue => Sys2Proof.Machine.execScratchpadGrant n mem bank upset row word ue s
  | .emberReplace n => Sys2Proof.Machine.execEmberReplace n s
  | .jobDoneRetire n => Sys2Proof.Machine.execJobDoneRetire n s
  | .syncReadReturn n => Sys2Proof.Machine.execSyncReadReturn n s
  | .waitGeResume n => Sys2Proof.Machine.execWaitGeResume n s
  | .arrWaitResume n => Sys2Proof.Machine.execArrWaitResume n s
  | .xferFenceResume n => Sys2Proof.Machine.execXferFenceResume n s
  | .ringPushResume n => Sys2Proof.Machine.execRingPushResume n s
  | .headCountReport n h => Sys2Proof.Machine.execHeadCountReport n h s
  | .dmaTransferComplete n host => Sys2Proof.Machine.execDmaTransferComplete n host s
  | .dmaRowResident n host => Sys2Proof.Machine.execDmaRowResident n host s
  | .remoteTransferComplete n => Sys2Proof.Machine.execRemoteTransferComplete n s
  | .remoteRowArrive n fab => Sys2Proof.Machine.execRemoteRowArrive n fab s
  | .dmaErrorResponse n => Sys2Proof.Machine.execDmaErrorResponse n s
  | .icacheMissFill n line => Sys2Proof.Machine.execIcacheMissFill n line s
  | .branchMispredict n fetched => Sys2Proof.Machine.execBranchMispredict n fetched s
  | .runAheadEnter n => Sys2Proof.Machine.execRunAheadEnter n s
  | .runAheadIssue n w => Sys2Proof.Machine.execRunAheadIssue n w s
  | .leaseGrant n => Sys2Proof.Machine.execLeaseGrant n s
  | .leaseReturn n => Sys2Proof.Machine.execLeaseReturn n s
  | .leaseJoinFloat k => Sys2Proof.Machine.execLeaseJoinFloat k s
  | .reservationRaise n => Sys2Proof.Machine.execReservationRaise n s
  | .budgetExpire n => Sys2Proof.Machine.execBudgetExpire n s
  | .emberLateCheck j => Sys2Proof.Machine.execEmberLateCheck j s
  | .comparatorFire j => Sys2Proof.Machine.execComparatorFire j s
  | .resultRowsWrite j emberUe => Sys2Proof.Machine.execResultRowsWrite j emberUe s
  | .completionWrite j => Sys2Proof.Machine.execCompletionWrite j s
  | .msixUnmask f v => Sys2Proof.Machine.execMsixUnmask f v s
  | .doorbellSqTail f off data => Sys2Proof.Machine.execDoorbellSqTail f off data s
  | .doorbellCqHead f off data => Sys2Proof.Machine.execDoorbellCqHead f off data s
  | .doorbellOvfack f off data => Sys2Proof.Machine.execDoorbellOvfack f off data s
  | .stokerFetch u entry => Sys2Proof.Machine.execStokerFetch u entry s
  | .stokerWatchReport j => Sys2Proof.Machine.execStokerWatchReport j s
  | .deadlineWaitingExpire j => Sys2Proof.Machine.execDeadlineWaitingExpire j s
  | .deadlineReadyExpire j => Sys2Proof.Machine.execDeadlineReadyExpire j s
  | .dispatch t => Sys2Proof.Machine.execDispatch t s
  | .outboundSpaceFree bytes => Sys2Proof.Machine.execOutboundSpaceFree bytes s
  | .jobLoadComplete j host => Sys2Proof.Machine.execJobLoadComplete j host s
  | .fetchReadFailure r => Sys2Proof.Machine.execFetchReadFailure r s
  | .measurementDeliver j => Sys2Proof.Machine.execMeasurementDeliver j s
  | .versionedFlip n => Sys2Proof.Machine.execVersionedFlip n s
  | .restartStart j => Sys2Proof.Machine.execRestartStart j s
  | .poisonConsume n k flit => Sys2Proof.Machine.execPoisonConsume n k flit s
  | .poisonedWriteStore flit writer => Sys2Proof.Machine.execPoisonedWriteStore flit writer s
  | .scratchpadUe n mem at_ spec => Sys2Proof.Machine.execScratchpadUe n mem at_ spec s
  | .fenceHwTrigger n late => Sys2Proof.Machine.execFenceHwTrigger n late s
  | .promotion pass store => Sys2Proof.Machine.execPromotion pass store s
  | .drainSwitchApply ok store => Sys2Proof.Machine.execDrainSwitchApply ok store s
  | .queueDestroyDone u => Sys2Proof.Machine.execQueueDestroyDone u s
  | .rowRemapApply n store => Sys2Proof.Machine.execRowRemapApply n store s
  | .coreMaintTestEnd n pass sig store => Sys2Proof.Machine.execCoreMaintTestEnd n pass sig store s
  | .mbxRing f => Sys2Proof.Machine.execMbxRing f s
  | .mbxAck f => Sys2Proof.Machine.execMbxAck f s
  | .asyncResponsePlace f => Sys2Proof.Machine.execAsyncResponsePlace f s
  | .deferredCommandFinish f opcode seq data ok => Sys2Proof.Machine.execDeferredCommandFinish f opcode seq data ok s
  | .getInfo f => Sys2Proof.Machine.execGetInfo f s
  | .createQueue f => Sys2Proof.Machine.execCreateQueue f s
  | .destroyQueue f => Sys2Proof.Machine.execDestroyQueue f s
  | .loadProgram f => Sys2Proof.Machine.execLoadProgram f s
  | .bindProgram f => Sys2Proof.Machine.execBindProgram f s
  | .unbind f => Sys2Proof.Machine.execUnbind f s
  | .tenantCreate f => Sys2Proof.Machine.execTenantCreate f s
  | .tenantDestroy f store => Sys2Proof.Machine.execTenantDestroy f store s
  | .syncAllocAlloc f => Sys2Proof.Machine.execSyncAllocAlloc f s
  | .syncAllocFree f => Sys2Proof.Machine.execSyncAllocFree f s
  | .setConfigTimeSrc f store => Sys2Proof.Machine.execSetConfigTimeSrc f store s
  | .setConfigBackstepEn f store => Sys2Proof.Machine.execSetConfigBackstepEn f store s
  | .setConfigPerstScope f store => Sys2Proof.Machine.execSetConfigPerstScope f store s
  | .setConfigBellowsPool f => Sys2Proof.Machine.execSetConfigBellowsPool f s
  | .setConfigActiveCores f => Sys2Proof.Machine.execSetConfigActiveCores f s
  | .setConfigMemEcc f => Sys2Proof.Machine.execSetConfigMemEcc f s
  | .setConfigQueueParams f => Sys2Proof.Machine.execSetConfigQueueParams f s
  | .configEpochStatus f => Sys2Proof.Machine.execConfigEpochStatus f s
  | .fenceCore f store => Sys2Proof.Machine.execFenceCore f store s
  | .coreMaint f => Sys2Proof.Machine.execCoreMaint f s
  | .coreReturnActive f => Sys2Proof.Machine.execCoreReturnActive f s
  | .coreReturnBanked f store => Sys2Proof.Machine.execCoreReturnBanked f store s
  | .rowRemap f => Sys2Proof.Machine.execRowRemap f s
  | .sleConfigLoop f => Sys2Proof.Machine.execSleConfigLoop f s
  | .sleConfigLinks f => Sys2Proof.Machine.execSleConfigLinks f s
  | .sleConfigInmap f => Sys2Proof.Machine.execSleConfigInmap f s
  | .sleConfigOutmap f => Sys2Proof.Machine.execSleConfigOutmap f s
  | .sleConfigLimits f => Sys2Proof.Machine.execSleConfigLimits f s
  | .sleConfigInteg f => Sys2Proof.Machine.execSleConfigInteg f s
  | .sleConfigGain f => Sys2Proof.Machine.execSleConfigGain f s
  | .sleConfigApply f store => Sys2Proof.Machine.execSleConfigApply f store s
  | .sleStart f => Sys2Proof.Machine.execSleStart f s
  | .sleStop f => Sys2Proof.Machine.execSleStop f s
  | .homeAxis f => Sys2Proof.Machine.execHomeAxis f s
  | .camConfigInput f => Sys2Proof.Machine.execCamConfigInput f s
  | .camConfigNr f => Sys2Proof.Machine.execCamConfigNr f s
  | .camConfigColour f => Sys2Proof.Machine.execCamConfigColour f s
  | .camConfigTables f => Sys2Proof.Machine.execCamConfigTables f s
  | .camConfigOutput f => Sys2Proof.Machine.execCamConfigOutput f s
  | .camConfigLinks f => Sys2Proof.Machine.execCamConfigLinks f s
  | .camConfigApply f => Sys2Proof.Machine.execCamConfigApply f s
  | .ethConfigPort f => Sys2Proof.Machine.execEthConfigPort f s
  | .ethConfigIp f => Sys2Proof.Machine.execEthConfigIp f s
  | .ethConfigQos f => Sys2Proof.Machine.execEthConfigQos f s
  | .ethConfigGcl f => Sys2Proof.Machine.execEthConfigGcl f s
  | .ethConfigGclent f => Sys2Proof.Machine.execEthConfigGclent f s
  | .ethConfigCycin f => Sys2Proof.Machine.execEthConfigCycin f s
  | .ethConfigCycout f => Sys2Proof.Machine.execEthConfigCycout f s
  | .ethConfigApply f store => Sys2Proof.Machine.execEthConfigApply f store s
  | .pstSessionOpen f store => Sys2Proof.Machine.execPstSessionOpen f store s
  | .pstSessionClose f store => Sys2Proof.Machine.execPstSessionClose f store s
  | .pstSessionQuery f => Sys2Proof.Machine.execPstSessionQuery f s
  | .fwStage f => Sys2Proof.Machine.execFwStage f s
  | .fwActivate f => Sys2Proof.Machine.execFwActivate f s
  | .fwCommit f store => Sys2Proof.Machine.execFwCommit f store s
  | .fwRollback f store => Sys2Proof.Machine.execFwRollback f store s
  | .cfgstoreWrite f => Sys2Proof.Machine.execCfgstoreWrite f s
  | .cfgstoreRead f => Sys2Proof.Machine.execCfgstoreRead f s
  | .debugUnlockChallenge f nonce => Sys2Proof.Machine.execDebugUnlockChallenge f nonce s
  | .debugUnlockAnswer f => Sys2Proof.Machine.execDebugUnlockAnswer f s
  | .fwreadySet => Sys2Proof.Machine.execFwreadySet s
  | .synCtrWrite f c narrow data => Sys2Proof.Machine.execSynCtrWrite f c narrow data s
  | .synCtrLowRead f c => Sys2Proof.Machine.execSynCtrLowRead f c s
  | .synAddWrite f c delta => Sys2Proof.Machine.execSynAddWrite f c delta s
  | .synArmCtlWrite f a data => Sys2Proof.Machine.execSynArmCtlWrite f a data s
  | .counterApply c srcs => Sys2Proof.Machine.execCounterApply c srcs s
  | .armSlotFire a => Sys2Proof.Machine.execArmSlotFire a s
  | .armReleaseTail a => Sys2Proof.Machine.execArmReleaseTail a s
  | .armIrqMessage a => Sys2Proof.Machine.execArmIrqMessage a s
  | .syncCounterUe c => Sys2Proof.Machine.execSyncCounterUe c s
  | .glbTimestepWrite kiln part data => Sys2Proof.Machine.execGlbTimestepWrite kiln part data s
  | .glbTimeadjWrite kiln data => Sys2Proof.Machine.execGlbTimeadjWrite kiln data s
  | .glbTimeLowRead f => Sys2Proof.Machine.execGlbTimeLowRead f s
  | .stkVtimeLowRead f => Sys2Proof.Machine.execStkVtimeLowRead f s
  | .tclkTick => Sys2Proof.Machine.execTclkTick s
  | .glbRstctlWrite kiln data => Sys2Proof.Machine.execGlbRstctlWrite kiln data s
  | .blwPoolWrite data => Sys2Proof.Machine.execBlwPoolWrite data s
  | .blwPeakRead f => Sys2Proof.Machine.execBlwPeakRead f s
  | .errLogptrTailWrite tail => Sys2Proof.Machine.execErrLogptrTailWrite tail s
  | .registerWrite w off wide data => Sys2Proof.Machine.execRegisterWrite w off wide data s
  | .deviceFatalError unit => Sys2Proof.Machine.execDeviceFatalError unit s
  | .fatalResetTimer => Sys2Proof.Machine.execFatalResetTimer s
  | .kilnSramUe addr => Sys2Proof.Machine.execKilnSramUe addr s
  | .kilnWatchdogExpire => Sys2Proof.Machine.execKilnWatchdogExpire s
  | .powerOnReset => Sys2Proof.Machine.execPowerOnReset s
  | .rstNAssert ns => Sys2Proof.Machine.execRstNAssert ns s
  | .rstNRise boot refsel => Sys2Proof.Machine.execRstNRise boot refsel s
  | .pllLock big trainFail testFail flash => Sys2Proof.Machine.execPllLock big trainFail testFail flash s
  | .warmReset cause => Sys2Proof.Machine.execWarmReset cause s
  | .perstNAssert => Sys2Proof.Machine.execPerstNAssert s
  | .configRequest f r => Sys2Proof.Machine.execConfigRequest f r s
  | .flr f => Sys2Proof.Machine.execFlr f s
  | .flrComplete f => Sys2Proof.Machine.execFlrComplete f s
  | .pfFlr => Sys2Proof.Machine.execPfFlr s
  | .vfEnableClear en num => Sys2Proof.Machine.execVfEnableClear en num s
  | .pcieLinkDown => Sys2Proof.Machine.execPcieLinkDown s
  | .bar4Write f off data ep => Sys2Proof.Machine.execBar4Write f off data ep s
  | .bar4Read f off len => Sys2Proof.Machine.execBar4Read f off len s
  | .hostReadError r ep => Sys2Proof.Machine.execHostReadError r ep s
  | .thermalReading tj => Sys2Proof.Machine.execThermalReading tj s
  | .thermalTrip sensor tj => Sys2Proof.Machine.execThermalTrip sensor tj s
  | .thermalHoldRelease => Sys2Proof.Machine.execThermalHoldRelease s
  | .dramRefresh ch => Sys2Proof.Machine.execDramRefresh ch s
  | .patrolScrub r => Sys2Proof.Machine.execPatrolScrub r s
  | .dramReadUe e => Sys2Proof.Machine.execDramReadUe e s
  | .portSlotHold port => Sys2Proof.Machine.execPortSlotHold port s
  | .sampleBoundary => Sys2Proof.Machine.execSampleBoundary s
  | .inputCheck late => Sys2Proof.Machine.execInputCheck late s
  | .outputInstant => Sys2Proof.Machine.execOutputInstant s
  | .sampctrAdd => Sys2Proof.Machine.execSampctrAdd s
  | .commitSeen => Sys2Proof.Machine.execCommitSeen s
  | .trajectoryLoadDone fab => Sys2Proof.Machine.execTrajectoryLoadDone fab s
  | .quadratureEdge c a b => Sys2Proof.Machine.execQuadratureEdge c a b s
  | .indexPulse c => Sys2Proof.Machine.execIndexPulse c s
  | .ssiFrameStart c => Sys2Proof.Machine.execSsiFrameStart c s
  | .ssiFrameEnd c bits => Sys2Proof.Machine.execSsiFrameEnd c bits s
  | .adcResult port l0 l1 l2 l3 => Sys2Proof.Machine.execAdcResult port l0 l1 l2 l3 s
  | .dacSend => Sys2Proof.Machine.execDacSend s
  | .pwmPeriodStart => Sys2Proof.Machine.execPwmPeriodStart s
  | .stepPulse a => Sys2Proof.Machine.execStepPulse a s
  | .inputRawEdge k level => Sys2Proof.Machine.execInputRawEdge k level s
  | .debounceAccept k => Sys2Proof.Machine.execDebounceAccept k s
  | .frameStart p h num => Sys2Proof.Machine.execFrameStart p h num s
  | .frameEnd p h num => Sys2Proof.Machine.execFrameEnd p h num s
  | .csiLongPacket p h dt crcOk overrun pixels => Sys2Proof.Machine.execCsiLongPacket p h dt crcOk overrun pixels s
  | .descriptorWrite p => Sys2Proof.Machine.execDescriptorWrite p s
  | .ethFrameReceive p fcsOk bytes => Sys2Proof.Machine.execEthFrameReceive p fcsOk bytes s
  | .pstRequestProcess p => Sys2Proof.Machine.execPstRequestProcess p s
  | .solveResponseSent p => Sys2Proof.Machine.execSolveResponseSent p s
  | .ethLinkDown p => Sys2Proof.Machine.execEthLinkDown p s
  | .safeCyclicFrame => Sys2Proof.Machine.execSafeCyclicFrame s
  | .gateEvent p => Sys2Proof.Machine.execGateEvent p s
  | .gclConfigChange p => Sys2Proof.Machine.execGclConfigChange p s
  | .transmitSelect p => Sys2Proof.Machine.execTransmitSelect p s
  | .ptpSyncProcess p err adj => Sys2Proof.Machine.execPtpSyncProcess p err adj s
  | .ptpLockTimeout => Sys2Proof.Machine.execPtpLockTimeout s
  | .ptpMessageSend p kind => Sys2Proof.Machine.execPtpMessageSend p kind s
  | .kilnNeighbourReply p => Sys2Proof.Machine.execKilnNeighbourReply p s
  | .breakpointHalt n => Sys2Proof.Machine.execBreakpointHalt n s
  | .dbgResume n => Sys2Proof.Machine.execDbgResume n s
  | .dbgExit => Sys2Proof.Machine.execDbgExit s
  | .bypass code tdi => Sys2Proof.Machine.execBypass code tdi s
  | .idcode => Sys2Proof.Machine.execIdcode s
  | .samplePreload scan => Sys2Proof.Machine.execSamplePreload scan s
  | .extest scan => Sys2Proof.Machine.execExtest scan s
  | .clamp tdi => Sys2Proof.Machine.execClamp tdi s
  | .highz tdi => Sys2Proof.Machine.execHighz tdi s
  | .dbgacc r => Sys2Proof.Machine.execDbgacc r s
  | .readTemperature1 => Sys2Proof.Machine.execReadTemperature1 s
  | .mfrModel => Sys2Proof.Machine.execMfrModel s
  | .mfrSerial => Sys2Proof.Machine.execMfrSerial s
  | .rcFieldRead w off wide => Sys2Proof.Machine.execRcFieldRead w off wide s
  | .pcieLinkUp speed width => Sys2Proof.Machine.execPcieLinkUp speed width s
  | .ethLinkUp p => Sys2Proof.Machine.execEthLinkUp p s
  | .perstNDeassert => Sys2Proof.Machine.execPerstNDeassert s
  | .powerLoss io => Sys2Proof.Machine.execPowerLoss io s
  | .dramTemperatureChange hot => Sys2Proof.Machine.execDramTemperatureChange hot s
  | .captureDiscard k => Sys2Proof.Machine.execCaptureDiscard k s
  | .preemptionVerifySuccess p => Sys2Proof.Machine.execPreemptionVerifySuccess p s
  | .tapReset => Sys2Proof.Machine.execTapReset s
  | .coreVidChange up => Sys2Proof.Machine.execCoreVidChange up s

end Sys2Proof.Machine
end

