-- ==== Sys2Proof/Safety.lean ====
section
/-!
DEFINITION. Safety.lean: the terms in which the claims are made: a command that completes, a core instruction that can issue, and what
an instruction leaves unchanged.
-/
namespace Sys2Proof.Machine

/-- The tables of bytes keep their canonical form: DRAM, the flash, and each core's scratchpads and ember store. -/
def Dev.memWf (d : Dev) : Bool :=
  Memory.wf 0 d.mem.dram && Memory.wf 0xFF d.kiln.flash &&
  d.cores.all (fun e => Memory.wf 0 e.2.sp && Memory.wf 0 e.2.estore)

/-- The command completes: it answers a next state, the waiting commands are untouched, and `P` holds of the device. -/
def Gives (i : Instr) (s : State) (P : Dev → Prop) : Prop :=
  ∃ t, exec i s = .next t ∧ t.pending = s.pending ∧ P t.dev

/-! ### Core instructions -/

/-- An instruction of core `n` with predicate field `q` that reads and writes the registers `rs` can issue: the core runs job `j` with
program `p`, nothing holds its issue, its next instruction is in its cache, no breakpoint stands there, none of the registers is pending,
and the predicate is on (R282, R283, R290, R294). The job's end is not fixed (R41), and no squash of it runs (R473). -/
structure CanIssue (d : Dev) (n : Nat) (q : Pred) (rs : List RegId) (j : Job) (p : Prog) : Prop where
  job : ∃ k, d.coreJob n = some (k, j)
  prog : d.prog j.prog = some p
  noBreak : d.atBreak n = false
  ready : (d.core n).ready p = true
  field : predReserved q = false
  free : (d.core n).pendingAny (.p q.idx.toNat :: rs) = false
  on : (d.core n).predOn q = true
  live : j.fin = none
  settled : (d.core n).rows.drop = false

/-- No operation occupies the unit. -/
def Core.unitFree (c : Core) (u : OpUnit) : Prop := ∀ o ∈ c.ops, o.unit = u → o.occ = 0

/-- What lies outside core `n`, apart from the job table's account of the run (START) and the Bellows' account of leases and peaks, is
unchanged. -/
structure Outside (d t : Dev) (n : Nat) : Prop where
  cclk : t.cclk = d.cclk
  fno : t.fno = d.fno
  cores : ∀ m, m ≠ n → t.core m = d.core m
  fuse : t.fuse = d.fuse
  glb : t.glb = d.glb
  kiln : t.kiln = d.kiln
  mbx : t.mbx = d.mbx
  ten : t.ten = d.ten
  progs : t.progs = d.progs
  queues : t.stk.queues = d.stk.queues
  syn : t.syn = d.syn
  sle : t.sle = d.sle
  mio : t.mio = d.mio
  cams : t.cams = d.cams
  eths : t.eths = d.eths
  net : t.net = d.net
  pcie : t.pcie = d.pcie
  mem : t.mem = d.mem
  err : t.err = d.err
  dbg : t.dbg = d.dbg
  pins : t.pins = d.pins
  free : t.free = d.free
  out : t.out = d.out

/-- The x registers are unchanged. -/
def SameX (c c' : Core) : Prop := ∀ r, c'.getX r = c.getX r
/-- The f registers are unchanged. -/
def SameF (c c' : Core) : Prop := ∀ r, c'.getF r = c.getF r
/-- The p registers are unchanged. -/
def SameP (c c' : Core) : Prop := ∀ r, c'.getP r = c.getP r
/-- The v registers are unchanged. -/
def SameV (c c' : Core) : Prop := ∀ r l, c'.getL r l = c.getL r l

/-- The scratchpads, the ember, the handles, rings, counters and versioned rows, the queues, the generators, the wait and the recorded
events of a core are unchanged. -/
structure SameStore (c c' : Core) : Prop where
  sp : c'.sp = c.sp
  estore : c'.estore = c.estore
  ember : c'.ember = c.ember
  rows : c'.rows = c.rows
  dmaq : c'.dmaq = c.dmaq
  rq : c'.rq = c.rq
  gv : c'.gv = c.gv
  gd : c'.gd = c.gd
  gdNext : c'.gdNext = c.gdNext
  wait : c'.wait = c.wait
  evt : c'.evt = c.evt
  fault : c'.fault = c.fault
  sperr : c'.sperr = c.sperr
  tag : c'.tag = c.tag
  job : c'.job = c.job
  run : c'.run = c.run
  st : c'.st = c.st
  fpc : c'.regs.fpc = c.regs.fpc
  phase : c'.regs.phase = c.regs.phase

/-- The instruction takes one CCLK and writes only x[d], with `w`; a write of x0 is ignored (R276). -/
def XResult (i : Instr) (s : State) (n d : Nat) (w : W64) : Prop :=
  let c := s.dev.core n
  Gives i s fun t => Outside s.dev t n ∧ SameStore c (t.core n) ∧ (t.core n).ops = c.ops.map Op.passed ∧
    (∀ r, (t.core n).getX r = if r = d ∧ r ≠ 0 then w else c.getX r) ∧
    SameF c (t.core n) ∧ SameP c (t.core n) ∧ SameV c (t.core n) ∧ (t.core n).regs.pc = c.regs.pc + 1

/-- The instruction takes one CCLK and writes only f[d], with `w`. -/
def FResult (i : Instr) (s : State) (n d : Nat) (w : W32) : Prop :=
  let c := s.dev.core n
  Gives i s fun t => Outside s.dev t n ∧ SameStore c (t.core n) ∧ (t.core n).ops = c.ops.map Op.passed ∧
    (∀ r, (t.core n).getF r = if r = d then w else c.getF r) ∧
    SameX c (t.core n) ∧ SameP c (t.core n) ∧ SameV c (t.core n) ∧ (t.core n).regs.pc = c.regs.pc + 1

/-- The instruction takes one CCLK and writes only p[d], with `b`; a write of p0 is ignored (R276). -/
def PResult (i : Instr) (s : State) (n d : Nat) (b : Bool) : Prop :=
  let c := s.dev.core n
  Gives i s fun t => Outside s.dev t n ∧ SameStore c (t.core n) ∧ (t.core n).ops = c.ops.map Op.passed ∧
    (∀ r, (t.core n).getP r = if r = d ∧ r ≠ 0 then b else c.getP r) ∧
    SameX c (t.core n) ∧ SameF c (t.core n) ∧ SameV c (t.core n) ∧ (t.core n).regs.pc = c.regs.pc + 1

/-- The registers of a core are unchanged but for the pc and the budget counter. -/
def SameRegs (c c' : Core) : Prop :=
  SameX c c' ∧ SameF c c' ∧ SameP c c' ∧ SameV c c' ∧ c'.regs.fpc = c.regs.fpc ∧ c'.regs.phase = c.regs.phase

/-- The instruction issues in one CCLK and leaves one operation in flight: it has the kind `k`, occupies `u`, keeps the registers `ds`
pending, and its latency ends `lat` CCLK after its issue. Nothing else changes on the core but the pc, and SHD bits and generators where a
store takes its data. -/
def Starts (i : Instr) (s : State) (n : Nat) (k : OpKind) (u : OpUnit) (ds : List RegId) (lat : Nat) : Prop :=
  let c := s.dev.core n
  Gives i s fun t => Outside s.dev t n ∧ SameRegs c (t.core n) ∧ (t.core n).sp = c.sp ∧ (t.core n).estore = c.estore ∧
    (t.core n).ember = c.ember ∧ (t.core n).wait = c.wait ∧ (t.core n).dmaq = c.dmaq ∧ (t.core n).rq = c.rq ∧
    (t.core n).regs.pc = c.regs.pc + 1 ∧
    ∃ o, (t.core n).ops = c.ops.map Op.passed ++ [o] ∧ o.kind = k ∧ o.unit = u ∧ o.dst = realRegs ds ∧ o.left = lat - 1

/-- The instruction issues in one CCLK, moves the pc on, and leaves the registers and everything outside its core as they were; `P` holds of
its core. -/
def Issues (i : Instr) (s : State) (n : Nat) (P : Core → Prop) : Prop :=
  let c := s.dev.core n
  Gives i s fun t => Outside s.dev t n ∧ SameRegs c (t.core n) ∧ (t.core n).sp = c.sp ∧ (t.core n).regs.pc = c.regs.pc + 1 ∧ P (t.core n)

/-- No wait of a PRESOLVING job and no flip that is due holds a write to rows of handle `h` (R472, R474). -/
def Core.writable (c : Core) (pres : Bool) (h : HDesc) : Prop := (h.presolveWaits = true → pres = false) ∧ c.rows.flip = false

/-- Record `r` has been written, and nothing has been recorded since (R858, R949). -/
def Recorded (d t : Dev) (r : Rec) : Prop :=
  SMap.get none t.err.log d.err.head = some (d.mkRec r) ∧ t.err.seq = d.err.seq + 1 ∧ t.err.stat.getLsbD (r.cls - 1) = true

/-- Device memory holds `bs` at `a`, and its other bytes are as before. -/
def Placed (m m' : Mem) (a : Nat) (bs : List Byte) : Prop :=
  ∀ x, m'.byte x = if a ≤ x ∧ x < a + bs.length then bs.getD (x - a) 0 else m.byte x

/-- Every byte of device memory outside the extent reads as before. -/
def MemOutside (m m' : Mem) (a n : Nat) : Prop := ∀ x, ¬ (a ≤ x ∧ x < a + n) → m'.byte x = m.byte x

/-- The job of key `k` is the only one that has changed; it satisfies `P`. -/
def JobIs (d t : Dev) (k : Nat) (P : Job → Prop) : Prop := (∃ j, t.job k = some j ∧ P j) ∧ ∀ i, i ≠ k → t.job i = d.job i

/-- The job has ended with FINAL, DETAIL and end instant as given; Table 1-2 runs. -/
def Ends (j : Job) (final detail : Nat) (time : W64) : Prop :=
  j.st = .ending ∧ ∃ f, j.fin = some f ∧ f.final = BitVec.ofNat 8 final ∧ f.detail = BitVec.ofNat 32 detail ∧ f.time = time

/-- The cores of a list no longer issue, and nothing of their runs is in flight. -/
def Stopped (t : Dev) (ns : List Nat) : Prop := ∀ m ∈ ns, (t.core m).run = false ∧ (t.core m).ops = [] ∧ (t.core m).wait = .none

/-- The response to request `r` stands in the mailbox of its function (R147, R150, Table 4-2). -/
def Answered (t : Dev) (r : Req) (status : Nat) (payload : List Byte) (detail : Nat) : Prop :=
  let m := t.mbox r.fn
  m.busy = false ∧ m.valid = true ∧ m.async = false ∧
    Memory.readN 0 m.resp 0 (16 + payload.length) = response r.op status (2 * b2n r.dry) r.seq payload detail t.kiln.epoch

/-- Only the mailboxes and what a raised vector changes differ. -/
def OnlyAnswers (d t : Dev) : Prop := t = { d with mbx := t.mbx, pcie := t.pcie, out := t.out }

/-- The outcome of a deferred command is queued for its function (R159, R161). -/
def QueuesResponse (d t : Dev) (x : Deferred) (status : Nat) (payload : List Byte) (detail : Nat := 0xFFFF) : Prop :=
  (t.mbox x.fn).queue = (d.mbox x.fn).queue ++ [response x.opcode status 1 x.seq payload detail 0] ∧
    (t.mbox x.fn).resp = (d.mbox x.fn).resp ∧ (t.mbox x.fn).valid = (d.mbox x.fn).valid

/-- The end of job `k` is fixed in this FCLK cycle as FAULT with syndrome `synd` at `iaddr` (R44); its set stops with the next one
(Table 1-2). -/
def EndsInFault (d t : Dev) (k synd iaddr : Nat) : Prop :=
  ∃ j f, t.job k = some j ∧ j.st = .ending ∧ j.stopped = false ∧ j.fin = some f ∧ f.final = 0x06 ∧
    f.detail = BitVec.ofNat 32 (synd + 256 * (iaddr % 2 ^ 24)) ∧ f.time = d.glb.time ∧ f.fclk = d.fno

/-- A fault of job `k` is taken on core `n`: the job ends FAULT, the event is recorded on the core, and no register, no scratchpad byte, no
other core and no byte of memory changes. -/
def Faulted (d t : Dev) (n k synd iaddr : Nat) : Prop :=
  EndsInFault d t k synd iaddr ∧ (t.core n).evt.fault = true ∧ SameRegs (d.core n) (t.core n) ∧
    (t.core n).regs.pc = (d.core n).regs.pc ∧ (t.core n).sp = (d.core n).sp ∧ (∀ m, m ≠ n → t.core m = d.core m) ∧ t.mem = d.mem

/-- Operation `o` leaves core `n`. The instruction leases that have ended, its own among them, return but for what D still needs (R503,
R514). -/
def OpLeaves (d t : Dev) (n : Nat) (o : Op) : Prop :=
  let c := d.core n
  let rest := c.ops.filter (fun p => p.seq != o.seq)
  (t.core n).ops = rest.map Op.endLease ∧
    (∃ r, t.blw.returning = d.blw.returning + r ∧
      (t.core n).tok.iend + r = c.tok.iend + o.ilease + ((rest.filter (fun p => decide (p.occ = 0))).map Op.ilease).sum) ∧
    ((t.core n).tok.iend = 0 ∨ (t.core n).cover ≤ (t.core n).demand)

/-- No word of `ws` in the row holds an error (R482). -/
def Core.sound (c : Core) (mem row : Nat) (ws : List Nat) : Prop := ∀ w ∈ ws, SMap.get 0 c.ecc (wordKey mem row w) = 0

/-- No other port asks at the bank of the row, and the bank and the port are free in this CCLK: an access through `port` to row `row` of memory
`mem` is granted at once (R446-R449). -/
def Uncontended (c : Core) (port mem row : Nat) : Prop :=
  (∀ p, p ≠ port → c.askAt p mem (bankOf row) = none) ∧ (SMap.get {} c.banks (mem * 8 + bankOf row)).used = false ∧ c.ported.contains (port, mem) = false

end Sys2Proof.Machine

namespace Sys2Proof
open Sys2Proof.Machine

/-- Core, predicate field and family-level form of a core instruction; none for the other commands. -/
def Instr.core? (i : Instr) : Option (Nat × Pred × CoreOp) :=
  match i with
  | .add n q d a b => some (n.val, q, .alu .add d.toNat a.toNat (.reg b.toNat))
  | .sub n q d a b => some (n.val, q, .alu .sub d.toNat a.toNat (.reg b.toNat))
  | .and n q d a b => some (n.val, q, .alu .and d.toNat a.toNat (.reg b.toNat))
  | .or n q d a b => some (n.val, q, .alu .or d.toNat a.toNat (.reg b.toNat))
  | .xor n q d a b => some (n.val, q, .alu .xor d.toNat a.toNat (.reg b.toNat))
  | .shl n q d a b => some (n.val, q, .alu .shl d.toNat a.toNat (.reg b.toNat))
  | .shr n q d a b => some (n.val, q, .alu .shr d.toNat a.toNat (.reg b.toNat))
  | .sra n q d a b => some (n.val, q, .alu .sra d.toNat a.toNat (.reg b.toNat))
  | .min n q d a b => some (n.val, q, .alu .min d.toNat a.toNat (.reg b.toNat))
  | .max n q d a b => some (n.val, q, .alu .max d.toNat a.toNat (.reg b.toNat))
  | .minU n q d a b => some (n.val, q, .alu .minU d.toNat a.toNat (.reg b.toNat))
  | .maxU n q d a b => some (n.val, q, .alu .maxU d.toNat a.toNat (.reg b.toNat))
  | .sel n q d a b c => some (n.val, q, .sel d.toNat a.toNat b.toNat c.toNat)
  | .addI n q d a imm => some (n.val, q, .alu .add d.toNat a.toNat (.imm imm))
  | .subI n q d a imm => some (n.val, q, .alu .sub d.toNat a.toNat (.imm imm))
  | .andI n q d a imm => some (n.val, q, .alu .and d.toNat a.toNat (.imm imm))
  | .orI n q d a imm => some (n.val, q, .alu .or d.toNat a.toNat (.imm imm))
  | .xorI n q d a imm => some (n.val, q, .alu .xor d.toNat a.toNat (.imm imm))
  | .shlI n q d a imm => some (n.val, q, .alu .shl d.toNat a.toNat (.imm (imm.setWidth 64)))
  | .shrI n q d a imm => some (n.val, q, .alu .shr d.toNat a.toNat (.imm (imm.setWidth 64)))
  | .sraI n q d a imm => some (n.val, q, .alu .sra d.toNat a.toNat (.imm (imm.setWidth 64)))
  | .minI n q d a imm => some (n.val, q, .alu .min d.toNat a.toNat (.imm imm))
  | .maxI n q d a imm => some (n.val, q, .alu .max d.toNat a.toNat (.imm imm))
  | .minUI n q d a imm => some (n.val, q, .alu .minU d.toNat a.toNat (.imm imm))
  | .maxUI n q d a imm => some (n.val, q, .alu .maxU d.toNat a.toNat (.imm imm))
  | .mulU n q d a b => some (n.val, q, .md .mulU d.toNat a.toNat b.toNat)
  | .mulS n q d a b => some (n.val, q, .md .mulS d.toNat a.toNat b.toNat)
  | .mulhU n q d a b => some (n.val, q, .md .mulhU d.toNat a.toNat b.toNat)
  | .mulhS n q d a b => some (n.val, q, .md .mulhS d.toNat a.toNat b.toNat)
  | .divU n q d a b => some (n.val, q, .md .divU d.toNat a.toNat b.toNat)
  | .divS n q d a b => some (n.val, q, .md .divS d.toNat a.toNat b.toNat)
  | .remU n q d a b => some (n.val, q, .md .remU d.toNat a.toNat b.toNat)
  | .remS n q d a b => some (n.val, q, .md .remS d.toNat a.toNat b.toNat)
  | .ld n q d a h imm => some (n.val, q, .ld false d.toNat a.toNat h.toNat imm)
  | .st n q a b h imm => some (n.val, q, .st false a.toNat b.toNat h.toNat imm)
  | .ldF n q d a h imm => some (n.val, q, .ld true d.toNat a.toNat h.toNat imm)
  | .stF n q a b h imm => some (n.val, q, .st true a.toNat b.toNat h.toNat imm)
  | .fadd n q d a b rm => some (n.val, q, .fbin .add d.toNat a.toNat b.toNat rm)
  | .fsub n q d a b rm => some (n.val, q, .fbin .sub d.toNat a.toNat b.toNat rm)
  | .fmul n q d a b rm => some (n.val, q, .fbin .mul d.toNat a.toNat b.toNat rm)
  | .fmadd n q d a b c rm => some (n.val, q, .fma d.toNat a.toNat b.toNat c.toNat rm)
  | .fmin n q d a b => some (n.val, q, .fbin .min d.toNat a.toNat b.toNat .dyn)
  | .fmax n q d a b => some (n.val, q, .fbin .max d.toNat a.toNat b.toNat .dyn)
  | .fabs n q d a => some (n.val, q, .fsign true d.toNat a.toNat)
  | .fneg n q d a => some (n.val, q, .fsign false d.toNat a.toNat)
  | .fdiv n q d a b rm => some (n.val, q, .fdiv d.toNat a.toNat b.toNat rm)
  | .fsqrt n q d a rm => some (n.val, q, .fsqrt d.toNat a.toNat rm)
  | .fmvX n q d a => some (n.val, q, .fcvt .mvX d.toNat a.toNat .dyn)
  | .fmvF n q d a => some (n.val, q, .fcvt .mvF d.toNat a.toNat .dyn)
  | .fcvtSL n q d a rm => some (n.val, q, .fcvt .sL d.toNat a.toNat rm)
  | .fcvtSLu n q d a rm => some (n.val, q, .fcvt .sLu d.toNat a.toNat rm)
  | .fcvtLS n q d a rm => some (n.val, q, .fcvt .lS d.toNat a.toNat rm)
  | .fcvtLuS n q d a rm => some (n.val, q, .fcvt .luS d.toNat a.toNat rm)
  | .fli n q d imm => some (n.val, q, .fli d.toNat imm)
  | .jmp n q imm => some (n.val, q, .jmp imm)
  | .jmpr n q a => some (n.val, q, .jmpr a.toNat)
  | .call n q d imm => some (n.val, q, .call d.toNat imm)
  | .loop n q d a imm => some (n.val, q, .loop d.toNat a.toNat imm)
  | .cmpEq n q d a b => some (n.val, q, .cmp .eq d.toNat a.toNat (.reg b.toNat))
  | .cmpNe n q d a b => some (n.val, q, .cmp .ne d.toNat a.toNat (.reg b.toNat))
  | .cmpLt n q d a b => some (n.val, q, .cmp .lt d.toNat a.toNat (.reg b.toNat))
  | .cmpGe n q d a b => some (n.val, q, .cmp .ge d.toNat a.toNat (.reg b.toNat))
  | .cmpLtu n q d a b => some (n.val, q, .cmp .ltu d.toNat a.toNat (.reg b.toNat))
  | .cmpGeu n q d a b => some (n.val, q, .cmp .geu d.toNat a.toNat (.reg b.toNat))
  | .cmpEqI n q d a imm => some (n.val, q, .cmp .eq d.toNat a.toNat (.imm imm))
  | .cmpNeI n q d a imm => some (n.val, q, .cmp .ne d.toNat a.toNat (.imm imm))
  | .cmpLtI n q d a imm => some (n.val, q, .cmp .lt d.toNat a.toNat (.imm imm))
  | .cmpGeI n q d a imm => some (n.val, q, .cmp .ge d.toNat a.toNat (.imm imm))
  | .cmpLtuI n q d a imm => some (n.val, q, .cmp .ltu d.toNat a.toNat (.imm imm))
  | .cmpGeuI n q d a imm => some (n.val, q, .cmp .geu d.toNat a.toNat (.imm imm))
  | .fcmpEq n q d a b => some (n.val, q, .fcmp .eq d.toNat a.toNat b.toNat)
  | .fcmpLt n q d a b => some (n.val, q, .fcmp .lt d.toNat a.toNat b.toNat)
  | .fcmpLe n q d a b => some (n.val, q, .fcmp .le d.toNat a.toNat b.toNat)
  | .fcmpUn n q d a b => some (n.val, q, .fcmp .un d.toNat a.toNat b.toNat)
  | .pand n q d a b => some (n.val, q, .plog .and d.toNat a.toNat b.toNat)
  | .por n q d a b => some (n.val, q, .plog .or d.toNat a.toNat b.toNat)
  | .pxor n q d a b => some (n.val, q, .plog .xor d.toNat a.toNat b.toNat)
  | .pandn n q d a b => some (n.val, q, .plog .andn d.toNat a.toNat b.toNat)
  | .srRead n q d sr => some (n.val, q, .srRead d.toNat sr.val)
  | .srWrite n q a => some (n.val, q, .srWrite a.toNat)
  | .syncAdd n q a b => some (n.val, q, .syncAdd a.toNat (.reg b.toNat))
  | .syncAddI n q a imm => some (n.val, q, .syncAdd a.toNat (.imm (imm.setWidth 64)))
  | .syncSet n q a b => some (n.val, q, .syncSet a.toNat b.toNat)
  | .syncRead n q d a => some (n.val, q, .syncRead d.toNat a.toNat)
  | .syncWait n q a b => some (n.val, q, .syncWait a.toNat b.toNat)
  | .phase n q ph => some (n.val, q, .phase ph.toNat)
  | .emberSave n q a b h rows first => some (n.val, q, .emberSave a.toNat b.toNat h.toNat rows.val first.toNat)
  | .jobDone n q a b c h rows status first => some (n.val, q, .jobDone a.toNat b.toNat c.toNat h.toNat rows.val status.toNat first.toNat)
  | .specAccept n q a => some (n.val, q, .specAccept a.toNat)
  | .vld n q d a h fmt b32 part imm => some (n.val, q, .vld d.toNat a.toNat h.toNat fmt.toNat b32 part.toNat imm.toNat)
  | .vst n q a b c h fmt b32 part expl imm => some (n.val, q, .vst a.toNat b.toNat c.toNat h.toNat fmt.toNat b32 part.toNat expl imm.toNat)
  | .vadd n q d a b rm => some (n.val, q, .vbin .add d.toNat a.toNat b.toNat rm)
  | .vsub n q d a b rm => some (n.val, q, .vbin .sub d.toNat a.toNat b.toNat rm)
  | .vmul n q d a b rm => some (n.val, q, .vbin .mul d.toNat a.toNat b.toNat rm)
  | .vfma n q d a b c rm => some (n.val, q, .vfma d.toNat a.toNat b.toNat c.toNat rm)
  | .vmin n q d a b => some (n.val, q, .vbin .min d.toNat a.toNat b.toNat .dyn)
  | .vmax n q d a b => some (n.val, q, .vbin .max d.toNat a.toNat b.toNat .dyn)
  | .vabs n q d a => some (n.val, q, .vsign true d.toNat a.toNat)
  | .vneg n q d a => some (n.val, q, .vsign false d.toNat a.toNat)
  | .vbcast n q d a => some (n.val, q, .vbcast d.toNat a.toNat)
  | .vext n q d a b => some (n.val, q, .vext d.toNat a.toNat b.toNat)
  | .vins n q d a b => some (n.val, q, .vins d.toNat a.toNat b.toNat)
  | .vsum n q d a rm => some (n.val, q, .vsum d.toNat a.toNat rm)
  | .vdot n q d a b rm => some (n.val, q, .vdot d.toNat a.toNat b.toNat rm)
  | .vamax n q d a => some (n.val, q, .vamax d.toNat a.toNat)
  | .vrfTsum n q d c a b => some (n.val, q, .tsum d.toNat c.toNat a.toNat b.toNat)
  | .vrfRes n q d a b c => some (n.val, q, .vres d.toNat a.toNat b.toNat c.toNat)
  | .vrfExp n q d a => some (n.val, q, .vexp d.toNat a.toNat)
  | .mxeMma n q t0 t1 h2 o2 xa xb xc acc kch qq => some (n.val, q, .mma (.of t0) (.of t1) h2.toNat o2.toNat xa.toNat xb.toNat xc.toNat acc kch.toNat qq.toNat)
  | .dmaRd n q t f1 b1 xa xb xc async => some (n.val, q, .dmaRd (.of t) f1.toNat b1 xa.toNat xb.toNat xc.toNat async)
  | .dmaWr n q t f1 b1 xa xb xc => some (n.val, q, .dmaWr (.of t) f1.toNat b1 xa.toNat xb.toNat xc.toNat)
  | .rwPut n q h0 o0 n0 h1 o1 xb xc => some (n.val, q, .rwPut h0.toNat o0.toNat n0.toNat h1.toNat o1.toNat xb.toNat xc.toNat)
  | .ringPush n q h0 o0 n0 h1 xb => some (n.val, q, .ringPush h0.toNat o0.toNat n0.toNat h1.toNat xb.toNat)
  | .ringHead n q d h => some (n.val, q, .ringHead d.toNat h.toNat)
  | .ringAvail n q d h => some (n.val, q, .ringAvail d.toNat h.toNat)
  | .ringPop n q a h => some (n.val, q, .ringPop a.toNat h.toNat)
  | .arrWait n q b k => some (n.val, q, .arrWait b.toNat k.toNat)
  | .arrRead n q d k => some (n.val, q, .arrRead d.toNat k.toNat)
  | .arrSet n q b k => some (n.val, q, .arrSet b.toNat k.toNat)
  | .xferFence n q => some (n.val, q, .xferFence)
  | .rcount n q d a b h rows mode fmt imm => some (n.val, q, .rcount d.toNat a.toNat b.toNat h.toNat rows.toNat mode.toNat fmt.toNat imm.toNat)
  | _ => none

/-- A mailbox command: the function whose request is served, opcode, selector, and what serves it. -/
structure MailCmd where
  fn : Nat
  op : Nat
  sel : Req → Bool
  h : Req → Dev → Service

/-- The mailbox command of a command, if it is one (Table 4-4). -/
def Instr.mail? (i : Instr) : Option MailCmd :=
  match i with
  | .getInfo f => some { fn := f.val, op := 0x0001, sel := fun _ => true, h := Dev.getInfo }
  | .createQueue f => some { fn := f.val, op := 0x0010, sel := fun _ => true, h := Dev.createQueue }
  | .destroyQueue f => some { fn := f.val, op := 0x0011, sel := fun _ => true, h := Dev.destroyCmd }
  | .loadProgram f => some { fn := f.val, op := 0x0020, sel := fun _ => true, h := Dev.loadCmd }
  | .bindProgram f => some { fn := f.val, op := 0x0021, sel := fun _ => true, h := Dev.bindCmd }
  | .unbind f => some { fn := f.val, op := 0x0022, sel := fun _ => true, h := Dev.unbindCmd }
  | .tenantCreate f => some { fn := f.val, op := 0x0030, sel := fun _ => true, h := Dev.tenantCmd }
  | .tenantDestroy f store => some { fn := f.val, op := 0x0031, sel := fun _ => true, h := Dev.tenantDestroyCmd store }
  | .syncAllocAlloc f => some { fn := f.val, op := 0x0038, sel := fun r => r.get 0 1 == 0, h := Dev.syncAlloc }
  | .syncAllocFree f => some { fn := f.val, op := 0x0038, sel := fun r => r.get 0 1 == 1, h := Dev.syncFree }
  | .setConfigTimeSrc f store => some { fn := f.val, op := 0x0040, sel := fun r => r.get 0 2 == 0x0001, h := fun r => Dev.setNow r 2 store Dev.setTimeSrc }
  | .setConfigBackstepEn f store => some { fn := f.val, op := 0x0040, sel := fun r => r.get 0 2 == 0x0002, h := fun r => Dev.setNow r 1 store Dev.setBackstep }
  | .setConfigPerstScope f store => some { fn := f.val, op := 0x0040, sel := fun r => r.get 0 2 == 0x0003, h := fun r => Dev.setNow r 1 store Dev.setPerstScope }
  | .setConfigBellowsPool f => some { fn := f.val, op := 0x0040, sel := fun r => r.get 0 2 == 0x0010, h := Dev.setPool }
  | .setConfigActiveCores f => some { fn := f.val, op := 0x0040, sel := fun r => r.get 0 2 == 0x0011, h := Dev.setActive }
  | .setConfigMemEcc f => some { fn := f.val, op := 0x0040, sel := fun r => r.get 0 2 == 0x0012, h := Dev.setEcc }
  | .setConfigQueueParams f => some { fn := f.val, op := 0x0040, sel := fun r => r.get 0 2 == 0x0020, h := Dev.setParams }
  | .configEpochStatus f => some { fn := f.val, op := 0x0041, sel := fun _ => true, h := Dev.epochStatus }
  | .fenceCore f store => some { fn := f.val, op := 0x0050, sel := fun _ => true, h := Dev.fenceCoreCmd store }
  | .coreMaint f => some { fn := f.val, op := 0x0051, sel := fun _ => true, h := Dev.maintCmd }
  | .coreReturnActive f => some { fn := f.val, op := 0x0052, sel := fun r => r.get 1 1 == 0, h := Dev.returnActive }
  | .coreReturnBanked f store => some { fn := f.val, op := 0x0052, sel := fun r => r.get 1 1 == 1, h := Dev.returnBanked store }
  | .rowRemap f => some { fn := f.val, op := 0x0058, sel := fun _ => true, h := Dev.rowRemapCmd }
  | .sleConfigLoop f => some { fn := f.val, op := 0x0060, sel := fun r => r.get 0 2 == 0, h := Dev.sleBlock }
  | .sleConfigLinks f => some { fn := f.val, op := 0x0060, sel := fun r => r.get 0 2 == 1, h := Dev.sleBlock }
  | .sleConfigInmap f => some { fn := f.val, op := 0x0060, sel := fun r => r.get 0 2 == 2, h := Dev.sleBlock }
  | .sleConfigOutmap f => some { fn := f.val, op := 0x0060, sel := fun r => r.get 0 2 == 3, h := Dev.sleBlock }
  | .sleConfigLimits f => some { fn := f.val, op := 0x0060, sel := fun r => r.get 0 2 == 4, h := Dev.sleBlock }
  | .sleConfigInteg f => some { fn := f.val, op := 0x0060, sel := fun r => r.get 0 2 == 5, h := Dev.sleBlock }
  | .sleConfigGain f => some { fn := f.val, op := 0x0060, sel := fun r => decide (0x100 ≤ r.get 0 2) && decide (r.get 0 2 ≤ 0x10F), h := Dev.sleBlock }
  | .sleConfigApply f store => some { fn := f.val, op := 0x0060, sel := fun r => r.get 0 2 == 0xFFFF, h := Dev.sleApply store }
  | .sleStart f => some { fn := f.val, op := 0x0061, sel := fun _ => true, h := Dev.sleStart }
  | .sleStop f => some { fn := f.val, op := 0x0062, sel := fun _ => true, h := Dev.sleStop }
  | .homeAxis f => some { fn := f.val, op := 0x0063, sel := fun _ => true, h := Dev.homeCmd }
  | .camConfigInput f => some { fn := f.val, op := 0x0070, sel := fun r => r.get 2 2 == 0, h := Dev.camBlock }
  | .camConfigNr f => some { fn := f.val, op := 0x0070, sel := fun r => r.get 2 2 == 1, h := Dev.camBlock }
  | .camConfigColour f => some { fn := f.val, op := 0x0070, sel := fun r => r.get 2 2 == 2, h := Dev.camBlock }
  | .camConfigTables f => some { fn := f.val, op := 0x0070, sel := fun r => r.get 2 2 == 3, h := Dev.camBlock }
  | .camConfigOutput f => some { fn := f.val, op := 0x0070, sel := fun r => r.get 2 2 == 4, h := Dev.camBlock }
  | .camConfigLinks f => some { fn := f.val, op := 0x0070, sel := fun r => r.get 2 2 == 5, h := Dev.camBlock }
  | .camConfigApply f => some { fn := f.val, op := 0x0070, sel := fun r => r.get 2 2 == 0xFFFF, h := Dev.camApply }
  | .ethConfigPort f => some { fn := f.val, op := 0x0078, sel := fun r => r.get 2 2 == 0, h := Dev.ethBlock }
  | .ethConfigIp f => some { fn := f.val, op := 0x0078, sel := fun r => r.get 2 2 == 1, h := Dev.ethBlock }
  | .ethConfigQos f => some { fn := f.val, op := 0x0078, sel := fun r => r.get 2 2 == 2, h := Dev.ethBlock }
  | .ethConfigGcl f => some { fn := f.val, op := 0x0078, sel := fun r => r.get 2 2 == 3, h := Dev.ethBlock }
  | .ethConfigGclent f => some { fn := f.val, op := 0x0078, sel := fun r => r.get 2 2 == 4, h := Dev.ethBlock }
  | .ethConfigCycin f => some { fn := f.val, op := 0x0078, sel := fun r => decide (0x10 ≤ r.get 2 2) && decide (r.get 2 2 ≤ 0x17), h := Dev.ethBlock }
  | .ethConfigCycout f => some { fn := f.val, op := 0x0078, sel := fun r => decide (0x18 ≤ r.get 2 2) && decide (r.get 2 2 ≤ 0x1F), h := Dev.ethBlock }
  | .ethConfigApply f store => some { fn := f.val, op := 0x0078, sel := fun r => r.get 2 2 == 0xFFFF, h := Dev.ethApply store }
  | .pstSessionOpen f store => some { fn := f.val, op := 0x0079, sel := fun r => r.get 0 1 == 0, h := Dev.pstOpen store }
  | .pstSessionClose f store => some { fn := f.val, op := 0x0079, sel := fun r => r.get 0 1 == 1, h := Dev.pstClose store }
  | .pstSessionQuery f => some { fn := f.val, op := 0x0079, sel := fun r => r.get 0 1 == 2, h := Dev.pstQuery }
  | .fwStage f => some { fn := f.val, op := 0x0080, sel := fun _ => true, h := Dev.fwStageCmd }
  | .fwActivate f => some { fn := f.val, op := 0x0081, sel := fun _ => true, h := Dev.fwActivateCmd }
  | .fwCommit f store => some { fn := f.val, op := 0x0082, sel := fun _ => true, h := Dev.fwCommitCmd store }
  | .fwRollback f store => some { fn := f.val, op := 0x0083, sel := fun _ => true, h := Dev.fwRollbackCmd store }
  | .cfgstoreWrite f => some { fn := f.val, op := 0x0090, sel := fun _ => true, h := Dev.cfgWriteCmd }
  | .cfgstoreRead f => some { fn := f.val, op := 0x0091, sel := fun _ => true, h := Dev.cfgReadCmd }
  | .debugUnlockChallenge f nonce => some { fn := f.val, op := 0x00A0, sel := fun r => r.get 0 1 == 0, h := Dev.unlockChallenge nonce }
  | .debugUnlockAnswer f => some { fn := f.val, op := 0x00A0, sel := fun r => r.get 0 1 == 1, h := Dev.unlockAnswer }
  | _ => none

/-- The mailbox of the command's function holds a request for it (R147). -/
def Serving (d : Dev) (c : MailCmd) : Prop :=
  (d.mbox c.fn).busy = true ∧ (d.reqOf c.fn).op = c.op ∧ d.answers c.op = true ∧ d.implemented c.op = true ∧
    c.sel (d.reqOf c.fn) = true

/-- Deferral is possible: not forbidden by the request, and fewer than four are outstanding (R157). -/
def Room (d : Dev) (r : Req) : Prop := r.noDefer = false ∧ d.defCount r.fn + (d.mbox r.fn).queue.length < 4

/-- Command `i` serves the request of function `f`, nothing is wrong with it, and it is no dry run. -/
def Accepts (i : Instr) (d : Dev) (f : Fn) : Prop :=
  ∃ c, i.mail? = some c ∧ c.fn = f.val ∧ Serving d c ∧ (d.reqOf f.val).dry = false ∧
    (d.reqOf f.val).verdict (c.h (d.reqOf f.val) d).form (c.h (d.reqOf f.val) d).check = none

/-- The accepted request of function `f` is answered OK with `pay`; `P` holds of the device. -/
def Serves (i : Instr) (s : State) (f : Fn) (pay : List Byte) (P : Dev → Prop) : Prop :=
  Gives i s fun t => Answered t (s.dev.reqOf f.val) stOk pay 0xFFFF ∧ P t

/-- The accepted request of function `f` is answered DEFERRED and joins the deferred commands; `P` holds of the device. -/
def Defers (i : Instr) (s : State) (f : Fn) (op : DefOp) (P : Dev → Prop) : Prop :=
  let r := s.dev.reqOf f.val
  Gives i s fun t => Answered t r stDeferred [] 0xFFFF ∧
    t.kiln.deferred = s.dev.kiln.deferred ++ [{ fn := f.val, opcode := r.op, seq := r.seq, op := op }] ∧ P t

end Sys2Proof
end

