-- ==== Sys2Proof/Certificates/Slice0/Obligations.lean ====
section
/-!
DEFINITION. Certificates/Slice0/Obligations.lean: the statements for the provers.
-/
open Sys2Proof Sys2Proof.Machine

/-! ### The step -/

/-- A step takes the command at the front of the queue and runs it with the queue's rest. -/
def Obligations.StepRunsTheFrontCommand : Prop :=
  ∀ (c : Instr) (rest : List Instr) (d : Dev), step { pending := c :: rest, dev := d } = exec c { pending := rest, dev := d }

/-- On an empty queue a step lets one CCLK pass once the clocks run; before that, nothing changes. A CCLK in which no FCLK cycle begins takes
every core through one cycle and touches no memory, no mailbox, no job and no line to the outside; every second one begins an FCLK cycle
(log 2, the model's choice). -/
def Obligations.EmptyQueueLetsACclkPass : Prop :=
  ∀ d : Dev, ∃ t, step { pending := [], dev := d } = .next { pending := [], dev := t } ∧
    (d.clocked = true → t.cclk = d.cclk + 1 ∧ t.fno = (if d.cclk % 2 = 1 then d.fno + 1 else d.fno) ∧
      (d.cclk % 2 = 0 → (∀ n < 18, t.core n = (d.cycle n).core n) ∧ t.mem = d.mem ∧ t.kiln = d.kiln ∧ t.mbx = d.mbx ∧ t.stk = d.stk ∧
        t.syn = d.syn ∧ t.out = d.out ∧ t.pcie = d.pcie)) ∧
    (d.clocked = false → t = d)

/-- No command touches the commands that wait: where it goes on, the queue is as before. A command that can be sent always goes on, and one that
cannot be sent is refused as ill-formed. -/
def Obligations.CommandsKeepTheQueueAndGoOn : Prop :=
  (
    ∀ (c : Instr) (s t : State), exec c s = .next t → t.pending = s.pending) ∧
  (
    ∀ (c : Instr) (s : State), if c.wf then ∃ t, exec c s = .next t else exec c s = .refused .illFormed)

/-! ### Core instructions (07-13) -/

/-- R315, register forms: the result of add, sub, and, or, xor, shl, shr, sra, min, max, min.u, max.u and sel; nothing else changes. R315,
immediate forms: IMM stands in place of x[B], and the shift forms use IMM[5:0]. -/
def Obligations.IntegerInstructions : Prop :=
  (
    ∀ (s : State) (n : CoreN) (q : Pred) (d a b : Reg) (j : Job) (p : Prog),
      let c := s.dev.core n.val
      let x := c.getX a.toNat
      let y := c.getX b.toNat
      (CanIssue s.dev n.val q [.x a.toNat, .x b.toNat, .x d.toNat] j p →
        XResult (.add n q d a b) s n.val d.toNat (x + y) ∧
        XResult (.sub n q d a b) s n.val d.toNat (x - y) ∧
        XResult (.and n q d a b) s n.val d.toNat (x &&& y) ∧
        XResult (.or n q d a b) s n.val d.toNat (x ||| y) ∧
        XResult (.xor n q d a b) s n.val d.toNat (x ^^^ y) ∧
        XResult (.shl n q d a b) s n.val d.toNat (x <<< (y.toNat % 64)) ∧
        XResult (.shr n q d a b) s n.val d.toNat (x >>> (y.toNat % 64)) ∧
        XResult (.sra n q d a b) s n.val d.toNat (x.sshiftRight (y.toNat % 64)) ∧
        XResult (.min n q d a b) s n.val d.toNat (if x.toInt < y.toInt then x else y) ∧
        XResult (.max n q d a b) s n.val d.toNat (if x.toInt < y.toInt then y else x) ∧
        XResult (.minU n q d a b) s n.val d.toNat (if x.toNat < y.toNat then x else y) ∧
        XResult (.maxU n q d a b) s n.val d.toNat (if x.toNat < y.toNat then y else x)) ∧
      ∀ e : PReg, CanIssue s.dev n.val q [.x a.toNat, .x b.toNat, .p e.toNat, .x d.toNat] j p →
        XResult (.sel n q d a b e) s n.val d.toNat (if c.getP e.toNat then x else y)) ∧
  (
    ∀ (s : State) (n : CoreN) (q : Pred) (d a : Reg) (imm : W64) (k : BitVec 6) (j : Job) (p : Prog),
      let x := (s.dev.core n.val).getX a.toNat
      CanIssue s.dev n.val q [.x a.toNat, .x d.toNat] j p →
        XResult (.addI n q d a imm) s n.val d.toNat (x + imm) ∧
        XResult (.subI n q d a imm) s n.val d.toNat (x - imm) ∧
        XResult (.andI n q d a imm) s n.val d.toNat (x &&& imm) ∧
        XResult (.orI n q d a imm) s n.val d.toNat (x ||| imm) ∧
        XResult (.xorI n q d a imm) s n.val d.toNat (x ^^^ imm) ∧
        XResult (.shlI n q d a k) s n.val d.toNat (x <<< k.toNat) ∧
        XResult (.shrI n q d a k) s n.val d.toNat (x >>> k.toNat) ∧
        XResult (.sraI n q d a k) s n.val d.toNat (x.sshiftRight k.toNat) ∧
        XResult (.minI n q d a imm) s n.val d.toNat (if x.toInt < imm.toInt then x else imm) ∧
        XResult (.maxI n q d a imm) s n.val d.toNat (if x.toInt < imm.toInt then imm else x) ∧
        XResult (.minUI n q d a imm) s n.val d.toNat (if x.toNat < imm.toNat then x else imm) ∧
        XResult (.maxUI n q d a imm) s n.val d.toNat (if x.toNat < imm.toNat then imm else x))

/-- R316-R320: a multiply or a divide starts on its unit with its result formed; the destination stays pending for its latency. A divisor of 0
gives all ones, −1 or the dividend after 4 CCLK. R318: the latency of a divide or remainder lies between 4 and 36 CCLK, and that of a
multiply between 3 and 10 (R317). R290, R291: when the latency of the oldest finished long operation is over, its results stand in its
registers and it is no longer in flight. -/
def Obligations.MultiplyAndDivide : Prop :=
  (
    ∀ (s : State) (n : CoreN) (q : Pred) (d a b : Reg) (j : Job) (p : Prog),
      let c := s.dev.core n.val
      let x := c.getX a.toNat
      let y := c.getX b.toNat
      let lu := 2 + (max 1 (sigBits (min x.toNat y.toNat)) + 7) / 8
      let ls := 2 + (max 1 (sigBits (min x.toInt.natAbs y.toInt.natAbs)) + 7) / 8
      let ld (bx by_ : Nat) : Nat := (max 4 (4 + ((bx : Int) - by_ + 2) / 2)).toNat
      let du := ld (sigBits x.toNat) (sigBits y.toNat)
      let dl := ld (sigBits x.toInt.natAbs) (sigBits y.toInt.natAbs)
      let ds (w : W64) := [RegWrite.x d.toNat w]
      CanIssue s.dev n.val q [.x a.toNat, .x b.toNat, .x d.toNat] j p →
      (c.unitFree .mul →
        Starts (.mulU n q d a b) s n.val (.regs (ds (x * y))) .mul [.x d.toNat] lu ∧
        Starts (.mulS n q d a b) s n.val (.regs (ds (BitVec.ofInt 64 (x.toInt * y.toInt)))) .mul [.x d.toNat] ls ∧
        Starts (.mulhU n q d a b) s n.val (.regs (ds (BitVec.ofNat 64 (x.toNat * y.toNat / 2 ^ 64)))) .mul [.x d.toNat] lu ∧
        Starts (.mulhS n q d a b) s n.val (.regs (ds (BitVec.ofInt 64 (x.toInt * y.toInt / 2 ^ 64)))) .mul [.x d.toNat] ls) ∧
      (c.unitFree .div →
        (y = 0 →
          Starts (.divU n q d a b) s n.val (.regs (ds 0xFFFFFFFFFFFFFFFF)) .div [.x d.toNat] 4 ∧
          Starts (.divS n q d a b) s n.val (.regs (ds (BitVec.ofInt 64 (-1)))) .div [.x d.toNat] 4 ∧
          Starts (.remU n q d a b) s n.val (.regs (ds x)) .div [.x d.toNat] 4 ∧
          Starts (.remS n q d a b) s n.val (.regs (ds x)) .div [.x d.toNat] 4) ∧
        (y ≠ 0 →
          Starts (.divU n q d a b) s n.val (.regs (ds (x / y))) .div [.x d.toNat] du ∧
          Starts (.divS n q d a b) s n.val (.regs (ds (BitVec.ofInt 64 (x.toInt.tdiv y.toInt)))) .div [.x d.toNat] dl ∧
          Starts (.remU n q d a b) s n.val (.regs (ds (x % y))) .div [.x d.toNat] du ∧
          Starts (.remS n q d a b) s n.val (.regs (ds (BitVec.ofInt 64 (x.toInt.tmod y.toInt)))) .div [.x d.toNat] dl))) ∧
  (
    ∀ (k : MdK) (x y : W64), if k.isMul then 3 ≤ k.latency x y ∧ k.latency x y ≤ 10 else 4 ≤ k.latency x y ∧ k.latency x y ≤ 36) ∧
  (
    ∀ (s : State) (n : CoreN) (o : Op) (ws : List RegWrite),
      (s.dev.core n.val).ops.find? (fun o => decide (o.left = 0) && o.results.isSome) = some o → o.results = some ws →
      Gives (.longOpComplete n) s fun t =>
        (t.core n.val).regs = ((s.dev.core n.val).writeRegs ws).regs ∧
        OpLeaves s.dev t n.val o ∧ SameStore (s.dev.core n.val) { t.core n.val with regs := (s.dev.core n.val).regs } ∧
        Outside s.dev t n.val)

/-- R332: the integer compares write p[D], signed or unsigned as named; a write of p0 is ignored. R332, R333: the binary32 compares are 0 where
an operand is a NaN, but for fcmp.un, which is then 1; the predicate operations. -/
def Obligations.ComparesAndPredicates : Prop :=
  (
    ∀ (s : State) (n : CoreN) (q : Pred) (d : PReg) (a b : Reg) (imm : W64) (j : Job) (p : Prog),
      let x := (s.dev.core n.val).getX a.toNat
      let y := (s.dev.core n.val).getX b.toNat
      (CanIssue s.dev n.val q [.x a.toNat, .x b.toNat, .p d.toNat] j p →
        PResult (.cmpEq n q d a b) s n.val d.toNat (decide (x = y)) ∧
        PResult (.cmpNe n q d a b) s n.val d.toNat (decide (x ≠ y)) ∧
        PResult (.cmpLt n q d a b) s n.val d.toNat (decide (x.toInt < y.toInt)) ∧
        PResult (.cmpGe n q d a b) s n.val d.toNat (decide (y.toInt ≤ x.toInt)) ∧
        PResult (.cmpLtu n q d a b) s n.val d.toNat (decide (x.toNat < y.toNat)) ∧
        PResult (.cmpGeu n q d a b) s n.val d.toNat (decide (y.toNat ≤ x.toNat))) ∧
      (CanIssue s.dev n.val q [.x a.toNat, .p d.toNat] j p →
        PResult (.cmpEqI n q d a imm) s n.val d.toNat (decide (x = imm)) ∧
        PResult (.cmpNeI n q d a imm) s n.val d.toNat (decide (x ≠ imm)) ∧
        PResult (.cmpLtI n q d a imm) s n.val d.toNat (decide (x.toInt < imm.toInt)) ∧
        PResult (.cmpGeI n q d a imm) s n.val d.toNat (decide (imm.toInt ≤ x.toInt)) ∧
        PResult (.cmpLtuI n q d a imm) s n.val d.toNat (decide (x.toNat < imm.toNat)) ∧
        PResult (.cmpGeuI n q d a imm) s n.val d.toNat (decide (imm.toNat ≤ x.toNat)))) ∧
  (
    ∀ (s : State) (n : CoreN) (q : Pred) (d : PReg) (a b : Reg) (e f : PReg) (j : Job) (p : Prog),
      let c := s.dev.core n.val
      let x := rd32 c.regs.fpc (c.getF a.toNat)
      let y := rd32 c.regs.fpc (c.getF b.toNat)
      let u := c.getP e.toNat
      let v := c.getP f.toNat
      (CanIssue s.dev n.val q [.f a.toNat, .f b.toNat, .p d.toNat] j p →
        (x = .nan ∨ y = .nan →
          PResult (.fcmpEq n q d a b) s n.val d.toNat false ∧ PResult (.fcmpLt n q d a b) s n.val d.toNat false ∧
          PResult (.fcmpLe n q d a b) s n.val d.toNat false ∧ PResult (.fcmpUn n q d a b) s n.val d.toNat true) ∧
        (x ≠ .nan → y ≠ .nan →
          PResult (.fcmpEq n q d a b) s n.val d.toNat (!x.lt y && !y.lt x) ∧ PResult (.fcmpLt n q d a b) s n.val d.toNat (x.lt y) ∧
          PResult (.fcmpLe n q d a b) s n.val d.toNat (!y.lt x) ∧ PResult (.fcmpUn n q d a b) s n.val d.toNat false)) ∧
      (CanIssue s.dev n.val q [.p e.toNat, .p f.toNat, .p d.toNat] j p →
        PResult (.pand n q d e f) s n.val d.toNat (u && v) ∧ PResult (.por n q d e f) s n.val d.toNat (u || v) ∧
        PResult (.pxor n q d e f) s n.val d.toNat (u != v) ∧ PResult (.pandn n q d e f) s n.val d.toNat (u && !v)))

/-- R324-R328: the binary32 results formed at once, rounded once from the exact value; the bit copies; the saturating conversions. R326: fdiv
takes 14 CCLK and fsqrt 16 on the one iterative unit; the result is the exact one rounded once. -/
def Obligations.Binary32Instructions : Prop :=
  (
    ∀ (s : State) (n : CoreN) (q : Pred) (d a b e : Reg) (rm : Rm) (w : W32) (j : Job) (p : Prog),
      let c := s.dev.core n.val
      let fpc := c.regs.fpc
      let m : RMode := match rm with
        | .dyn => fpcRm fpc
        | .rne => .rne
        | .rtz => .rtz
      let x := rd32 fpc (c.getF a.toNat)
      let y := rd32 fpc (c.getF b.toNat)
      let z := rd32 fpc (c.getF e.toNat)
      (CanIssue s.dev n.val q [.f a.toNat, .f b.toNat, .f d.toNat] j p →
        FResult (.fadd n q d a b rm) s n.val d.toNat (encode32 (fpcSubn fpc) m (x.add y)) ∧
        FResult (.fsub n q d a b rm) s n.val d.toNat (encode32 (fpcSubn fpc) m (x.add y.neg)) ∧
        FResult (.fmul n q d a b rm) s n.val d.toNat (encode32 (fpcSubn fpc) m (x.mul y)) ∧
        FResult (.fmin n q d a b) s n.val d.toNat (encode32 (fpcSubn fpc) .rne (x.min y)) ∧
        FResult (.fmax n q d a b) s n.val d.toNat (encode32 (fpcSubn fpc) .rne (x.max y))) ∧
      (CanIssue s.dev n.val q [.f a.toNat, .f b.toNat, .f e.toNat, .f d.toNat] j p →
        FResult (.fmadd n q d a b e rm) s n.val d.toNat (encode32 (fpcSubn fpc) m ((x.mul y).add z))) ∧
      (CanIssue s.dev n.val q [.f a.toNat, .f d.toNat] j p →
        FResult (.fabs n q d a) s n.val d.toNat (c.getF a.toNat &&& 0x7FFFFFFF) ∧
        FResult (.fneg n q d a) s n.val d.toNat (c.getF a.toNat ^^^ 0x80000000)) ∧
      (CanIssue s.dev n.val q [.f a.toNat, .x d.toNat] j p →
        XResult (.fmvX n q d a) s n.val d.toNat ((c.getF a.toNat).setWidth 64) ∧
        XResult (.fcvtLS n q d a rm) s n.val d.toNat (BitVec.ofInt 64 (x.toIntSat m (-2 ^ 63) (2 ^ 63 - 1))) ∧
        XResult (.fcvtLuS n q d a rm) s n.val d.toNat (BitVec.ofInt 64 (x.toIntSat m 0 (2 ^ 64 - 1)))) ∧
      (CanIssue s.dev n.val q [.x a.toNat, .f d.toNat] j p →
        FResult (.fmvF n q d a) s n.val d.toNat ((c.getX a.toNat).setWidth 32) ∧
        FResult (.fcvtSL n q d a rm) s n.val d.toNat (encode32 (fpcSubn fpc) m (.ofInt (c.getX a.toNat).toInt)) ∧
        FResult (.fcvtSLu n q d a rm) s n.val d.toNat (encode32 (fpcSubn fpc) m (.ofInt (c.getX a.toNat).toNat))) ∧
      (CanIssue s.dev n.val q [.f d.toNat] j p → FResult (.fli n q d w) s n.val d.toNat w)) ∧
  (
    ∀ (s : State) (n : CoreN) (q : Pred) (d a b : Reg) (rm : Rm) (j : Job) (p : Prog),
      let c := s.dev.core n.val
      let fpc := c.regs.fpc
      let x := rd32 fpc (c.getF a.toNat)
      let y := rd32 fpc (c.getF b.toNat)
      c.unitFree .fdiv →
      (CanIssue s.dev n.val q [.f a.toNat, .f b.toNat, .f d.toNat] j p →
        Starts (.fdiv n q d a b rm) s n.val (.regs [.f d.toNat (encode32 (fpcSubn fpc) (c.rmode rm) (x.div y))]) .fdiv [.f d.toNat] 14) ∧
      (CanIssue s.dev n.val q [.f a.toNat, .f d.toNat] j p →
        Starts (.fsqrt n q d a rm) s n.val (.regs [.f d.toNat (encode32 (fpcSubn fpc) (c.rmode rm) x.sqrt)]) .fdiv [.f d.toNat] 16))

/-- R329, R525, R526: a taken branch continues at its target in the code; call writes its return address and pushes it, jmpr pops the return
stack, loop counts x[A] down into x[D] and branches while what it wrote is not 0. R330: a resolved misprediction ends the hold of issue once
its 6 CCLK have passed, and changes no register and no memory. -/
def Obligations.BranchesAndMisprediction : Prop :=
  (
    ∀ (s : State) (n : CoreN) (q : Pred) (d a : Reg) (imm : W64) (j : Job) (p : Prog),
      let c := s.dev.core n.val
      let pc := c.regs.pc
      let Jumps (i : Instr) (tgt : W64) (d : Nat) (w : W64) (ras : List W64) : Prop :=
        Gives i s fun t => Outside s.dev t n.val ∧ SameStore c (t.core n.val) ∧ (t.core n.val).regs.pc = tgt ∧
          (∀ r, (t.core n.val).getX r = if r = d ∧ r ≠ 0 then w else c.getX r) ∧ SameF c (t.core n.val) ∧ SameP c (t.core n.val) ∧
          SameV c (t.core n.val) ∧ (t.core n.val).spec.ras = ras
      (CanIssue s.dev n.val q [] j p → p.inCode (pc + imm) = true → Jumps (.jmp n q imm) (pc + imm) 0 0 c.spec.ras) ∧
      (CanIssue s.dev n.val q [.x a.toNat] j p → p.inCode (c.getX a.toNat) = true →
        Jumps (.jmpr n q a) (c.getX a.toNat) 0 0 c.spec.ras.tail) ∧
      (CanIssue s.dev n.val q [.x d.toNat] j p → p.inCode (pc + imm) = true →
        Jumps (.call n q d imm) (pc + imm) d.toNat (pc + 1) (((pc + 1) :: c.spec.ras).take 16)) ∧
      (CanIssue s.dev n.val q [.x a.toNat, .x d.toNat] j p → p.inCode (pc + imm) = true →
        let w := c.getX a.toNat - 1
        Jumps (.loop n q d a imm) (if w ≠ 0 ∧ d ≠ 0 then pc + imm else pc + 1) d.toNat w c.spec.ras)) ∧
  (
    ∀ (s : State) (n : CoreN) (k : Fin 6), (s.dev.core n.val).spec.wrong = true → (s.dev.core n.val).spec.redirect = 0 →
      Gives (.branchMispredict n k) s fun t => (t.core n.val).spec.wrong = false ∧ (t.core n.val).regs = (s.dev.core n.val).regs ∧
        (t.core n.val).sp = (s.dev.core n.val).sp ∧ Outside s.dev t n.val)

/-- R283: an instruction whose predicate is off takes its issue cycle and has no other effect on registers or memory. R290: an instruction one
of whose registers is pending does not issue: in that CCLK no register, no pc and no memory changes. R16, R287, R950: a word that decodes to
nothing, or a reserved field, ends the job FAULT with syndrome 0x01 at that instruction; running past the last instruction, with syndrome
0x02 at the last instruction. -/
def Obligations.IssueHoldsAndUndefinedWords : Prop :=
  (
    ∀ (i : Instr) (s : State) (n : Nat) (q : Pred) (op : CoreOp) (k : Nat) (j : Job) (p : Prog),
      i.core? = some (n, q, op) →
      let c := s.dev.core n
      s.dev.coreJob n = some (k, j) → s.dev.prog j.prog = some p → s.dev.atBreak n = false → c.ready p = true → predReserved q = false →
      op.reserved = false → c.pendingAny (.p q.idx.toNat :: op.srcs ++ op.dsts) = false → (∀ u, op.unit? = some u → c.unitFree u) →
      c.predOn q = false → j.fin = none → c.rows.drop = false →
      Gives i s fun t => Outside s.dev t n ∧ SameStore c (t.core n) ∧ SameRegs c (t.core n) ∧
        (t.core n).ops = c.ops.map Op.passed ∧ (t.core n).regs.pc = c.regs.pc + 1) ∧
  (
    ∀ (i : Instr) (s : State) (n : Nat) (q : Pred) (op : CoreOp) (k : Nat) (j : Job) (p : Prog),
      i.core? = some (n, q, op) →
      let c := s.dev.core n
      s.dev.coreJob n = some (k, j) → s.dev.prog j.prog = some p → s.dev.atBreak n = false → c.ready p = true → c.rows.drop = false →
      c.pendingAny (.p q.idx.toNat :: op.srcs ++ op.dsts) = true →
      Gives i s fun t => Outside s.dev t n ∧ SameStore c (t.core n) ∧ SameRegs c (t.core n) ∧
        (t.core n).ops = c.ops.map Op.passed ∧ (t.core n).regs.pc = c.regs.pc ∧ t.stk = s.dev.stk) ∧
  (
    ∀ (s : State) (n : CoreN) (k : Nat) (j : Job) (p : Prog),
      let c := s.dev.core n.val
      s.dev.coreJob n.val = some (k, j) → s.dev.prog j.prog = some p → j.fin = none → s.dev.expired j = false →
      s.dev.dbg.on = false →
      (s.dev.atBreak n.val = false → c.ready p = true →
        (∀ w, decodeCore w = none →
          Gives (.illegalInstruction n w) s (Faulted s.dev · n.val k 0x01 c.regs.pc.toNat)) ∧
        ∀ i q op, i.core? = some (n.val, q, op) → (op.reserved = true ∨ predReserved q = true) →
          c.pendingAny (.p q.idx.toNat :: op.srcs ++ op.dsts) = false → (∀ u, op.unit? = some u → c.unitFree u) →
          Gives i s (Faulted s.dev · n.val k 0x01 c.regs.pc.toNat)) ∧
      (c.run = true → c.dbg.halted = false → c.wait = .none → c.spec.wrong = false → c.spec.redirect = 0 → p.inCode c.regs.pc = false →
        Gives (.codeEndFault n) s (Faulted s.dev · n.val k 0x02 (p.codeLen / 16 - 1))))

/-- R322, R323: an aligned ld or ld.f inside its handle presents its read of 8 or 4 bytes to the narrow port. R322, R323, R474: an aligned st or
st.f inside its handle presents its 8 or 4 bytes, little-endian, to the narrow port. R323: a misaligned narrow access ends the job FAULT
with syndrome 0x03, one outside its handle's rows with 0x04, and one through an unbound handle with 0x05; of several that apply, the lowest.
R443, R446, R449: the only request at a bank, a narrow one, is granted: a store writes its bytes into its row and no other byte; a load
takes the bytes of its row, where no word that is read holds an error. The bank grants once in a CCLK. -/
def Obligations.NarrowLoadsAndStores : Prop :=
  (
    ∀ (s : State) (n : CoreN) (q : Pred) (d a : Reg) (h : Handle) (imm : W64) (j : Job) (p : Prog),
      let c := s.dev.core n.val
      let ofs := (c.getX a.toNat + imm).toNat
      let hd := c.handle h.toNat
      let row := c.readRow (decide (j.st = .presolving)) hd (ofs / 512)
      handleSynd hd [0, 1, 2] (ofs / 512) = [] → c.rangeBlocked (mkHold false hd.mem [row]) = false → c.narrowPortBusy hd.mem = false →
      c.haz.mode ≠ 2 →
      (CanIssue s.dev n.val q [.x a.toNat, .x d.toNat] j p → ofs % 8 = 0 →
        Starts (.ld n q d a h imm) s n.val (.load d.toNat hd.mem row (ofs % 512) 8) .narrow [.x d.toNat] 0) ∧
      (CanIssue s.dev n.val q [.x a.toNat, .f d.toNat] j p → ofs % 4 = 0 →
        Starts (.ldF n q d a h imm) s n.val (.load d.toNat hd.mem row (ofs % 512) 4) .narrow [.f d.toNat] 0)) ∧
  (
    ∀ (s : State) (n : CoreN) (q : Pred) (a b : Reg) (h : Handle) (imm : W64) (j : Job) (p : Prog),
      let c := s.dev.core n.val
      let ofs := (c.getX a.toNat + imm).toNat
      let hd := c.handle h.toNat
      let pres := decide (j.st = .presolving)
      let row := c.writeRow pres hd (ofs / 512)
      handleSynd hd [0, 1, 2] (ofs / 512) = [] → c.rangeBlocked (mkHold true hd.mem [row]) = false → c.narrowPortBusy hd.mem = false →
      c.writable pres hd →
      (CanIssue s.dev n.val q [.x a.toNat, .x b.toNat] j p → ofs % 8 = 0 →
        Starts (.st n q a b h imm) s n.val (.store hd.mem row (ofs % 512) (toBytes (c.getX b.toNat).toNat 8)) .narrow [] 0) ∧
      (CanIssue s.dev n.val q [.x a.toNat, .f b.toNat] j p → ofs % 4 = 0 →
        Starts (.stF n q a b h imm) s n.val (.store hd.mem row (ofs % 512) (toBytes (c.getF b.toNat).toNat 4)) .narrow [] 0)) ∧
  (
    ∀ (s : State) (n : CoreN) (q : Pred) (d a b : Reg) (h : Handle) (imm : W64) (k : Nat) (j : Job) (p : Prog),
      let c := s.dev.core n.val
      let ofs := (c.getX a.toNat + imm).toNat
      let hd := c.handle h.toNat
      let Ends (i : Instr) (synd : Nat) : Prop := Gives i s (Faulted s.dev · n.val k synd c.regs.pc.toNat)
      let pres := decide (j.st = .presolving)
      let Free (wr : Bool) (row : Nat) : Prop := c.rangeBlocked (mkHold wr hd.mem [row]) = false ∧ c.narrowPortBusy hd.mem = false
      let Bad (i : Instr) (align : Nat) : Prop :=
        (ofs % align ≠ 0 → Ends i 0x03) ∧ (ofs % align = 0 → hd.valid = false → Ends i 0x05) ∧
        (ofs % align = 0 → hd.valid = true → hd.count ≤ ofs / 512 → Ends i 0x04)
      s.dev.coreJob n.val = some (k, j) → j.fin = none → s.dev.expired j = false → s.dev.dbg.on = false →
      (Free false (c.readRow pres hd (ofs / 512)) →
        (CanIssue s.dev n.val q [.x a.toNat, .x d.toNat] j p → Bad (.ld n q d a h imm) 8) ∧
        (CanIssue s.dev n.val q [.x a.toNat, .f d.toNat] j p → Bad (.ldF n q d a h imm) 4)) ∧
      (Free true (c.writeRow pres hd (ofs / 512)) → c.writable pres hd →
        (CanIssue s.dev n.val q [.x a.toNat, .x b.toNat] j p → Bad (.st n q a b h imm) 8) ∧
        (CanIssue s.dev n.val q [.x a.toNat, .f b.toNat] j p → Bad (.stF n q a b h imm) 4))) ∧
  (
    ∀ (s : State) (n : CoreN) (mem : Fin 3) (bank : Fin 8) (o : Op) (row : Nat),
      let c := s.dev.core n.val
      let Grant : Instr := .scratchpadGrant n mem bank false 0 0 false
      (∀ port < 4, c.askAt port mem.val bank.val = none) → c.askAt 4 mem.val bank.val = some (.op o, row) →
      (SMap.get {} c.banks (mem.val * 8 + bank.val)).used = false →
      (∀ off bs, o.kind = .store mem.val row off bs → c.sound mem.val row (partWords off bs.length) →
        Gives Grant s fun t =>
          (∀ a, Memory.read 0 (t.core n.val).sp a =
            if spAddr mem.val row off ≤ a ∧ a < spAddr mem.val row off + bs.length then bs.getD (a - spAddr mem.val row off) 0
            else Memory.read 0 c.sp a) ∧
          OpLeaves s.dev t n.val o ∧ (t.core n.val).regs = c.regs ∧ Outside s.dev t n.val ∧
          (SMap.get {} (t.core n.val).banks (mem.val * 8 + bank.val)).used = true) ∧
      (∀ r off size, o.kind = .load r mem.val row off size → c.sound mem.val row [off / 8] →
        let v := ofBytes (c.spRead mem.val row off size)
        Gives Grant s fun t =>
          (t.core n.val).ops = c.ops.map (fun q => if q.seq = o.seq then
            { q with kind := .regs [if size = 4 then .f r (BitVec.ofNat 32 v) else .x r (BitVec.ofNat 64 v)], left := 2, holds := [] }
            else q) ∧
          (t.core n.val).sp = c.sp ∧ (t.core n.val).regs = c.regs ∧ Outside s.dev t n.val ∧
          (SMap.get {} (t.core n.val).banks (mem.val * 8 + bank.val)).used = true))

/-- R334, R335: sr.read gives the special registers of Table 7-2, zero-extended; time after 4 CCLK. R336, R409, R417: sr.write waits for
binary32, vector and matrix work; it then writes the defined bits of fpc and reseeds the generators, GD before the next transfer. R58-R61,
R340, R511: a phase marker below N_PHASE loads the phase number, its budget (0 disables the check) and its token claim. R60: an expired
budget sets BUDGOVR with the phase and OVERRUN of the job, and is not checked again in the phase. -/
def Obligations.SpecialRegistersAndPhases : Prop :=
  (
    ∀ (s : State) (n : CoreN) (q : Pred) (d : Reg) (j : Job) (p : Prog),
      let c := s.dev.core n.val
      CanIssue s.dev n.val q [.x d.toNat] j p →
        XResult (.srRead n q d 0) s n.val d.toNat (BitVec.ofNat 64 c.idx) ∧
        XResult (.srRead n q d 1) s n.val d.toNat (BitVec.ofNat 64 j.n) ∧
        XResult (.srRead n q d 2) s n.val d.toNat (BitVec.ofNat 64 j.tenant) ∧
        XResult (.srRead n q d 3) s n.val d.toNat (BitVec.ofNat 64 j.tag) ∧
        Starts (.srRead n q d 4) s n.val (.regs [.x d.toNat s.dev.glb.time]) .scalar [.x d.toNat] 4 ∧
        XResult (.srRead n q d 5) s n.val d.toNat (BitVec.ofNat 64 j.deadline) ∧
        XResult (.srRead n q d 6) s n.val d.toNat (c.regs.budget.setWidth 64) ∧
        XResult (.srRead n q d 7) s n.val d.toNat (BitVec.ofNat 64 c.regs.phase) ∧
        XResult (.srRead n q d 8) s n.val d.toNat (c.regs.fpc.setWidth 64)) ∧
  (
    ∀ (s : State) (n : CoreN) (q : Pred) (a : Reg) (j : Job) (p : Prog),
      let c := s.dev.core n.val
      let w : W32 := (c.getX a.toNat).setWidth 32
      CanIssue s.dev n.val q [.x a.toNat] j p → c.ops.any Op.fp = false → w.toNat % 4 < 2 → w.toNat / 4 % 4 < 3 →
        Gives (.srWrite n q a) s fun t => Outside s.dev t n.val ∧ (t.core n.val).regs.fpc = w &&& 0xFFFF003F ∧
          (t.core n.val).gv = seedGv (w &&& 0xFFFF003F) c.idx ∧ (t.core n.val).gdNext = some (seedGd (w &&& 0xFFFF003F) c.idx) ∧
          (t.core n.val).gd = c.gd ∧ SameX c (t.core n.val) ∧ SameF c (t.core n.val) ∧ SameP c (t.core n.val) ∧
          SameV c (t.core n.val) ∧ (t.core n.val).regs.pc = c.regs.pc + 1) ∧
  (
    ∀ (s : State) (n : CoreN) (q : Pred) (ph : BitVec 6) (j : Job) (p : Prog),
      let c := s.dev.core n.val
      let b := p.budget j.n ph.toNat
      CanIssue s.dev n.val q [] j p → ph.toNat < p.nPhase →
        Gives (.phase n q ph) s fun t => (t.core n.val).regs.phase = ph.toNat ∧ (t.core n.val).regs.budgOn = decide (b ≠ 0) ∧
          (t.core n.val).regs.budget = (if b = 0 then 0 else b - 1) ∧ (t.core n.val).tok.claim = nth 0 p.claims ph.toNat ∧
          SameX c (t.core n.val) ∧ SameF c (t.core n.val) ∧ SameP c (t.core n.val) ∧ SameV c (t.core n.val) ∧
          (t.core n.val).regs.pc = c.regs.pc + 1 ∧ (∀ m, m ≠ n.val → t.core m = s.dev.core m) ∧ t.mem = s.dev.mem) ∧
  (
    ∀ (s : State) (n : CoreN) (k : Nat) (j : Job),
      let c := s.dev.core n.val
      c.regs.budgDue = true → s.dev.coreJob n.val = some (k, j) →
        Gives (.budgetExpire n) s fun t => (t.core n.val).evt.budgOvr = true ∧
          (t.core n.val).evt.ovrPhase = BitVec.ofNat 6 c.regs.phase ∧ (t.core n.val).regs.budgOn = false ∧
          t.job k = some { j with overrun := true } ∧ (t.core n.val).sp = c.sp ∧ t.mem = s.dev.mem ∧ SameX c (t.core n.val))

/-- R255, R337: a core ADD or SET of a counter of its tenant enters the sync block behind the core's earlier DMA writes and remote transfers;
the core's registers and the counters do not change yet. R338, R339: sync.read leaves x[D] pending until the block answers; sync.wait holds
issue until the counter has reached x[B]. R338: the value that the block has returned is written to x[D] and the read is over. R256, R398,
R400, R535: a satisfied WAIT_GE, arrival wait or transfer fence ends: issue can go on and a run-ahead window closes. An unsatisfied one
keeps its wait. -/
def Obligations.CoreSyncInstructions : Prop :=
  (
    ∀ (s : State) (n : CoreN) (q : Pred) (a b : Reg) (imm : W32) (j : Job) (p : Prog),
      let c := s.dev.core n.val
      let ctr := (c.getX a.toNat).toNat
      let Queues (i : Instr) (op : SynOp) : Prop :=
        let e : SynPend :=
          { ctr := ctr, op := op, src := 6 + n.val, needDma := c.dmaLastWr, needRem := c.remIss, fn := j.tenant, id := s.dev.syn.nextId }
        Gives i s fun t => t.syn = { s.dev.syn with pend := s.dev.syn.pend ++ [e], nextId := s.dev.syn.nextId + 1 } ∧
          SameRegs c (t.core n.val) ∧ SameStore c (t.core n.val) ∧ (t.core n.val).regs.pc = c.regs.pc + 1 ∧
          (∀ m, m ≠ n.val → t.core m = s.dev.core m) ∧ t.mem = s.dev.mem
      s.dev.ownsCtr j.tenant ctr = true → j.st ≠ .presolving → c.rows.flip = false →
      (CanIssue s.dev n.val q [.x a.toNat, .x b.toNat] j p →
        Queues (.syncAdd n q a b) (.add ((c.getX b.toNat).setWidth 32)) ∧ Queues (.syncSet n q a b) (.set (c.getX b.toNat))) ∧
      (CanIssue s.dev n.val q [.x a.toNat] j p → Queues (.syncAddI n q a imm) (.add imm))) ∧
  (
    ∀ (s : State) (n : CoreN) (q : Pred) (d a b : Reg) (j : Job) (p : Prog),
      let c := s.dev.core n.val
      let ctr := (c.getX a.toNat).toNat
      s.dev.ownsCtr j.tenant ctr = true →
      (CanIssue s.dev n.val q [.x a.toNat, .x d.toNat] j p →
        Gives (.syncRead n q d a) s fun t => SameRegs c (t.core n.val) ∧ SameStore c (t.core n.val) ∧
          (t.core n.val).regs.pc = c.regs.pc + 1 ∧
          (∃ o, (t.core n.val).ops = c.ops.map Op.passed ++ [o] ∧ o.kind = .syncRead d.toNat ctr ∧ o.dst = realRegs [.x d.toNat]) ∧
          ∃ x, t.syn.pend = s.dev.syn.pend ++ [x] ∧ x.ctr = ctr ∧ x.op = .read n.val c.nextSeq) ∧
      (CanIssue s.dev n.val q [.x a.toNat, .x b.toNat] j p →
        Issues (.syncWait n q a b) s n.val fun c' => c'.wait = .sync ctr (c.getX b.toNat) (s.dev.ctrGe ctr (c.getX b.toNat)))) ∧
  (
    ∀ (s : State) (n : CoreN) (o : Op) (ws : List RegWrite),
      let c := s.dev.core n.val
      c.ops.find? (fun o => decide (o.unit = .sync) && match o.kind with
        | .regs _ => true
        | _ => false) = some o → o.kind = .regs ws →
      Gives (.syncReadReturn n) s fun t => (t.core n.val).regs = (c.writeRegs ws).regs ∧
        OpLeaves s.dev t n.val o ∧ Outside s.dev t n.val ∧ SameStore c { t.core n.val with regs := c.regs }) ∧
  (
    ∀ (s : State) (n : CoreN),
      let c := s.dev.core n.val
      let Resumes (i : Instr) : Prop :=
        Gives i s fun t => (t.core n.val).wait = .none ∧ (t.core n.val).spec.ra = none ∧ (t.core n.val).regs = c.regs ∧
          (t.core n.val).sp = c.sp ∧ Outside s.dev t n.val
      (c.dbg.halted = false →
        (∀ k w, c.wait = .sync k w true → Resumes (.waitGeResume n)) ∧
        (∀ k w, c.wait = .arr k w true → Resumes (.arrWaitResume n)) ∧
        (c.wait = .fence → c.dmaq = [] → c.rq = [] → Resumes (.xferFenceResume n))) ∧
      (∀ k w, c.wait = .sync k w false → Gives (.waitGeResume n) s fun t => t = s.dev) ∧
      (∀ k w, c.wait = .arr k w false → Gives (.arrWaitResume n) s fun t => t = s.dev))

/-- R344-R349: on the lead core an ember.save starts its copy, and a job.done with a permitted status holds issue until it retires. R34, R345:
at its replacement cycle the ember save becomes the recorded ember: the copied rows, residual and count, and the time; the rows stand in the
ember store. R40, R349, R351: job.done retires once nothing is in flight: the end of the job is fixed with its status, residual and count; the
cores stop with the next FCLK cycle (Table 1-2). -/
def Obligations.EmberSaveAndJobDone : Prop :=
  (
    ∀ (s : State) (n : CoreN) (q : Pred) (a b e : Reg) (h : Handle) (rows : Fin 9) (first : W16) (st : Byte) (j : Job) (p : Prog),
      let c := s.dev.core n.val
      let hd := c.handle h.toNat
      let rs := (span first.toNat rows.val).map (fun i => (hd.mem, c.readRow false hd i))
      c.idx = 0 → j.st ≠ .presolving → c.rows.flip = false → resultSynds hd rows.val first.toNat = [] →
      (rows = 0 → h = 0 ∧ first = 0) →
      c.haz.mode ≠ 2 → c.rangeBlocked (mkHold false hd.mem (rs.map Prod.snd)) = false →
      (CanIssue s.dev n.val q [.x a.toNat, .f b.toNat] j p → (∀ o ∈ c.ops, o.unit ≠ .ember) →
        Starts (.emberSave n q a b h rows first) s n.val
          (.ember rs [] (c.getF b.toNat) (BitVec.ofNat 64 (min (c.getX a.toNat).toNat 0xFFFFFF))) .ember [] (2 * (16 + 8 * rows.val))) ∧
      (CanIssue s.dev n.val q [.x a.toNat, .f b.toNat, .x e.toNat] j p → (st = 0 ∨ st = 8 ∨ 0x80 ≤ st.toNat) →
        Issues (.jobDone n q a b e h rows st first) s n.val fun c' =>
          c'.wait = .done st.toNat a.toNat b.toNat e.toNat h.toNat rows.val first.toNat (mkHold false hd.mem (rs.map Prod.snd)))) ∧
  (
    ∀ (s : State) (n : CoreN) (o : Op) (got : List Byte) (resid : W32) (iter : W64),
      let c := s.dev.core n.val
      c.ops.find? (fun o => match o.kind with
        | .ember todo _ _ _ => todo.isEmpty && decide (o.left = 0)
        | _ => false) = some o → o.kind = .ember [] got resid iter →
        Gives (.emberReplace n) s fun t =>
          (t.core n.val).ember = some { rows := got.length / 512, resid := resid, iter := iter.toNat, time := s.dev.glb.time } ∧
          Memory.readN 0 (t.core n.val).estore 0 got.length = got ∧ (t.core n.val).sp = c.sp ∧ (t.core n.val).regs = c.regs ∧
          OpLeaves s.dev t n.val o ∧ t.mem = s.dev.mem ∧ ∀ m, m ≠ n.val → t.core m = s.dev.core m) ∧
  (
    ∀ (s : State) (n : CoreN) (k : Nat) (j : Job) (st a b x h rows first : Nat) (hs : List Hold),
      let c := s.dev.core n.val
      s.dev.coreJob n.val = some (k, j) → c.wait = .done st a b x h rows first hs → c.ops = [] → c.dbg.halted = false →
      s.dev.expired j = false → j.fin = none →
        Gives (.jobDoneRetire n) s fun t => ∃ j' f, t.job k = some j' ∧ j'.st = .ending ∧ j'.fin = some f ∧
          f.final = BitVec.ofNat 8 st ∧ f.time = s.dev.glb.time ∧ f.resid = c.getF b ∧ f.iter = min (c.getX a).toNat 0xFFFFFF ∧
          f.detail = (if st = 8 then (c.getX x).setWidth 32 else 0) ∧ (f.written = true ↔ rows = 0) ∧ f.fclk = s.dev.fno ∧
          j'.stopped = false ∧ (∀ m, t.core m = s.dev.core m) ∧ t.mem = s.dev.mem)

/-- R353-R356, R473, R548, Table 13-5: spec.accept does nothing outside PRESOLVING; on the lead core of a PRESOLVING job whose measurement is
delivered it commits the run where p[A] = 1 and squashes it where p[A] = 0. A squash leaves only the writes to versioned rows in flight, and a
core without such a write stands as at a start at once. -/
def Obligations.SpecAccept : Prop :=
  ∀ (s : State) (n : CoreN) (q : Pred) (a : PReg) (k : Nat) (j : Job) (p : Prog),
    let c := s.dev.core n.val
    CanIssue s.dev n.val q [.p a.toNat] j p → s.dev.coreJob n.val = some (k, j) →
    (j.st ≠ .presolving → Issues (.specAccept n q a) s n.val fun c' => c'.wait = c.wait ∧ c'.rows = c.rows) ∧
    (j.st = .presolving → c.idx = 0 → j.delivered = true → s.dev.expired j = false →
      (c.getP a.toNat = true → Gives (.specAccept n q a) s fun t => (∃ j', t.job k = some j' ∧ j'.st = .running ∧ j'.accepted = true ∧
          j'.squashed = j.squashed) ∧ (∀ m ∈ j.cores, (t.core m).rows.flip = true) ∧ t.mem = s.dev.mem) ∧
      (c.getP a.toNat = false → Gives (.specAccept n q a) s fun t => (∃ j', t.job k = some j' ∧ j'.st = .running ∧ j'.squashed = true ∧
          j'.loading = true ∧ j'.predicted = false) ∧
        (∀ m ∈ j.cores, (t.core m).run = false ∧ (∀ o ∈ (t.core m).ops, o.versioned = true) ∧
          ((∀ o ∈ (s.dev.core m).ops, o.versioned = false) →
            (t.core m).ops = [] ∧ (t.core m).rows.shd = [] ∧ ∀ r, (t.core m).getX r = 0)) ∧ t.mem = s.dev.mem))

/-- R365, R366, R370-R373, R943: a vector or refinement instruction that the tokens cover starts on the VU with its lanes formed, and takes the
latency of Table 9-3 or Table 9-4. R513, R514, R519: a vector instruction that the cover does not allow is held: no operation starts, the
stall counts, and the shortfall is asked for. R366-R369, R402, R942: vld, vst and rcount present their row accesses to the VU port; vst with
the lanes converted at issue. -/
def Obligations.VectorInstructions : Prop :=
  (
    ∀ (s : State) (n : CoreN) (q : Pred) (d a b e : VReg) (f x : Reg) (rm : Rm) (j : Job) (p : Prog),
      let c := s.dev.core n.val
      let fpc := c.regs.fpc
      let m := c.rmode rm
      let va := c.getV a.toNat
      let vb := c.getV b.toNat
      let ve := c.getV e.toNat
      let lane := (c.getX x.toNat).toNat % 128
      let V (i : Instr) (ws : List W32) (lat : Nat) : Prop := Starts i s n.val (.regs [.v d.toNat ws]) .vu [.v d.toNat] lat
      let F (i : Instr) (w : W32) (lat : Nat) : Prop := Starts i s n.val (.regs [.f f.toNat w]) .vu [.f f.toNat] lat
      c.tokensOk 1 = true →
      (CanIssue s.dev n.val q [.v a.toNat, .v b.toNat, .v d.toNat] j p →
        V (.vadd n q d a b rm) (List.zipWith (f32Add fpc m) va vb) 4 ∧ V (.vsub n q d a b rm) (List.zipWith (f32Sub fpc m) va vb) 4 ∧
        V (.vmul n q d a b rm) (List.zipWith (f32Mul fpc m) va vb) 4 ∧ V (.vmin n q d a b) (List.zipWith (f32Min fpc) va vb) 4 ∧
        V (.vmax n q d a b) (List.zipWith (f32Max fpc) va vb) 4) ∧
      (CanIssue s.dev n.val q [.v a.toNat, .v b.toNat, .v e.toNat, .v d.toNat] j p →
        V (.vfma n q d a b e rm) (List.zipWith (fun (xy : W32 × W32) z => f32Fma fpc m xy.1 xy.2 z) (va.zip vb) ve) 4 ∧
        V (.vrfRes n q d a b e) (List.zipWith (fun (xy : W32 × W32) z => resid3 fpc xy.1 xy.2 z) (va.zip vb) ve) 6) ∧
      (CanIssue s.dev n.val q [.v a.toNat, .v d.toNat] j p →
        V (.vabs n q d a) (va.map (· &&& 0x7FFFFFFF)) 4 ∧ V (.vneg n q d a) (va.map (· ^^^ 0x80000000)) 4) ∧
      (CanIssue s.dev n.val q [.f f.toNat, .v d.toNat] j p → V (.vbcast n q d f) (List.replicate 128 (c.getF f.toNat)) 2) ∧
      (CanIssue s.dev n.val q [.v d.toNat, .f f.toNat, .x x.toNat, .v d.toNat] j p →
        V (.vins n q d f x) ((c.getV d.toNat).set lane (c.getF f.toNat)) 2) ∧
      (CanIssue s.dev n.val q [.v a.toNat, .x x.toNat, .f f.toNat] j p → F (.vext n q f a x) (c.getL a.toNat lane) 2) ∧
      (CanIssue s.dev n.val q [.v a.toNat, .f f.toNat] j p →
        F (.vsum n q f a rm) (sum128 fpc m va) 10 ∧ F (.vamax n q f a) (f32 fpc .rne (amax fpc va)) 10) ∧
      (CanIssue s.dev n.val q [.v a.toNat, .v b.toNat, .f f.toNat] j p →
        F (.vdot n q f a b rm) (sum128 fpc m (List.zipWith (f32Mul fpc m) va vb)) 10) ∧
      (CanIssue s.dev n.val q [.v a.toNat, .v b.toNat, .v d.toNat, .v e.toNat] j p → d ≠ e →
        let rs := List.zipWith (twoSum fpc) va vb
        Starts (.vrfTsum n q d e a b) s n.val (.regs [.v d.toNat (rs.map Prod.fst), .v e.toNat (rs.map Prod.snd)]) .vu
          [.v d.toNat, .v e.toNat] 6) ∧
      (CanIssue s.dev n.val q [.v a.toNat, .x x.toNat] j p →
        Starts (.vrfExp n q x a) s n.val (.regs [.x x.toNat (expOf fpc va)]) .vu [.x x.toNat] 8)) ∧
  (
    ∀ (s : State) (n : CoreN) (q : Pred) (d a b : VReg) (rm : Rm) (j : Job) (p : Prog),
      let c := s.dev.core n.val
      CanIssue s.dev n.val q [.v a.toNat, .v b.toNat, .v d.toNat] j p → c.tokensOk 1 = false →
        Gives (.vadd n q d a b rm) s fun t => SameRegs c (t.core n.val) ∧ (t.core n.val).regs.pc = c.regs.pc ∧
          (t.core n.val).ops = c.ops.map Op.passed ∧ (t.core n.val).tok.stall = satInc c.tok.stall ∧
          (t.core n.val).evt.tokStall = true ∧
          (c.usable = 0 → c.tok.ireq = none → (t.core n.val).tok.ireq = some (1, s.dev.fno)) ∧
          (c.usable ≠ 0 ∨ c.tok.ireq ≠ none → (t.core n.val).tok.ireq = c.tok.ireq) ∧ t.mem = s.dev.mem) ∧
  (
    ∀ (s : State) (n : CoreN) (q : Pred) (d b : VReg) (x a y : Reg) (h : Handle) (fm : Fmt) (b32 ex : Bool) (part : BitVec 2) (imm : W16)
      (rows : BitVec 5) (mode : BitVec 3) (j : Job) (p : Prog),
      let c := s.dev.core n.val
      let hd := c.handle h.toNat
      let pres := decide (j.st = .presolving)
      let f := fm.toNat
      let sz := blockSize b32
      let t := tileRow f sz ((imm.toNat + (c.getX a.toNat).toNat) % 2 ^ 64)
      let r0 := (imm.toNat + (c.getX a.toNat).toNat) % 2 ^ 64
      let rr := c.readRow pres hd t.row
      let rs := t.srow.map (c.readRow pres hd)
      let wr := c.writeRow pres hd t.row
      let ws := t.srow.map (c.writeRow pres hd)
      let cnt := (span r0 rows.toNat).map (c.readRow pres hd)
      c.vuPortBusy hd.mem = false → c.haz.mode ≠ 2 →
      (CanIssue s.dev n.val q [.x a.toNat, .v d.toNat] j p →
        (CoreOp.vld d.toNat a.toNat h.toNat f b32 part.toNat imm.toNat).reserved = false →
        handleSynd hd [0, 1, 2] (topRow [t]) = [] → c.rangeBlocked (mkHold false hd.mem (rr :: rs.toList)) = false →
        Starts (.vld n q d a h fm b32 part imm) s n.val (.vload d.toNat hd.mem rr rs t.grp f sz part.toNat c.regs.fpc none) .vmem [.v d.toNat] 0) ∧
      (CanIssue s.dev n.val q (.x a.toNat :: .v b.toNat :: (if ex then [.x y.toNat] else [])) j p →
        (CoreOp.vst a.toNat b.toNat y.toNat h.toNat f b32 part.toNat ex imm.toNat).reserved = false →
        handleSynd hd [0, 1, 2] (topRow [t]) = [] → c.rangeBlocked (mkHold true hd.mem (wr :: ws.toList)) = false → c.writable pres hd →
        let out := storeLanes c.regs.fpc c.gv f sz (if ex then some ((c.getX y.toNat).toNat % 256) else none) (c.getV b.toNat)
        Starts (.vst n q a b y h fm b32 part ex imm) s n.val
          (.vstore hd.mem wr (part.toNat * 128 * fmtSize f) out.bytes (ws.getD 0) (t.grp * (512 / sz) + part.toNat * 128 / sz) out.scales
            0) .vmem [] 4) ∧
      (CanIssue s.dev n.val q [.x a.toNat, if f = 0 then .f y.toNat else .x y.toNat, .x x.toNat] j p →
        (CoreOp.rcount x.toNat a.toNat y.toNat h.toNat rows.toNat mode.toNat f imm.toNat).reserved = false →
        handleSynd hd [0, 1, 2] (r0 + rows.toNat - 1) = [] → c.rangeBlocked (mkHold false hd.mem cnt) = false →
        Starts (.rcount n q x a y h rows mode fm imm) s n.val
          (.count x.toNat mode.toNat f (if f = 0 then c.getF y.toNat else (c.getX y.toNat).setWidth 32) c.regs.fpc hd.mem cnt 0) .rcount
          [.x x.toNat] (6 + rows.toNat)))

/-- R374-R380: a matrix product that its tokens, ranges and unit allow starts: K and Q as encoded, its result rows, one group of rows for each
row of A and of B, the rows its accumulator starts from (R471), and its latency of 8 CCLK, one per row read, K times the element cost, and one
per result row. R377-R380: a result row that its bank grants is written, with the elements of C that lie in it; a product all of whose rows
are written leaves the engine when its latency is over. R942: a vst whose writes are done leaves, its data in place. -/
def Obligations.MatrixProductAndVectorUnits : Prop :=
  (
    ∀ (s : State) (n : CoreN) (q : Pred) (t0 t1 : Tile) (h2 : Handle) (o2 : BitVec 10) (xa xb xc : Reg) (acc : Bool) (kch : BitVec 4)
      (qq : BitVec 2) (j : Job) (p : Prog),
      let c := s.dev.core n.val
      let pres := decide (j.st = .presolving)
      let pl := planMma (.of t0) (.of t1) h2.toNat o2.toNat xa.toNat xb.toNat xc.toNat acc kch.toNat qq.toNat n.val c pres
      let ra := tileRows t0.f.toNat (blockSize t0.b) ((t0.o.toNat + (c.getX xa.toNat).toNat) % 2 ^ 64) (t0.n.toNat + 1)
      let rb := tileRows t1.f.toNat (blockSize t1.b) ((t1.o.toNat + (c.getX xb.toNat).toNat) % 2 ^ 64) (t1.n.toNat + 1)
      let w := (t0.n.toNat + qq.toNat) / 4 + 1
      let k := 32 * (kch.toNat + 1)
      CanIssue s.dev n.val q [.x xa.toNat, .x xb.toNat, .x xc.toNat] j p →
      (CoreOp.mma (.of t0) (.of t1) h2.toNat o2.toNat xa.toNat xb.toNat xc.toNat acc kch.toNat qq.toNat).reserved = false →
      c.unitFree .mxe → c.gate s.dev.fno pres 2 pl = .go →
        ∃ m todo, Starts (.mxeMma n q t0 t1 h2 o2 xa xb xc acc kch qq) s n.val (.mma m todo [] [] 0) .mxe []
            (8 + ((touched ra).length + (touched rb).length) + k * mxeCost t0.f.toNat + w) ∧
          m.k = k ∧ m.q = qq.toNat ∧ m.acc = acc ∧ m.fpc = c.regs.fpc ∧ m.aRows.length = t0.n.toNat + 1 ∧
          m.bRows.length = t1.n.toNat + 1 ∧
          m.cRows = (span ((o2.toNat + (c.getX xc.toNat).toNat) % 2 ^ 64) w).map (c.writeRow pres (c.handle h2.toNat)) ∧
          m.cSrc = (if acc then (span ((o2.toNat + (c.getX xc.toNat).toNat) % 2 ^ 64) w).map (c.readRow pres (c.handle h2.toNat)) else []) ∧
          todo.length = (touched ra).length + (touched rb).length) ∧
  (
    ∀ (s : State) (n : CoreN) (o : Op),
      let c := s.dev.core n.val
      (∀ m got cgot w r, c.ops = [o] → o.kind = .mma m [] got cgot w → cgot.length = m.cSrc.length → w < m.cRows.length → m.bRows.length ≤ 32 →
        o.left ≤ m.cRows.length - w → nth 0 m.cRows w = r → c.dmaq = [] → c.rq = [] →
        (SMap.get {} c.banks (2 * 8 + bankOf r)).used = false → c.ported = [] → c.sound 2 r allWords →
        Gives (.scratchpadGrant n 2 ⟨bankOf r % 8, Nat.mod_lt _ (by decide)⟩ false 0 0 false) s fun t =>
          (t.core n.val).sp = ((mmaPieces m got (cgot.getD w []) w).foldl (fun k p => k.spWrite 2 r p.1 p.2) c).sp ∧
          (t.core n.val).ops = [{ o with kind := .mma m [] got cgot (w + 1) }] ∧ (t.core n.val).regs = c.regs ∧ t.mem = s.dev.mem ∧
          ∀ k, k ≠ n.val → t.core k = s.dev.core k) ∧
      (c.ops.find? (fun o => match o.kind with
          | .mma m todo _ _ w => todo.isEmpty && decide (m.cRows.length ≤ w) && decide (o.left = 0)
          | _ => false) = some o →
        Gives (.mxeComplete n) s fun t => (t.core n.val).sp = c.sp ∧ OpLeaves s.dev t n.val o ∧ (t.core n.val).regs = c.regs ∧
          t.mem = s.dev.mem ∧ ∀ k, k ≠ n.val → t.core k = s.dev.core k) ∧
      (c.ops.find? (fun o => match o.kind with
          | .vstore _ _ _ _ _ _ _ stage => decide (2 ≤ stage) && decide (o.left = 0)
          | _ => false) = some o →
        Gives (.vstWriteDone n) s fun t => (t.core n.val).sp = c.sp ∧ OpLeaves s.dev t n.val o ∧ (t.core n.val).regs = c.regs ∧
          t.mem = s.dev.mem ∧ ∀ k, k ≠ n.val → t.core k = s.dev.core k))

/-- R381-R388: a dma.rd or dma.wr whose rows, extent and ranges pass enters the core's queue of 16, with its tile, address, stride (the row
length where field C names x0) and number of rows; nothing has moved yet. R383, R385, R388, R449: a transfer of one row without conversion between
DRAM and the scratchpad, whose bank no other request wants, copies the row when it completes, leaves the queue, and counts as done. R386: a row of an ASYNC dma.rd becomes
resident: it is written and its arrival counter goes up by one; the transfer stays queued. R88, R308: an error response gives the transfer
up and ends the job FAULT with the asynchronous syndrome 0x20. -/
def Obligations.LocalTransfers : Prop :=
  (
    ∀ (s : State) (n : CoreN) (q : Pred) (t : Tile) (f1 : Fmt) (b1 as : Bool) (xa xb xc : Reg) (j : Job) (p : Prog),
      let c := s.dev.core n.val
      let pres := decide (j.st = .presolving)
      let hd := c.handle t.h.toNat
      let pl (rd a : Bool) := planDma rd a (.of t) f1.toNat xa.toNat xb.toNat xc.toNat n.val c j pres s.dev
      let len := if f1.toNat = 2 then 512 else memRowLen t.f.toNat f1.toNat
      let Enters (i : Instr) (rd : Bool) : Prop :=
        Gives i s fun d => Outside s.dev d n.val ∧ SameRegs c (d.core n.val) ∧ (d.core n.val).sp = c.sp ∧
          (d.core n.val).regs.pc = c.regs.pc + 1 ∧ (d.core n.val).dmaIss = c.dmaIss + 1 ∧
          ∃ x, (d.core n.val).dmaq = c.dmaq ++ [x] ∧ x.rd = rd ∧ x.mem = hd.mem ∧ x.moved = 0 ∧ x.addr = (c.getX xb.toNat).toNat ∧
            x.rowLen = len ∧ x.stride = (if f1.toNat = 2 ∨ xc = 0 then len else (c.getX xc.toNat).toNat) ∧
            x.rows.length = (dmaRows (.of t) f1.toNat ((t.o.toNat + (c.getX xa.toNat).toNat) % 2 ^ 64)).length ∧
            x.async = (rd && as && hd.actr.isSome) ∧ x.fpc = c.regs.fpc
      CanIssue s.dev n.val q [.x xa.toNat, .x xb.toNat, .x xc.toNat] j p →
      (dmaReserved true (.of t) f1.toNat b1 xc.toNat = false → c.gate s.dev.fno pres 0 (pl true as) = .go →
        Enters (.dmaRd n q t f1 b1 xa xb xc as) true) ∧
      (dmaReserved false (.of t) f1.toNat b1 xc.toNat = false → c.gate s.dev.fno pres 0 (pl false false) = .go →
        Enters (.dmaWr n q t f1 b1 xa xb xc) false)) ∧
  (
    ∀ (s : State) (n : CoreN) (k : Nat) (j : Job) (x : Dma) (rest : List Dma) (r : Nat) (host : List Byte),
      let c := s.dev.core n.val
      c.dmaq = x :: rest → s.dev.coreJob n.val = some (k, j) → x.rows = [(r, none, 0)] → x.moved = 0 → x.f0 = x.f1 → x.rowLen = 512 →
      x.addr < 2 ^ 63 → x.addr + 512 ≤ s.dev.usable → s.dev.mem.poison = [] → Uncontended c 2 x.mem r →
      (x.rd = false → x.data = none ∧ c.sound x.mem r allWords) →
        Gives (.dmaTransferComplete n host) s fun t => (t.core n.val).dmaq = rest ∧ (t.core n.val).dmaDone = c.dmaDone + 1 ∧
          (t.core n.val).regs = c.regs ∧
          (x.rd = true → (t.core n.val).spRow x.mem r = s.dev.peek x.addr 512 ∧ t.mem.dram = s.dev.mem.dram) ∧
          (x.rd = false → t.peek x.addr 512 = c.spRow x.mem r ∧ (t.core n.val).sp = c.sp)) ∧
  (
    ∀ (s : State) (n : CoreN) (k : Nat) (j : Job) (x : Dma) (rest : List Dma) (r i : Nat) (more : List (Nat × Option Nat × Nat))
      (host : List Byte),
      let c := s.dev.core n.val
      c.dmaq = x :: rest → s.dev.coreJob n.val = some (k, j) → x.rows = (r, none, 0) :: more → x.moved = 0 → x.rd = true →
      x.async = true → x.actr = some i → x.f0 = x.f1 → x.rowLen = 512 → x.addr < 2 ^ 63 → x.addr + 512 ≤ s.dev.usable →
      s.dev.mem.poison = [] → Uncontended c 2 x.mem r →
        Gives (.dmaRowResident n host) s fun t => (t.core n.val).spRow x.mem r = s.dev.peek x.addr 512 ∧
          SMap.get 0 (t.core n.val).rows.arr i = SMap.get 0 c.rows.arr i + 1 ∧ (t.core n.val).dmaq.length = rest.length + 1 ∧
          (t.core n.val).regs = c.regs ∧ t.mem.dram = s.dev.mem.dram) ∧
  (
    ∀ (s : State) (n : CoreN) (k : Nat) (j : Job), (s.dev.core n.val).dmaq ≠ [] → s.dev.coreJob n.val = some (k, j) → j.fin = none →
      s.dev.expired j = false → s.dev.dbg.on = false →
        Gives (.dmaErrorResponse n) s (Faulted s.dev · n.val k 0x20 0xFFFFFF))

/-- R389-R394: rw.put enters the queue of 8; ring.push enters it where the ring has room, taking the next tail places, and waits where it has
none. R391, R392: the row at the head of a remote transfer whose bank no other request wants is read, and arrives whole among the rows that its
destination has to write. R391-R393, R466: with the end of the FCLK cycle the first of them is written at its handle row, at the tail place of
a ring, and counts on the arrival counter of the handle and on the tail count of the ring. R397: a remote transfer all of whose rows are
written leaves the queue, and counts as done. R394: a waiting ring.push that has room and a place in the queue issues; a head count report
reaches every core of the set. R396, R398-R400, R465-R468: ring.head, ring.avail and ring.pop; arr.wait holds issue only below its value;
arr.read and arr.set; xfer.fence holds issue only while a transfer is queued. -/
def Obligations.RemoteTransfersAndRings : Prop :=
  (
    ∀ (s : State) (n : CoreN) (q : Pred) (h0 h1 : Handle) (o0 n0 o1 : BitVec 10) (xb xc : Reg) (j : Job) (p : Prog),
      let c := s.dev.core n.val
      let pres := decide (j.st = .presolving)
      let src := (span o0.toNat (n0.toNat + 1)).map (c.readRow pres (c.handle h0.toNat))
      let dst := (c.getX xb.toNat).toNat
      let Keeps (t : Dev) : Prop := SameRegs c (t.core n.val) ∧ (t.core n.val).sp = c.sp ∧ (t.core n.val).regs.pc = c.regs.pc + 1 ∧
        t.mem = s.dev.mem
      (CanIssue s.dev n.val q [.x xb.toNat, .x xc.toNat] j p →
        c.gate s.dev.fno pres 0 (planRwPut h0.toNat o0.toNat n0.toNat h1.toNat o1.toNat xb.toNat xc.toNat n.val c j pres) = .go →
        Gives (.rwPut n q h0 o0 n0 h1 o1 xb xc) s fun t => Keeps t ∧ ∃ x, (t.core n.val).rq = c.rq ++ [x] ∧ x.ring = false ∧
          x.rows = src ∧ x.dst = dst ∧ x.handle = h1.toNat ∧ x.row = (o1.toNat + (c.getX xc.toNat).toNat) % 2 ^ 64) ∧
      (CanIssue s.dev n.val q [.x xb.toNat] j p →
        c.gate s.dev.fno pres 0 (planRingPush h0.toNat o0.toNat n0.toNat h1.toNat xb.toNat n.val c j pres s.dev) = .go →
        (n0.toNat + 1 ≤ c.ringFree dst h1.toNat →
          Gives (.ringPush n q h0 o0 n0 h1 xb) s fun t => Keeps t ∧ (t.core n.val).wait = .none ∧
            ∃ x, (t.core n.val).rq = c.rq ++ [x] ∧ x.ring = true ∧ x.rows = src ∧ x.dst = dst ∧ x.handle = h1.toNat) ∧
        (c.ringFree dst h1.toNat < n0.toNat + 1 →
          Gives (.ringPush n q h0 o0 n0 h1 xb) s fun t => Keeps t ∧ (t.core n.val).rq = c.rq ∧
            ∃ x, (t.core n.val).wait = .ring x (n0.toNat + 1) ∧ x.rows = src ∧ x.dst = dst ∧ x.handle = h1.toNat))) ∧
  (
    ∀ (s : State) (n : CoreN) (k : Nat) (j : Job) (x : Remote) (rest : List Remote) (r : Nat) (more : List Nat),
      let c := s.dev.core n.val
      let dst := nth 0 j.cores x.dst
      let y : Inbound :=
        { fclk := s.dev.fno, src := c.idx, ring := x.ring, handle := x.handle, row := x.row, bytes := c.spRow x.mem r }
      c.rq = x :: rest → s.dev.coreJob n.val = some (k, j) → x.rows = r :: more → x.sent = [] → Uncontended c 2 x.mem r →
      c.sound x.mem r allWords →
        Gives (.remoteRowArrive n .clean) s fun t =>
          (t.core dst).inb = placeInbound y (s.dev.core dst).inb ∧
          (∃ y, (t.core n.val).rq = y :: rest ∧ y.rows = more ∧ y.sent = [] ∧ y.row = x.row + 1) ∧
          (∀ m, SameRegs (s.dev.core m) (t.core m) ∧ (t.core m).sp = (s.dev.core m).sp) ∧ t.mem = s.dev.mem) ∧
  (
    ∀ (d : Dev) (m : Nat) (r : Inbound) (rest : List Inbound),
      let c := d.core m
      let hd := c.handle r.handle
      let place := hd.base + (if r.ring then SMap.get 0 c.rows.tc r.handle % hd.count else r.row)
      c.inb = r :: rest → r.bytes.length = 512 → Uncontended c 3 hd.mem place →
        let t := d.writeInbound m
        (t.core m).spRow hd.mem place = r.bytes ∧ (t.core m).inb = rest ∧
          (∀ i, hd.actr = some i → SMap.get 0 (t.core m).rows.arr i = SMap.get 0 c.rows.arr i + 1) ∧
          (r.ring = true → SMap.get 0 (t.core m).rows.tc r.handle = (SMap.get 0 c.rows.tc r.handle + 1) % (2 * hd.count)) ∧
          SameRegs c (t.core m) ∧ (∀ i, i ≠ m → t.core i = d.core i) ∧ t.mem = d.mem) ∧
  (
    ∀ (s : State) (n : CoreN) (k : Nat) (j : Job) (x : Remote) (rest : List Remote),
      let c := s.dev.core n.val
      c.rq = x :: rest → s.dev.coreJob n.val = some (k, j) → x.rows = [] → x.sent = [] →
      (∀ r ∈ (s.dev.core (nth 0 j.cores x.dst)).inb, r.src ≠ c.idx) →
        Gives (.remoteTransferComplete n) s fun t => (t.core n.val).rq = rest ∧ (t.core n.val).remDone = c.remDone + 1 ∧
          (∀ m, SameRegs (s.dev.core m) (t.core m)) ∧ t.mem = s.dev.mem) ∧
  (
    ∀ (s : State) (n : CoreN) (h : Handle) (k : Nat) (j : Job) (x : Remote) (need : Nat),
      let c := s.dev.core n.val
      s.dev.coreJob n.val = some (k, j) →
      (c.wait = .ring x need → need ≤ c.ringFree x.dst x.handle → c.rq.length < 8 → c.dbg.halted = false →
        Gives (.ringPushResume n) s fun t => (t.core n.val).wait = .none ∧
          (∃ y, (t.core n.val).rq = c.rq ++ [y] ∧ y.rows = x.rows ∧ y.dst = x.dst ∧ y.handle = x.handle) ∧
          SameRegs c (t.core n.val) ∧ t.mem = s.dev.mem) ∧
      Gives (.headCountReport n h) s fun t => (∀ m ∈ j.cores,
          SMap.get 0 (t.core m).rows.hcSeen (ringKey c.idx h.toNat) = SMap.get 0 c.rows.hc h.toNat ∧
          SameRegs (s.dev.core m) (t.core m)) ∧ t.mem = s.dev.mem ∧ t.stk = s.dev.stk) ∧
  (
    ∀ (s : State) (n : CoreN) (q : Pred) (d b : Reg) (h : Handle) (i : BitVec 6) (j : Job) (p : Prog),
      let c := s.dev.core n.val
      let hd := c.handle h.toNat
      let hc := SMap.get 0 c.rows.hc h.toNat
      let tc := SMap.get 0 c.rows.tc h.toNat
      let v := (c.getX b.toNat).setWidth 32
      (hd.valid = true → hd.ring = true →
        (CanIssue s.dev n.val q [.x d.toNat] j p →
          XResult (.ringHead n q d h) s n.val d.toNat (BitVec.ofNat 64 (hc % hd.count)) ∧
          XResult (.ringAvail n q d h) s n.val d.toNat (BitVec.ofNat 64 ((tc + 2 * hd.count - hc) % (2 * hd.count)))) ∧
        (CanIssue s.dev n.val q [.x b.toNat] j p → c.haz.mode ≠ 2 →
          Issues (.ringPop n q b h) s n.val fun c' => (∀ g, SMap.get 0 c'.rows.hc g =
            if g = h.toNat then (hc + (c.getX b.toNat).toNat) % (2 * hd.count) else SMap.get 0 c.rows.hc g) ∧ c'.wait = c.wait)) ∧
      (CanIssue s.dev n.val q [.x b.toNat] j p →
        Issues (.arrWait n q b i) s n.val (fun c' =>
          c'.wait = (if v.toNat ≤ (SMap.get 0 c.rows.arr i.toNat).toNat then .none else .arr i.toNat v false) ∧ c'.rows = c.rows) ∧
        (j.st ≠ .presolving → c.rows.flip = false → Issues (.arrSet n q b i) s n.val fun c' => c'.wait = c.wait ∧
          ∀ g, SMap.get 0 c'.rows.arr g = if g = i.toNat then v + SMap.get 0 c.rows.arrNow g else SMap.get 0 c.rows.arr g)) ∧
      (CanIssue s.dev n.val q [.x d.toNat] j p →
        Starts (.arrRead n q d i) s n.val (.regs [.x d.toNat ((SMap.get 0 c.rows.arr i.toNat).setWidth 64)]) .scalar [.x d.toNat] 2) ∧
      (CanIssue s.dev n.val q [] j p →
        Issues (.xferFence n q) s n.val fun c' => c'.wait = (if c.dmaq = [] ∧ c.rq = [] then .none else .fence) ∧ c'.rows = c.rows))

/-- R295, R296, R534, R536: a filled miss brings the line of the next instruction, or the line that run-ahead has asked for, into the cache and
changes no register; the demand fill takes the slot of one in flight. R531, R535: a wait that has held issue for 16 CCLK, and still holds it,
opens a run-ahead window on copies of the registers, where RAEN is in force. R532, R542: a run-ahead word of the program advances the window:
while it may issue, and its load has the bank cycle, the window counts it or stops. R534: a miss starts a fill, and the fourth one stops the
window. -/
def Obligations.CacheAndRunAhead : Prop :=
  (
    ∀ (s : State) (n : CoreN) (line : BitVec 26) (k : Nat) (j : Job) (p : Prog),
      let c := s.dev.core n.val
      s.dev.coreJob n.val = some (k, j) → s.dev.prog j.prog = some p → c.run = true → p.inCode c.regs.pc = true →
      c.spec.hit (p.line c.regs.pc) = false → line.toNat = c.regs.pc.toNat / 4 → SMap.get false s.dev.mem.poison (p.line c.regs.pc) = false →
      c.wait = .none →
        Gives (.icacheMissFill n line) s fun t => (t.core n.val).spec.hit (p.line c.regs.pc) = true ∧ (t.core n.val).spec.raFill = none ∧
          (t.core n.val).regs = c.regs ∧ (t.core n.val).sp = c.sp ∧ t.mem.dram = s.dev.mem.dram ∧
          ∀ m, m ≠ n.val → t.core m = s.dev.core m) ∧
  (
    ∀ (s : State) (n : CoreN) (line : BitVec 26) (k : Nat) (j : Job) (p : Prog),
      let c := s.dev.core n.val
      let l := (p.base + p.codeOfs) / 64 + line.toNat
      s.dev.coreJob n.val = some (k, j) → s.dev.prog j.prog = some p → c.wait ≠ .none → c.spec.raFill = some l →
      SMap.get false s.dev.mem.poison l = false →
        Gives (.icacheMissFill n line) s fun t => (t.core n.val).spec.hit l = true ∧ (t.core n.val).spec.raFill = none ∧
          (t.core n.val).spec.ra = c.spec.ra ∧ (t.core n.val).regs = c.regs ∧ (t.core n.val).sp = c.sp ∧
          t.mem.dram = s.dev.mem.dram ∧ ∀ m, m ≠ n.val → t.core m = s.dev.core m) ∧
  (
    ∀ (s : State) (n : CoreN),
      let c := s.dev.core n.val
      c.wait.raWait = true → 16 ≤ c.spec.waitCyc → c.spec.eff.getLsbD 0 = true → c.spec.ra = none → c.run = true → c.dbg.halted = false →
      c.waitOver = false →
        Gives (.runAheadEnter n) s fun t => (∃ r, (t.core n.val).spec.ra = some r ∧ r.x = c.regs.x ∧ r.f = c.regs.f ∧ r.p = c.regs.p ∧
          r.pc = c.regs.pc ∧ r.stopped = false) ∧ (t.core n.val).regs = c.regs ∧ (t.core n.val).sp = c.sp ∧ Outside s.dev t n.val) ∧
  (
    ∀ (s : State) (n : CoreN) (w : BitVec 128) (r : RunAhead) (q : Pred) (op : CoreOp) (k : Nat) (j : Job) (p : Prog),
      let c := s.dev.core n.val
      c.spec.ra = some r → r.stopped = false → c.dbg.halted = false → c.waitOver = false → s.dev.coreJob n.val = some (k, j) →
      s.dev.prog j.prog = some p → p.inCode r.pc = true →
      (c.spec.hit (p.line r.pc) = true → decodeCore w = some (q, op) → (∀ m row, (c.shadow r).raGrants m row = true) →
        Gives (.runAheadIssue n w) s fun t => ∃ r', (t.core n.val).spec.ra = some r' ∧
          (if op.stopsRunAhead then r'.stopped = true ∧ r'.issued = r.issued else r'.issued = r.issued + 1)) ∧
      (c.spec.hit (p.line r.pc) = false → c.spec.raFill = none →
        Gives (.runAheadIssue n w) s fun t => (t.core n.val).spec.raFill = some (p.line r.pc) ∧
          ∃ r', (t.core n.val).spec.ra = some r' ∧ r'.fills = r.fills + 1 ∧ (r'.stopped = true ↔ 4 ≤ r.fills + 1) ∧ r'.pc = r.pc))

/-- R532-R536: whatever word run-ahead meets, no architectural state changes: no register, pc, scratchpad, counter, queue, job or byte of DRAM;
and nothing is recorded, held or sent, where no word of the core's scratchpads holds an error (R486). -/
def Obligations.RunAheadIsInvisible : Prop :=
  ∀ (s : State) (n : CoreN) (w : BitVec 128), (s.dev.core n.val).rows.drop = false →
    Gives (.runAheadIssue n w) s fun t => (∀ m, SameRegs (s.dev.core m) (t.core m) ∧ (t.core m).regs.pc = (s.dev.core m).regs.pc ∧
        (t.core m).sp = (s.dev.core m).sp ∧ (t.core m).estore = (s.dev.core m).estore ∧ (t.core m).rows = (s.dev.core m).rows ∧
        (t.core m).wait = (s.dev.core m).wait ∧ (t.core m).dmaq = (s.dev.core m).dmaq ∧ (t.core m).rq = (s.dev.core m).rq) ∧
      t.stk = s.dev.stk ∧ t.syn = s.dev.syn ∧ t.mem.dram = s.dev.mem.dram ∧ t.mem.poison = s.dev.mem.poison ∧ t.net = s.dev.net ∧
      ((∀ a, SMap.get 0 (s.dev.core n.val).ecc a = 0) → t.kiln = s.dev.kiln ∧ t.err = s.dev.err ∧ t.out = s.dev.out)

/-- R510, R517, R518: the arbiter grants the first lease request of an earlier FCLK cycle where the float, LEASECAP and the core's limit of 3
cover it. R503, R514, R515, R518: what a core returns stands in the Bellows as returning, no half-token is lost, and it leaves the leases once
it joins the float; a lease whose instruction has ended is kept only as far as the demand needs it. R508: a reservation given up joins the
float after them. R507, R517: the first raise that waits is granted whole once the float covers it. -/
def Obligations.LeasesAndReservations : Prop :=
  (
    ∀ (s : State) (n : CoreN) (o a : Nat) (isI : Bool),
      let c := s.dev.core n.val
      s.dev.firstReq = some (o, n.val, isI, a) → o < s.dev.fno → s.dev.raisePending = none → s.dev.poolStop = false → a ≤ s.dev.float →
      s.dev.leased + a ≤ s.dev.leaseCap → c.tok.rho + c.lease + a ≤ 3 →
        Gives (.leaseGrant n) s fun t => (t.core n.val).cover = c.cover + a ∧ t.blw.grants = satInc s.dev.blw.grants ∧
          (if isI then (t.core n.val).tok.ireq = none else (t.core n.val).tok.preq = none) ∧
          (t.core n.val).regs = c.regs ∧ t.mem = s.dev.mem ∧ ∀ m, m ≠ n.val → t.core m = s.dev.core m) ∧
  (
    ∀ (s : State) (n : CoreN) (k : BitVec 6),
      Gives (.leaseReturn n) s (fun t => (t.core n.val).lease + t.blw.returning = (s.dev.core n.val).lease + s.dev.blw.returning ∧
        (∀ o ∈ (t.core n.val).ops, o.occ = 0 → o.ilease = 0) ∧
        ((t.core n.val).tok.iend = 0 ∨ (t.core n.val).cover ≤ (t.core n.val).demand) ∧ (t.core n.val).regs = (s.dev.core n.val).regs ∧
        ∀ m, m ≠ n.val → t.core m = s.dev.core m) ∧
      (k.toNat ≤ s.dev.blw.returning →
        Gives (.leaseJoinFloat k) s fun t => t.blw.returning + k.toNat = s.dev.blw.returning ∧ t.leased + k.toNat = s.dev.leased ∧
          t.blw.rsvBack = s.dev.blw.rsvBack ∧ t.cores = s.dev.cores) ∧
      (s.dev.blw.returning ≤ k.toNat → k.toNat ≤ s.dev.blw.returning + s.dev.blw.rsvBack →
        Gives (.leaseJoinFloat k) s fun t => t.blw.returning = 0 ∧
          t.blw.rsvBack + k.toNat = s.dev.blw.returning + s.dev.blw.rsvBack ∧ t.cores = s.dev.cores)) ∧
  (
    ∀ (s : State) (n : CoreN) (r : Nat),
      let c := s.dev.core n.val
      s.dev.raisePending = some n.val → c.tok.raise = some r → r - c.tok.rho ≤ s.dev.float → c.lease + r ≤ 3 →
        Gives (.reservationRaise n) s fun t => (t.core n.val).tok.rho = r ∧ (t.core n.val).tok.raise = none ∧
          (t.core n.val).tok.please = c.tok.please ∧ t.blw = s.dev.blw ∧ ∀ m, m ≠ n.val → t.core m = s.dev.core m)

/-! ### Jobs and queues (01, 05, 11, 15, 16) -/

/-- R213-R217, R241, R841: a doorbell write that names a queue of its function, through the port of the page or the queue's own doorbell, sets
the tail, moves the completion head past entries that are written, or releases overflow slots. One that names no queue, a queue of another
function or an index that does not exist is counted and changes nothing. R207, R219-R225: the Stoker takes the entry at the head of the
queue whose turn it is, moves the head, reserves a credit or the lowest free overflow slot, and admits the job: REJECTED_LATE with the
shortfall where DEADLINE − now is below the declared time-to-first-ember; else WAITING on its counter where its fields pass, READY with the
code of the first failing check otherwise. R85, R806: an entry whose flit the fabric loses stops the fetch of its queue. -/
def Obligations.DoorbellsAndFetch : Prop :=
  (
    ∀ (s : State) (f : Fn) (off : BitVec 12) (w : W64) (u i : Nat) (q : Queue),
      let d := s.dev
      let Port (hi : Nat) : Prop := off = 0 ∧ u < 65536 ∧ i < 65536 ∧ w.toNat = u + i * 2 ^ 32 + hi * 2 ^ 61
      let Own (hi : Nat) : Prop := off ≠ 0 ∧ off.toNat % 8 = 0 ∧ i < 65536 ∧ d.queueAt f.val off.toNat = some u ∧ w.toNat = i + hi * 2 ^ 29
      let Sets (c : Instr) (q' : Queue) : Prop :=
        Gives c s fun t => t = { d with stk := t.stk, cores := t.cores, mem := t.mem, pcie := t.pcie, out := t.out } ∧
          t.stk = { d.stk with queues := t.stk.queues } ∧ (∃ b, t.queue u = some { q' with wb := b }) ∧ (∀ v, v ≠ u → t.queue v = d.queue v) ∧
          (∀ n, (t.core n).regs = (d.core n).regs ∧ (t.core n).sp = (d.core n).sp) ∧ MemOutside d.mem t.mem q.desc.headWb 8
      let Ignored : Prop := ∀ c ∈ [Instr.doorbellSqTail f off w, .doorbellCqHead f off w, .doorbellOvfack f off w],
        Gives c s fun t => t = { d with stk := { d.stk with dbErr := satInc d.stk.dbErr } }
      (d.queue u = some q → q.tenant = f.val → q.pst = none →
        (Port 0 ∨ Own 0 →
          (i < q.desc.sqSize → Sets (.doorbellSqTail f off w) { q with tail := i, stopped := false }) ∧ (q.desc.sqSize ≤ i → Ignored)) ∧
        (Port 4 ∨ Own 4 →
          let held := q.cqWritten - q.cqFreed
          (i < q.desc.cqSize → held ≤ q.desc.cqSize →
            (∀ k, k ≤ held → (q.cqFreed + k) % q.desc.cqSize = i → (k = 0 → held < q.desc.cqSize) →
              Sets (.doorbellCqHead f off w) { q with cqFreed := q.cqFreed + k, stopped := false }) ∧
            ((∀ k, k ≤ held → (q.cqFreed + k) % q.desc.cqSize ≠ i) → Ignored)) ∧
          (q.desc.cqSize ≤ i → Ignored)) ∧
        (Port 1 ∨ Own 1 → i < 16 →
          Sets (.doorbellOvfack f off w) { q with ovfMask := q.ovfMask &&& ~~~(BitVec.ofNat 4 i), stopped := false })) ∧
      (off = 0 → (∀ x, d.queue (w.toNat % 65536) = some x → x.tenant ≠ f.val ∨ x.pst.isSome = true) → Ignored) ∧
      (off ≠ 0 → d.queueAt f.val off.toNat = none → Ignored)) ∧
  (
    ∀ (s : State) (u : QId) (host : BitVec 512) (q : Queue),
      let d := s.dev
      let a := q.desc.sqBase + 64 * q.head
      let e := if inHost a 64 then host else BitVec.ofNat 512 (ofBytes (d.peek a 64))
      let k := SMap.firstFree d.stk.jobs 0
      let ovf := if 0 < q.free then none else q.freeSlot
      d.queue u.toNat = some q → d.fetchPick = some u.toNat →
      (if inHost a 64 then d.hostReads q.tenant false = true else d.poisoned a 64 = false) →
      (∀ x, inHost a 64 = true →
        Gives (.stokerFetch u { val := host, fab := .lost x }) s fun t => t.queue u.toNat = some { q with stopped := true } ∧
          (∀ v, v ≠ u.toNat → t.queue v = d.queue v) ∧ t.stk.jobs = d.stk.jobs ∧ t.cores = d.cores) ∧
      Gives (.stokerFetch u { val := host }) s fun t =>
        (∃ b, t.queue u.toNat = some { q with
          head := (q.head + 1) % q.desc.sqSize, infl := q.infl + 1
          credits := if ovf.isNone then q.credits + 1 else q.credits
          ovfRes := match ovf with
            | some i => q.ovfRes ||| (1#4 <<< i)
            | none => q.ovfRes
          wb := b }) ∧
        (∀ v, v ≠ u.toNat → t.queue v = d.queue v) ∧ (∀ n, (t.core n).regs = (d.core n).regs ∧ (t.core n).sp = (d.core n).sp) ∧
        MemOutside d.mem t.mem q.desc.headWb 8 ∧
        JobIs d t k fun j => j.entry = e ∧ j.queue = u.toNat ∧ j.tenant = q.tenant ∧ j.seq = d.stk.seq ∧ j.cores = [] ∧
          j.ovf = ovf ∧
          (d.slack j.deadline < d.ttfeOf q →
            Ends j 0x03 (min (d.ttfeOf q - d.slack j.deadline).toNat 0xFFFFFFFF) d.glb.time) ∧
          ((d.ttfeOf q : Int) ≤ d.slack j.deadline → j.fin = none ∧ j.code = d.fetchCheck q j ∧
            j.st = (if j.code = 0 ∧ j.waitCtr.isSome = true then .waiting else .ready)))

/-- R225, R231, R254, R269, R270: a WAITING job whose counter has been seen at its value becomes READY before its deadline; at its deadline a
WAITING job ends EXPIRED_IN_QUEUE with code 0x01 and a READY one with the code of the check it failed at fetch, or 0x02. Nothing else changes.
R29, R42, R43, R62: the comparator that fires ends a running job QUENCHED with its ember, or QUENCHED_EMPTY, at its deadline; one that fires
later is only remembered. R29, R30: with every FCLK cycle the comparator of each dispatched job whose deadline device time has reached fires.
Table 1-2: the cycle after the one that fixed an end stops the cores of the set. A run with no ember by START plus its declared time is marked
EMBER_LATE. -/
def Obligations.WatchesAndDeadlines : Prop :=
  (
    ∀ (s : State) (k : JobId) (j : Job),
      let d := s.dev
      let Only (c : Instr) (P : Job → Prop) : Prop :=
        Gives c s fun t => t = { d with stk := { d.stk with jobs := t.stk.jobs } } ∧ JobIs d t k.toNat P
      d.job k.toNat = some j →
      (j.st = .waiting → j.watchSat = true → d.now < j.deadline → Only (.stokerWatchReport k) (· = { j with st := .ready })) ∧
      (j.fin = none → j.deadline ≤ d.now →
        (j.st = .waiting → Only (.deadlineWaitingExpire k) (Ends · 0x04 0x01 d.glb.time) ∧
          (j.watchSat = true → Only (.stokerWatchReport k) (Ends · 0x04 0x01 d.glb.time))) ∧
        (j.st = .ready → Only (.deadlineReadyExpire k) (Ends · 0x04 (if j.code = 0 then 0x02 else j.code) d.glb.time)))) ∧
  (
    ∀ (s : State) (k : JobId) (j : Job),
      let d := s.dev
      let e := (d.core j.lead).ember
      d.job k.toNat = some j →
      (j.cores ≠ [] → j.halt = none → j.deadline ≤ d.now →
        (j.fin = none →
          Gives (.comparatorFire k) s fun t =>
            JobIs d t k.toNat (fun j' => j'.fired = true ∧ Ends j' (if e.isSome then 0x01 else 0x02) 0 (BitVec.ofNat 64 j.deadline) ∧
              ∃ f, j'.fin = some f ∧ f.resid = (e.map Ember.resid).getD 0x7FC00000 ∧ f.iter = (e.map Ember.iter).getD 0 ∧
                f.ember = (e.map Ember.rows).getD 0 ∧ f.written = false ∧ f.fclk = d.fno ∧ j'.stopped = false) ∧
            (∀ m ∈ j.cores, (t.core m).evt.quench = true ∧ (t.core m).sp = (d.core m).sp ∧ (t.core m).run = (d.core m).run ∧
              (t.core m).estore = (d.core m).estore ∧ (t.core m).regs = (d.core m).regs) ∧
            (∀ m, m ∉ j.cores → t.core m = d.core m) ∧ t.mem = d.mem) ∧
        (j.fin.isSome = true →
          Gives (.comparatorFire k) s fun t => JobIs d t k.toNat (· = { j with fired := true }) ∧ t.cores = d.cores ∧ t.mem = d.mem)) ∧
      (∀ t0 p, j.emberFrom = some t0 → d.prog j.prog = some p → j.st = .running → j.fin = none → t0.toNat + p.ttfe ≤ d.now →
        Gives (.emberLateCheck k) s fun t =>
          JobIs d t k.toNat (· = { j with emberFrom := none, emberLate := j.emberLate || e.isNone }) ∧
          (t.core j.lead).evt.emberLate = ((d.core j.lead).evt.emberLate || e.isNone) ∧ (t.core j.lead).regs = (d.core j.lead).regs ∧
          (∀ m, m ≠ j.lead → t.core m = d.core m) ∧ t.mem = d.mem)) ∧
  (
    ∀ (d : Dev) (k : Nat) (j : Job),
      (d.fclk.job k = some j → j.cores ≠ [] → d.fclk.expired j = true → j.fired = true) ∧
      (d.job k = some j → j.fin.isSome = true → j.stopped = false →
        let t := d.stopJob k
        Stopped t j.cores ∧ (∃ j', t.job k = some j' ∧ j'.stopped = true ∧ j'.st = j.st ∧ j'.fin = j.fin) ∧
        (∀ m, SameRegs (d.core m) (t.core m) ∧ (t.core m).sp = (d.core m).sp ∧ (t.core m).estore = (d.core m).estore ∧
          (t.core m).ember = (d.core m).ember) ∧ t.mem = d.mem))

/-- R226, R227: the job that the dispatch takes is a dispatchable READY job of the tenant, and no other one has a lower class, or in the same
class an earlier deadline, or at the same deadline a lower queue, or in the same queue an earlier fetch. -/
def Obligations.DispatchTakesTheHighestRanked : Prop :=
  ∀ (d : Dev) (t k : Nat), d.best t = some k →
    ∃ j c, (k, some j) ∈ d.stk.jobs ∧ j.tenant = t ∧ d.dispatchable j = some c ∧
      ∀ e ∈ d.stk.jobs, ∀ j' c', e.2 = some j' → j'.tenant = t → d.dispatchable j' = some c' →
        c ≤ c' ∧ (c = c' → j.deadline ≤ j'.deadline ∧ (j.deadline = j'.deadline → j.queue ≤ j'.queue ∧
          (j.queue = j'.queue → j.seq ≤ j'.seq)))

/-- R228-R231, R234-R237: with N free cores of its tenant and room for its sinks, the job that passes the checks goes to the N lowest of them:
the lead is index 0, each core starts its run from reset registers with the entry point and the program's fpc, and waits for its rows; START
is still to come. One that fails a check ends EXPIRED_IN_QUEUE with the code of the check. R232-R234, R472, R544, R551, R840: a load that is
complete brings the header and parameter rows and the kindling rows into every core of the set and lets it issue; a squash restart starts
anew from the current time; the measurement is delivered; a core without a versioned write in flight exchanges the copies of the rows whose
SHD bit is set; bytes that have left the outbound buffer are free. -/
def Obligations.DispatchAndLoads : Prop :=
  (
    ∀ (s : State) (f : Fn) (k : Nat) (j : Job) (q : Queue) (b : Binding) (p : Prog),
      let d := s.dev
      let q' := q.boundary
      let ns := (d.freeCores j.tenant).take b.n
      let rsv := j.hostSinks q'.desc
      d.stk.fatal = false →
      (d.firstFailed f.val = some k → d.job k = some j → j.fin = none →
        Gives (.dispatch f) s fun t => JobIs d t k (Ends · 0x04 j.code d.glb.time) ∧ t.cores = d.cores ∧ t.mem = d.mem) ∧
      (d.firstFailed f.val = none → d.best f.val = some k → d.job k = some j → j.fin = none → d.queue j.queue = some q →
        q.bind = some b → d.prog b.prog = some p → b.n ≤ (d.freeCores j.tenant).length →
        (rsv = true → d.pcie.outRsv + 64 * d.outWait + 4160 ≤ outTotal) →
        (d.dispatchCheck q'.desc j p = 0 →
          Gives (.dispatch f) s fun t =>
            JobIs d t k (fun j' => (j'.st = .running ∨ j'.st = .presolving) ∧ j'.cores = ns ∧ j'.prog = b.prog ∧ j'.n = b.n ∧
              j'.epoch = d.kiln.epoch ∧ j'.desc = q'.desc ∧ j'.loading = true ∧ j'.start = none ∧ j'.fin = none ∧
              (j'.st = .presolving → j.presolveFlag = true ∧ q'.desc.presolve = true)) ∧
            (∀ i, i < b.n → let n := ns.getD i 0
              (t.core n).job = some k ∧ (t.core n).idx = i ∧ (t.core n).run = false ∧ (t.core n).ember = none ∧
              (t.core n).regs.pc = BitVec.ofNat 64 p.entry ∧ (t.core n).regs.fpc = p.fpc ∧ (t.core n).regs.x = [] ∧ (t.core n).ops = []) ∧
            (∀ n, n ∉ ns → (t.core n).job = (d.core n).job ∧ (t.core n).regs = (d.core n).regs ∧ (t.core n).sp = (d.core n).sp) ∧
            t.pcie.outRsv = (if rsv = true then d.pcie.outRsv + 4160 else d.pcie.outRsv) ∧ MemOutside d.mem t.mem q'.desc.headWb 8) ∧
        (d.dispatchCheck q'.desc j p ≠ 0 →
          Gives (.dispatch f) s fun t => JobIs d t k (Ends · 0x04 (d.dispatchCheck q'.desc j p) d.glb.time) ∧
            (∀ n, (t.core n).job = (d.core n).job ∧ (t.core n).regs = (d.core n).regs) ∧ MemOutside d.mem t.mem q'.desc.headWb 8))) ∧
  (
    ∀ (s : State) (k : JobId) (j : Job) (p : Prog) (host : List Byte) (n : CoreN) (bytes : BitVec 18),
      let d := s.dev
      let a := d.loadBytes j.paramSrc host
      let b := d.loadBytes j.kindSrc a.2
      let c := d.core n.val
      let Others (t : Dev) : Prop := (∀ m, m ∉ j.cores → t.core m = d.core m) ∧ t.mem.dram = d.mem.dram
      (d.job k.toNat = some j → d.prog j.prog = some p → j.fin = none → j.cores.Nodup →
        (j.loading = true → (j.loadsHost = true → d.hostReads j.tenant j.detached = true) → d.loadPoison j = none → d.squashed j = true →
          Gives (.jobLoadComplete k host) s fun t => JobIs d t k.toNat (· = { j with loading := false }) ∧ Others t ∧
            ∀ m ∈ j.cores, let c' := (d.core m).squashStart p j
              (t.core m).run = (c'.run || !j.squashing) ∧ (t.core m).regs = c'.regs ∧
              (t.core m).sp = (c'.load p (j.header ++ a.1) b.1).sp) ∧
        (j.loading = false → j.squashing = true →
          Gives (.restartStart k) s fun t =>
            JobIs d t k.toNat (· = { j with squashing := false, start := some d.glb.time, emberFrom := some d.glb.time }) ∧ Others t ∧
            ∀ m ∈ j.cores, (t.core m).run = true ∧ (t.core m).regs = (d.core m).regs ∧ (t.core m).sp = (d.core m).sp) ∧
        (j.st = .presolving → j.measSat = true →
          Gives (.measurementDeliver k) s fun t => JobIs d t k.toNat (· = { j with delivered := true }) ∧ t.cores = d.cores ∧ t.mem = d.mem)) ∧
      (c.rows.flip = true → c.ops.any Op.versioned = false → c.dmaq.any Dma.versioned = false →
        Gives (.versionedFlip n) s fun t => (t.core n.val).rows.flip = false ∧ (t.core n.val).rows.shd = [] ∧
          (∀ r, (∀ e ∈ c.rows.shd, e.1 = r → e.2 = false) → SMap.get false (t.core n.val).rows.sel r = SMap.get false c.rows.sel r) ∧
          (∀ r l m, c.rows.shd = l ++ (r, true) :: m → (∀ e ∈ l ++ m, e.1 ≠ r) →
            SMap.get false (t.core n.val).rows.sel r = !SMap.get false c.rows.sel r) ∧
          (t.core n.val).sp = c.sp ∧ (t.core n.val).regs = c.regs ∧ (∀ m, m ≠ n.val → t.core m = d.core m) ∧ t.mem = d.mem) ∧
      Gives (.outboundSpaceFree bytes) s fun t => t = { d with pcie := { d.pcie with outRsv := d.pcie.outRsv - bytes.toNat } })

/-- R45-R47, R49, R51, R211, R212, R221: once the set is stopped and drained the ember rows, or the rows of job.done, go to the result pointer; an
uncorrectable ember row makes the end FAULT instead. The completion entry then goes to the next ring place, or to the reserved overflow slot
with its mask bit; SIGCTR has one more; the job leaves the table, others see no more of it than that counter, and its cores are free. A fenced
job with RETRY goes back to READY while its deadline is ahead. Table 5-3: the fields of a completion
entry, 32 bytes. -/
def Obligations.ResultsAndCompletions : Prop :=
  (
    ∀ (s : State) (k : JobId) (j : Job) (f : JobEnd),
      let d := s.dev
      let c := d.core j.lead
      let bs := if f.ember ≠ 0 then Memory.readN 0 c.estore 0 (512 * f.ember) else f.rows.flatMap (fun r => c.spRow r.1 r.2)
      d.job k.toNat = some j → j.fin = some f → j.halt = none → j.stopped = true → d.drained j = true →
      (f.written = false → j.cores ≠ [] → (f.ember = 0 → ∀ r ∈ f.rows, c.sound r.1 r.2 allWords) →
        (d.target j.result bs.length = .dram →
          Gives (.resultRowsWrite k none) s fun t => JobIs d t k.toNat (· = { j with fin := some { f with written := true } }) ∧
            Placed d.mem t.mem j.result bs ∧ ∀ m, (t.core m).regs = (d.core m).regs ∧ (t.core m).sp = (d.core m).sp) ∧
        (∀ r : Fin 8, r.val < f.ember →
          Gives (.resultRowsWrite k (some r)) s fun t => (∃ j', t.job k.toNat = some j' ∧ ∃ f', j'.fin = some f' ∧ f'.final = 0x06 ∧
            f'.detail = 0xFFFFFF35 ∧ f'.time = f.time ∧ f'.ember = 0 ∧ f'.rows = [] ∧ f'.written = true) ∧ t.mem = d.mem ∧
            Recorded d t { cls := 3, source := 0, index := j.lead, code := 0x0013, info := r.val, job := j.forRec })) ∧
      (f.written = true → f.retry = false → d.endsBehind j f = false →
        ∀ q, d.queue j.queue = some q →
        (d.waitsOut j = true → d.pcie.outRsv + 64 * (d.outAhead f.time.toNat j.seq + 1) ≤ outTotal) →
        let so := (j.start.map (fun x => (f.time - x).toInt)).getD 0
        let eo := (f.emberTime.map (fun x => (f.time - x).toInt)).getD 0
        let at_ := match j.ovf with
          | some i => q.ovfl + 32 * i
          | none => q.desc.cqBase + 32 * (q.cqWritten % q.desc.cqSize)
        let ent := j.completion f (min so.toNat 0xFFFFFF) (min eo.toNat 0xFFFFFF) (decide (0xFFFFFF < so) || decide (0xFFFFFF < eo))
          j.ovf.isSome (j.ovf.isSome || q.cqWritten / q.desc.cqSize % 2 == 0)
        0 ≤ so → 0 ≤ eo →
        Gives (.completionWrite k) s fun t => t.job k.toNat = none ∧
          (∀ i, i ≠ k.toNat → ∃ (x : Bool) (v : Nat), t.job i = (d.job i).map (fun i => if x then i.seeCtr (j.sigCtr.getD 0) v else i)) ∧
          (∀ i, j.sigCtr = some i → d.ownsCtr j.tenant i = true → SMap.get false d.syn.bad i = false →
            SMap.get 0 t.syn.ctr i = SMap.get 0 d.syn.ctr i + 1) ∧
          (j.sigCtr = none → t.syn = d.syn ∧ ∀ i, i ≠ k.toNat → t.job i = d.job i) ∧
          (∃ q', t.queue j.queue = some q' ∧ q'.infl = q.infl - 1 ∧ q'.desc = q.desc ∧ q'.head = q.head ∧ q'.tail = q.tail ∧
            (j.ovf = none → q'.cqWritten = q.cqWritten + 1 ∧ q'.credits = q.credits - 1)) ∧
          (d.target at_ 32 = .dram →
            (∀ i, i < 32 → ¬ (q.desc.headWb ≤ at_ + i ∧ at_ + i < q.desc.headWb + 8) → t.mem.byte (at_ + i) = ent.getD i 0) ∧
            ∀ a, ¬ (q.desc.headWb ≤ a ∧ a < q.desc.headWb + 8) → ¬ (at_ ≤ a ∧ a < at_ + 32) → t.mem.byte a = d.mem.byte a) ∧
          ∀ m ∈ j.cores, (d.core m).fencing = false → (t.core m).job = none ∧ (t.core m).run = false ∧ (t.core m).ops = [] ∧
            (t.core m).lease = 0 ∧ (t.core m).sp = (d.core m).sp) ∧
      (f.written = true → f.retry = true → (∀ q, d.queue j.queue = some q → q.dying = false) → d.queue j.queue ≠ none →
        d.endsBehind j f = false → j.code = 0 → d.now < j.deadline →
        Gives (.completionWrite k) s fun t => JobIs d t k.toNat (fun j' => j'.st = .ready ∧ j'.fin = none ∧ j'.retried = true ∧
          j'.cores = [] ∧ j'.entry = j.entry ∧ j'.seq = j.seq) ∧ t.mem = d.mem)) ∧
  (
    ∀ (j : Job) (f : JobEnd) (so eo : Nat) (sat ov ph : Bool), so < 2 ^ 24 → eo < 2 ^ 24 → f.iter < 2 ^ 24 → j.n < 32 →
      let e := j.completion f so eo sat ov ph
      e.length = 32 ∧ fieldAt e 0 4 = j.tag ∧ fieldAt e 4 4 = f.detail.toNat ∧ fieldAt e 8 6 = f.time.toNat % 2 ^ 48 ∧
      fieldAt e 14 1 = (j.status f).toNat ∧ fieldAt e 15 1 = f.final.toNat ∧ fieldAt e 16 4 = f.resid.toNat ∧ fieldAt e 20 3 = so ∧
      fieldAt e 23 1 = j.epoch.toNat % 256 ∧ fieldAt e 24 3 = eo ∧ fieldAt e 28 3 = f.iter ∧
      fieldAt e 31 1 = j.n + (if ph = true then 128 else 0) ∧
      fieldAt e 27 1 = (if j.squashed then 1 else 0) + (if j.retried then 2 else 0) + (if j.overrun then 4 else 0) +
        (if j.emberLate then 8 else 0) + (if sat then 16 else 0) + (if ov then 32 else 0))

/-- R85, R484, R493, R497, R540, R806, R850-R852, R854: a failed read of host space, a poisoned flit and an uncorrectable scratchpad word end the
job FAULT with their syndromes, and are recorded, a flit that DRAM does not hold poisoned as an error of the fabric first; the row to remap is
the one that COR_SPERR records; a failed read of a submission stops the fetch of its queue; a poisoned write is stored, poisoned while ECC is
on, and no run-ahead partition keeps the flit. -/
def Obligations.ErrorsEndJobs : Prop :=
  ∀ (s : State) (n : CoreN) (k : Nat) (j : Job),
    let d := s.dev
    let Live (k : Nat) (j : Job) : Prop := d.job k = some j ∧ j.fin = none ∧ d.expired j = false ∧ d.dbg.on = false
    (d.coreJob n.val = some (k, j) → Live k j →
      (∀ x rest, (d.core n.val).dmaq = x :: rest → x.rd = true → inHost x.addr 1 = true →
        Gives (.fetchReadFailure (.core n)) s (Faulted d · n.val k 0x20 0xFFFFFF) ∧
        Gives (.hostReadError (.core n) false) s fun t => Faulted d t n.val k 0x20 0xFFFFFF ∧ t.pcie.rdErr = satInc d.pcie.rdErr) ∧
      (∀ flit : BitVec 58,
        let Poison (u : PoisonUse) (synd : Nat) : Prop := Gives (.poisonConsume n u flit) s fun t =>
          Faulted d t n.val k synd 0xFFFFFF ∧
          let d' := if SMap.get false d.mem.poison flit.toNat then d else d.fabricError true (flitNode flit.toNat) (coreNode n.val)
          Recorded d' t { cls := 3, source := 0, index := n.val, code := 0x0014, info := flit.toNat * 64 + synd, job := j.forRec }
        Poison .icache 0x31 ∧ Poison .load 0x32 ∧ Poison .dma 0x33) ∧
      (∀ (mem : Fin 3) (row : BitVec 10) (w : Fin 64), row.toNat < memRows mem.val →
        let r := (n.val, if (d.core n.val).sperr.getLsbD 63 then (d.core n.val).ueRow else (mem.val, row.toNat))
        let remap := if r ∈ d.kiln.remap then d.kiln.remap else d.kiln.remap ++ [r]
        Gives (.scratchpadUe n mem (row, w) false) s (fun t => Faulted d t n.val k 0x30 0xFFFFFF ∧ (t.core n.val).held = true ∧
          (t.core n.val).tag = none ∧ t.kiln.remap = remap ∧ (t.core n.val).sp = (d.core n.val).sp ∧ (t.core n.val).ueRow = r.2 ∧
          Recorded d t { cls := 3, source := 0, index := n.val, code := 0x0010, info := row.toNat + mem.val * 65536, job := j.forRec }) ∧
        Gives (.scratchpadUe n mem (row, w) true) s (fun t => t.stk = d.stk ∧ (t.core n.val).held = true ∧
          (t.core n.val).run = (d.core n.val).run ∧ t.kiln.remap = remap ∧ t.err = d.err))) ∧
    (∀ (l : JobId) (j : Job), Live l.toNat j → j.loading = true → j.loadsHost = true → d.coreJob j.lead = some (l.toNat, j) →
      Gives (.fetchReadFailure (.load l)) s (Faulted d · j.lead l.toNat 0x20 0xFFFFFF)) ∧
    (∀ (u : QId) (q : Queue), d.queue u.toNat = some q → d.fetchPick = some u.toNat → inHost q.nextEntry 64 = true →
      Gives (.fetchReadFailure (.fetch u)) s fun t => t.queue u.toNat = some { q with stopped := true } ∧
        Recorded d t { cls := 7, source := 1, code := 0x0022, info := q.nextEntry } ∧ t.stk.jobs = d.stk.jobs ∧ t.cores = d.cores ∧
        t.mem = d.mem) ∧
    (∀ (node : Fin 40) (flit : BitVec 29), flit.toNat * 64 < d.usable →
      Gives (.poisonedWriteStore (node, flit) none) s fun t =>
        SMap.get false t.mem.poison flit.toNat = (d.mem.ecc || SMap.get false d.mem.poison flit.toNat) ∧ t.mem.dram = d.mem.dram ∧
        t.stk = d.stk ∧ (∀ m, (t.core m).regs = (d.core m).regs ∧ (t.core m).sp = (d.core m).sp ∧
          (t.core m).spec = (d.core m).spec.dropHints [flit.toNat]) ∧
        Recorded (d.fabricError true node.val (flitNode flit.toNat)) t
          { cls := 2, source := 10, index := flit.toNat % 8, code := 0x0015, info := flit.toNat * 64 + (if d.mem.ecc then 2 ^ 63 else 0) })

/-- R582, R584-R594: a hardware trigger fences an ACTIVE core: an idle one is FENCED at once, with its cause and a promotion owed; on a core with a
job the job ends FAULT 0x50, or is to be retried, and the core is fenced when the job is done. The promotion brings in the lowest BANKED
core, ashed, for the tenant that lost its core; one that fails its test is fenced. R172, R489-R493, R521, R601, R603, R609-R611, R624, R828:
a drain-switch change whose queues are drained takes effect and the epoch goes up by one; where it cannot be applied, nothing does. A queue
being destroyed goes with its last job. A row remap takes the lowest spare of its bank and zeroes the row; a self-test that ends returns its
lease and the core its state, or fences it. -/
def Obligations.FencesChangesAndTests : Prop :=
  (
    ∀ (s : State) (n : CoreN) (late store : Bool),
      let d := s.dev
      let c := d.core n.val
      let cause := if late then 2 else 3
      (c.st = .active → c.fencing = false →
        (c.job = none →
          Gives (.fenceHwTrigger n late) s fun t => (t.core n.val).st = .fenced ∧ (t.core n.val).cause = BitVec.ofNat 3 cause ∧
            t.kiln.promote = d.kiln.promote ++ [(n.val, c.alloc)] ∧ t.blw.returning = d.blw.returning + c.lease ∧
            t.blw.rsvBack = d.blw.rsvBack + c.tok.rho ∧
            (∀ m, m ≠ n.val → t.core m = d.core m) ∧ t.stk = d.stk ∧ t.mem = d.mem ∧
            Recorded d t { cls := 4, source := 0, index := n.val, code := 0x0020, info := cause }) ∧
        (∀ k j, d.coreJob n.val = some (k, j) → j.fin = none → j.halt = none → j.fired = false → d.now < j.deadline →
          Gives (.fenceHwTrigger n late) s fun t => (t.core n.val).st = .active ∧ (t.core n.val).fencing = true ∧
            (t.core n.val).cause = BitVec.ofNat 3 cause ∧ (t.core n.val).dmaq = [] ∧ (t.core n.val).rq = [] ∧
            (∀ x ∈ t.syn.pend, x.src ≠ 6 + n.val) ∧ t.mem = d.mem ∧
            JobIs d t k (fun j' => Ends j' 0x06 0xFFFFFF50 d.glb.time ∧ ∃ f, j'.fin = some f ∧ f.fclk = d.fno ∧ j'.stopped = false ∧
              (f.retry = true ↔ j.retryFlag = true ∧ (((d.prog j.prog).map Prog.ttfe).getD 0 : Int) ≤ d.slack j.deadline)))) ∧
      (∀ m tn rest b, d.kiln.promote = (m, tn) :: rest → d.kiln.fw = .fw → d.countSt .active < d.kiln.target →
        d.lowestBanked = some b → b ≠ m →
        Gives (.promotion true store) s (fun t => (t.core b).st = .active ∧ (t.core b).alloc = some (tn.getD 0) ∧ (t.core b).sp = [] ∧
          (t.core b).regs.x = [] ∧ (t.core b).job = none ∧ t.kiln.promote = rest ∧ t.stk.jobs = d.stk.jobs ∧
          ∀ i, i ≠ b → (t.core i).st = (d.core i).st ∧ (t.core i).regs = (d.core i).regs ∧ (t.core i).sp = (d.core i).sp) ∧
        Gives (.promotion false store) s (fun t => (t.core b).st = .fenced ∧ (t.core b).cause = 7 ∧ t.kiln.promote = d.kiln.promote ∧
          t.stk = d.stk ∧ t.mem = d.mem)) ∧
      (∀ b, d.kiln.promote = [] → d.kiln.fw = .fw → d.spareCore = some b →
        Gives (.promotion true store) s fun t => (t.core b).st = .active ∧ (t.core b).alloc = some (d.kiln.owed.headD 0) ∧
          (t.core b).sp = [] ∧ (t.core b).job = none ∧ t.kiln.owed = d.kiln.owed.tail ∧ t.stk.jobs = d.stk.jobs)) ∧
  (
    ∀ (s : State) (n : CoreN) (store pass : Bool) (sig : W32) (u : QId),
      let d := s.dev
      (∀ c, d.kiln.drain = some c → (∀ v ∈ d.affected c.change, v ∈ c.queues) → d.drainBusy c = false →
        (d.canApply c.change = true → (∀ x, c.change = .pool x → d.leased = 0) →
          Gives (.drainSwitchApply true store) s fun t => t.kiln.epoch = d.kiln.epoch + 1 ∧
            (∀ x, c.change = .pool x → t.blw.size = x ∧ t.blw.leaseCap = min d.pins.tc x) ∧
            (∀ x, c.change = .activeCores x → t.kiln.target = x) ∧
            (∀ x, c.change = .memEcc x → t.mem.ecc = x ∧ t.mem.usable = usableMiB d.mem.density x) ∧
            (∀ m, c.change = .coreReturn m → (t.core m).st = .active ∧ (t.core m).alloc = some 0 ∧ (t.core m).sp = []) ∧
            (∀ x a b e f g h i k l, c.change = .tenantCreate x a b e f g h i k l → (t.tenant x).exist = true ∧ (t.tenant x).tokens = b ∧
              (t.tenant x).queues = e ∧ (t.tenant x).blocks = f ∧ (t.tenant x).sessions = g) ∧
            (∀ x, c.change = .tenantDestroy x → x ≠ 0 → (t.tenant x).exist = false)) ∧
        (d.canApply c.change = false → (∀ x, c.change = .pool x → d.leased = 0) →
          Gives (.drainSwitchApply true store) s fun t => t.kiln.epoch = d.kiln.epoch ∧ t.blw.size = d.blw.size ∧ t.kiln.target = d.kiln.target ∧
            t.mem.ecc = d.mem.ecc ∧ t.ten = d.ten)) ∧
      (∀ q, d.queue u.toNat = some q → q.dying = true → q.infl = 0 →
        Gives (.queueDestroyDone u) s fun t => t.queue u.toNat = none ∧ (∀ v, v ≠ u.toNat → t.queue v = d.queue v) ∧ t.stk.jobs = d.stk.jobs ∧
          t.mem = d.mem) ∧
      (∀ r k, (d.core n.val).job = none → d.kiln.fw = .fw → d.kiln.remap.find? (fun r => r.1 == n.val) = some (n.val, r) →
        (d.core n.val).freeSpare r.1 (bankOf r.2) = some k →
        Gives (.rowRemapApply n store) s fun t => SMap.get 0 (t.core n.val).remaps (rowKey r.1 r.2) = k + 1 ∧
          SMap.get false (t.core n.val).spares (spareKey r.1 (bankOf r.2) k) = true ∧ (t.core n.val).spRow r.1 r.2 = List.replicate 512 0 ∧
          (t.core n.val).tag = none ∧ t.kiln.remap = d.kiln.remap.erase (n.val, r) ∧ t.mem = d.mem ∧ ∀ m, m ≠ n.val → t.core m = d.core m) ∧
      (∀ x test, (d.core n.val).st = .maint → d.kiln.deferred = [x] → x.op = .maint n.val test → x.lost = false →
        Gives (.coreMaintTestEnd n pass sig store) s fun t => t.blw.returning = d.blw.returning + 2 ∧ t.blw.test = d.blw.test - 2 ∧
          (t.core n.val).st = (if (d.core n.val).prior = .banked ∧ pass = false then .fenced else (d.core n.val).prior) ∧
          t.kiln.deferred = [] ∧
          (∃ st, (st = stOk ∨ st = stFault ∧ (d.core n.val).prior = .banked ∧ pass = false) ∧ QueuesResponse d t x st
            (if st = stOk then [BitVec.ofNat 8 n.val, if pass then 1 else 0, 0, 0] ++ toBytes sig.toNat 4 else [])) ∧
          ∀ m, m ≠ n.val → t.core m = d.core m))

/-! ### The Kiln and its commands (04) -/

/-- R144, R145, R148, R160: RING is accepted while the mailbox is ready and free, sets CMDBUSY and leaves the request for its command; an opcode
that is not implemented is answered UNSUPPORTED, and a reserved selector is refused; otherwise only RINGREJ rises. ACK frees the response
area. A waiting asynchronous response is placed in the free area with the present epoch. -/
def Obligations.MailboxHandshake : Prop :=
  ∀ (s : State) (f : Fn),
    let d := s.dev
    let m := d.mbox f.val
    let r := d.reqOf f.val
    let Only (c : Instr) (m' : Mbx) : Prop :=
      Gives c s fun t => t = { d with mbx := t.mbx } ∧ t.mbox f.val = m' ∧ ∀ g, g ≠ f.val → t.mbox g = d.mbox g
    (m.ready = true → m.busy = false → m.valid = false →
      (d.answers r.op = false → Only (.mbxRing f) { m with busy := true }) ∧
      (d.answers r.op = true → d.implemented r.op = false →
        Gives (.mbxRing f) s fun t => OnlyAnswers d t ∧ Answered t r stUnsupported [] 0xFFFF) ∧
      (d.answers r.op = true → d.implemented r.op = true →
        (d.selector r = none → Only (.mbxRing f) { m with busy := true }) ∧
        (∀ v, d.selector r = some v →
          (v.codes.contains (r.get v.ofs v.size) = true → Only (.mbxRing f) { m with busy := true }) ∧
          (v.codes.contains (r.get v.ofs v.size) = false →
            Gives (.mbxRing f) s fun t => OnlyAnswers d t ∧ ∃ st x, (st = stInvalid ∨ st = stDenied) ∧ Answered t r st [] x)))) ∧
    ((m.ready = false ∨ m.busy = true ∨ m.valid = true) → Only (.mbxRing f) { m with ringRej := true }) ∧
    (m.valid = true → Only (.mbxAck f) { m with valid := false, async := false }) ∧ (m.valid = false → exec (.mbxAck f) s = .next s) ∧
    (∀ b bs, m.queue = b :: bs → b.length ≤ 256 → m.busy = false → m.valid = false → d.kiln.fw ≠ .none →
      Gives (.asyncResponsePlace f) s fun t => OnlyAnswers d t ∧ (t.mbox f.val).valid = true ∧ (t.mbox f.val).async = true ∧
        (t.mbox f.val).queue = bs ∧
        let b' := b.take 12 ++ toBytes d.kiln.epoch.toNat 4 ++ b.drop 16
        Memory.readN 0 (t.mbox f.val).resp 0 b'.length = b')

/-- R147, R153, R154, R156, R157: every mailbox command answers the request of its function, and only that one: with the status that its checks
give and DETAIL; OK without an effect on a dry run; BUSY where it would defer and may not. Without such a request it changes nothing. -/
def Obligations.MailboxCommandsAnswer : Prop :=
  ∀ (i : Instr) (c : MailCmd) (s : State), i.mail? = some c →
    let d := s.dev
    let r := d.reqOf c.fn
    let x := c.h r d
    let e := x.pre d
    (¬ Serving d c → exec i s = .next s) ∧
    (Serving d c →
      (∀ st o, r.verdict x.form x.check = some (st, o) → Gives i s fun t => Answered t r st [] o ∧ OnlyAnswers e t) ∧
      (r.verdict x.form x.check = none →
        ((∀ op g, x.act = .defer op g → Room d r) → r.dry = true → Gives i s fun t => Answered t r stOk [] 0xFFFF ∧ OnlyAnswers e t) ∧
        (∀ op g, x.act = .defer op g → ¬ Room d r → Gives i s fun t => Answered t r stBusy [] 0xFFFF ∧ OnlyAnswers e t)))

/-- R172-R174, R203-R205, R504, R557, R561, R595: CREATE_QUEUE makes an unbound, empty queue of the descriptor with its overflow area and
doorbell; DESTROY_QUEUE ends its admitted jobs, with the first reason of Table 5-6 that applies, and removes it, or defers behind its running
ones; BIND and UNBIND set and remove the
binding; QUEUE_PARAMS waits for the queue's next job boundary; LOAD_PROGRAM defers. -/
def Obligations.QueueAndProgramCommands : Prop :=
  ∀ (s : State) (f : Fn),
    let d := s.dev
    let r := d.reqOf f.val
    let Cores (t : Dev) : Prop := ∀ n, (t.core n).sp = (d.core n).sp ∧ (t.core n).regs = (d.core n).regs ∧ (t.core n).job = (d.core n).job
    (Accepts (.createQueue f) d f →
      let u := if r.get 0 4 = 0xFFFFFFFF then SMap.firstFree d.stk.queues 0 else r.get 0 4
      let e := descOf (r.pay.drop 8)
      let tn := tenField f.val (r.get 4 1)
      let o := (d.fwAlloc 128).getD 0
      let b := d.freeBell tn
      Serves (.createQueue f) s f (toBytes u 4 ++ toBytes b 4 ++ toBytes o 8) fun t =>
        (∃ q, t.queue u = some q ∧ q.tenant = tn ∧ q.desc = e ∧ q.ovfl = o ∧ q.dbofs = b ∧ q.bind = none ∧ q.head = 0 ∧ q.tail = 0 ∧
          q.infl = 0 ∧ q.dying = false) ∧ t.stk.jobs = d.stk.jobs ∧ Cores t ∧ (d.kiln.drain = none → MemOutside d.mem t.mem e.headWb 8)) ∧
    (Accepts (.destroyQueue f) d f → ∀ q, d.queue (r.get 0 4) = some q →
      let u := r.get 0 4
      let code (j : Job) : Nat := if j.st = .ready ∧ j.code ≠ 0 then j.code
        else if j.deadline ≤ d.now then (if j.st = .waiting then 0x01 else 0x02) else 0x04
      let Expired (t : Dev) : Prop := ∀ k j, d.job k = some j → j.queue = u → j.fin = none → (j.st = .waiting ∨ j.st = .ready) →
        (j.st = .waiting ∨ d.held u = false ∨ code j ≠ 0x04) → ∃ j', t.job k = some j' ∧ Ends j' 0x04 (code j) d.glb.time
      (d.dispatchedIn [u] = false →
        Serves (.destroyQueue f) s f [] fun t => Expired t ∧ t.mem = d.mem ∧
          (q.infl = 0 → t.queue u = none) ∧ (q.infl ≠ 0 → t.queue u = some { q with dying := true })) ∧
      (d.dispatchedIn [u] = true → Room d r →
        Defers (.destroyQueue f) s f (.destroyQueue u) fun t => Expired t ∧ t.queue u = some { q with dying := true } ∧ Cores t ∧
          t.mem = d.mem)) ∧
    (Accepts (.loadProgram f) d f → Room d r →
      Defers (.loadProgram f) s f (.loadProgram (r.get 0 8) (r.get 8 4) (tenField f.val (r.get 12 1))) fun t =>
        t = { d with kiln := { d.kiln with deferred := t.kiln.deferred }, mbx := t.mbx, pcie := t.pcie, out := t.out }) ∧
    (Accepts (.bindProgram f) d f → ∀ q p, d.queue (r.get 0 4) = some q → d.prog (r.get 4 4) = some p →
      let c := (d.coresOf q.tenant).length
      let n := if r.get 8 1 = 0 then min p.nMax c else r.get 8 1
      Gives (.bindProgram f) s fun t =>
        Answered t r stOk [BitVec.ofNat 8 n, BitVec.ofNat 8 (max (d.rhoOf q.tenant) p.rsv * c), 0, 0] 0xFFFF ∧
        (∃ b, t.queue (r.get 0 4) = some { q with bind := some { prog := r.get 4 4, nreq := r.get 8 1, n := n }, wb := b }) ∧
        (∀ u, u ≠ r.get 0 4 → t.queue u = d.queue u) ∧ t.progs = d.progs ∧ t.stk.jobs = d.stk.jobs ∧ Cores t ∧
        MemOutside d.mem t.mem q.desc.headWb 8) ∧
    (Accepts (.unbind f) d f → ∀ q, d.queue (r.get 0 4) = some q →
      Serves (.unbind f) s f [] fun t => (∃ b, t.queue (r.get 0 4) = some { q with bind := none, wb := b }) ∧
        (∀ u, u ≠ r.get 0 4 → t.queue u = d.queue u) ∧ t.progs = d.progs ∧ t.stk.jobs = d.stk.jobs ∧ Cores t ∧
        MemOutside d.mem t.mem q.desc.headWb 8) ∧
    (Accepts (.setConfigQueueParams f) d f → ∀ q, d.queue (r.get 8 4) = some q →
      Serves (.setConfigQueueParams f) s f (toBytes d.kiln.epoch.toNat 4) fun t =>
        t = { d with stk := { d.stk with queues := t.stk.queues }, mbx := t.mbx, pcie := t.pcie, out := t.out } ∧
        t.queue (r.get 8 4) = some { q with next := some (descOf (r.pay.drop 12)) } ∧ ∀ u, u ≠ r.get 8 4 → t.queue u = d.queue u)

/-- R176, R246, R272, R273, R608, R620-R626, R632: TENANT_CREATE makes the tenant with its quotas and windows and moves the highest cores of
tenant 0, ashed, to it, through a drain-switch change while jobs of tenant 0 run; TENANT_DESTROY gives its cores to tenant 0 and ends its
queues, programs and sync blocks, or defers: as a drain-switch change where it moves cores; SYNC_ALLOC allocates the lowest run of blocks,
zeroed and disarmed, and frees blocks; a wait on a counter of such a block watches none any more. -/
def Obligations.TenantAndBlockCommands : Prop :=
  ∀ (s : State) (f : Fn) (store : Bool),
    let d := s.dev
    let r := d.reqOf f.val
    let x := r.get 0 1
    let mv := ((d.coresOf 0).reverse).take (r.get 1 1)
    let Blocks (t : Dev) (b n v : Nat) : Prop := (∀ p ∈ d.syn.pend, ¬ (b ≤ p.ctr / 256 ∧ p.ctr / 256 < b + n)) →
      t = { d with syn := { d.syn with ctr := t.syn.ctr, bad := t.syn.bad, arms := t.syn.arms, owner := t.syn.owner },
                   cores := t.cores, mbx := t.mbx, pcie := t.pcie, out := t.out } ∧
      (∀ m, t.core m = (d.core m).unwatch (fun k => decide (b ≤ k) && decide (k < b + n))) ∧
      (∀ k, SMap.get 0 t.syn.owner k = if b ≤ k ∧ k < b + n then v else SMap.get 0 d.syn.owner k) ∧
      (∀ c, SMap.get 0 t.syn.ctr c = if b ≤ c / 256 ∧ c / 256 < b + n then 0 else SMap.get 0 d.syn.ctr c) ∧
      (∀ a, SMap.get {} t.syn.arms a = if b ≤ a / 16 ∧ a / 16 < b + n then {} else SMap.get {} d.syn.arms a)
    (Accepts (.tenantCreate f) d f →
      ((r.get 1 1 = 0 ∨ d.dispatchedIn (d.queuesOf 0) = false) →
        Serves (.tenantCreate f) s f [] fun t =>
          t.tenant x = { exist := true, tokens := r.get 2 1, queues := r.get 4 4, blocks := r.get 8 2, sessions := r.get 10 2,
                         base0 := r.get 16 8, size0 := r.get 24 8, base1 := r.get 32 8, size1 := r.get 40 8 } ∧
          (∀ y, y ≠ x → t.tenant y = d.tenant y) ∧
          (∀ n ∈ mv, (t.core n).st = .active ∧ (t.core n).alloc = some x ∧ (t.core n).sp = [] ∧ (t.core n).regs.x = []) ∧
          (∀ n, n ∉ mv → (t.core n).alloc = (d.core n).alloc ∧ (t.core n).sp = (d.core n).sp ∧ (t.core n).regs = (d.core n).regs) ∧
          t.kiln.epoch = (if r.get 1 1 = 0 then d.kiln.epoch else d.kiln.epoch + 1)) ∧
      (r.get 1 1 ≠ 0 → d.dispatchedIn (d.queuesOf 0) = true → Room d r →
        Defers (.tenantCreate f) s f .drain fun t => t.ten = d.ten ∧ t.kiln.epoch = d.kiln.epoch ∧
          t.kiln.drain = some { change := r.tenantChange, opcode := r.op, seq := r.seq, fn := some f.val, persist := false,
                                queues := d.queuesOf 0, applying := false })) ∧
    (Accepts (.tenantDestroy f store) d f →
      let us := d.queuesOf x ++ d.queuesOf 0
      ((d.tenantStop x).tenantBusy x = false → (d.coresOf x = [] ∨ d.dispatchedIn us = false) →
        Serves (.tenantDestroy f store) s f [] fun t => t.tenant x = {} ∧ (∀ y, y ≠ x → t.tenant y = d.tenant y) ∧
          (∀ n ∈ d.coresOf x, (t.core n).alloc = some 0 ∧ (t.core n).sp = []) ∧
          (∀ u q, d.queue u = some q → q.tenant = x → t.queue u = none) ∧ (∀ k p, d.prog k = some p → p.tenant = x → t.prog k = none) ∧
          ∀ b, SMap.get 0 d.syn.owner b = x + 1 → SMap.get 0 t.syn.owner b = 0) ∧
      ((d.tenantStop x).tenantBusy x = true ∨ d.dispatchedIn us = true → d.coresOf x ≠ [] → Room d r →
        Defers (.tenantDestroy f store) s f .drain fun t => t.ten = d.ten ∧ t.syn.owner = d.syn.owner ∧
          t.kiln.drain = some { change := .tenantDestroy x, opcode := r.op, seq := r.seq, fn := some f.val, persist := false,
                                queues := us, applying := false }) ∧
      ((d.tenantStop x).tenantBusy x = true → d.coresOf x = [] → Room d r →
        Defers (.tenantDestroy f store) s f (.tenantDestroy x) fun t => t.ten = d.ten ∧ t.syn.owner = d.syn.owner)) ∧
    (Accepts (.syncAllocAlloc f) d f →
      let b := (d.freeRun (r.get 2 2)).getD 0
      Serves (.syncAllocAlloc f) s f (toBytes (b * 256) 4 ++ toBytes (r.get 2 2) 2 ++ [0, 0])
        (Blocks · b (r.get 2 2) (tenField f.val (r.get 1 1) + 1))) ∧
    (Accepts (.syncAllocFree f) d f →
      Serves (.syncAllocFree f) s f (toBytes (r.get 4 4) 4 ++ toBytes (r.get 2 2) 2 ++ [0, 0])
        (Blocks · (r.get 4 4 / 256) (r.get 2 2) 0))

/-- R168, R181-R184, R521, R582, R609, R755, R828: GET_INFO and CONFIG_EPOCH_STATUS report and change nothing; TIME_SRC, BACKSTEP_EN and
PERST_SCOPE take effect with their OK; BELLOWS_POOL, ACTIVE_CORES and MEM_ECC start a drain-switch change and leave what they will change as
it is. -/
def Obligations.SettingCommands : Prop :=
  ∀ (s : State) (f : Fn) (store : Bool),
    let d := s.dev
    let r := d.reqOf f.val
    let v := r.value
    let Now (c : Instr) (P : Dev → Prop) (e : Dev) : Prop := Accepts c d f →
      Gives c s P ∧ (r.persist = false → Serves c s f (toBytes d.kiln.epoch.toNat 4) (OnlyAnswers e))
    let Later (c : Instr) (ch : Change) (us : List Nat) : Prop := Accepts c d f → Room d r →
      Defers c s f .drain fun t => t.kiln.epoch = d.kiln.epoch ∧ t.blw = d.blw ∧ t.ten = d.ten ∧ t.mem.ecc = d.mem.ecc ∧
        t.kiln.target = d.kiln.target ∧ (∀ n, (t.core n).st = (d.core n).st ∧ (t.core n).regs = (d.core n).regs) ∧
        t.kiln.drain = some { change := ch, opcode := r.op, seq := r.seq, fn := some f.val, persist := r.persist, queues := us,
                              applying := false }
    (Accepts (.getInfo f) d f → Serves (.getInfo f) s f (d.info f.val) (OnlyAnswers d)) ∧
    (Accepts (.configEpochStatus f) d f →
      (d.kiln.drain = none →
        Serves (.configEpochStatus f) s f (toBytes d.kiln.epoch.toNat 4 ++ List.replicate 28 0) (OnlyAnswers d)) ∧
      (∀ c, d.kiln.drain = some c → ∃ p, Serves (.configEpochStatus f) s f p (OnlyAnswers d) ∧ p.length = 32 ∧
        fieldAt p 0 4 = d.kiln.epoch.toNat ∧ fieldAt p 4 2 = (if c.applying then 2 else 1) ∧ fieldAt p 6 2 = c.opcode % 65536 ∧
        fieldAt p 8 4 = c.seq.toNat)) ∧
    Now (.setConfigTimeSrc f store) (fun t => t.glb.src = BitVec.ofNat 2 v ∧ v ≤ 2 ∧ (v ≠ 1 → t.net.locked = false))
      { d with glb := { d.glb with src := BitVec.ofNat 2 v }, net := { d.net with locked := d.net.locked && v == 1 } } ∧
    Now (.setConfigBackstepEn f store) (fun t => t.glb.backstep = (v == 1)) { d with glb := { d.glb with backstep := v == 1 } } ∧
    Now (.setConfigPerstScope f store) (fun t => t.kiln.perstScope = (v == 1)) { d with kiln := { d.kiln with perstScope := v == 1 } } ∧
    Later (.setConfigBellowsPool f) (.pool v) d.allQueues ∧
    Later (.setConfigActiveCores f) (.activeCores v) ((d.activeTenants v).flatMap d.queuesOf) ∧
    Later (.setConfigMemEcc f) (.memEcc (v == 1)) d.allQueues

/-- R489, R584-R588, R598-R604: FENCE_CORE starts the fence of an ACTIVE core, fences a BANKED one with cause 1 at once, and has nothing to do
on a FENCED one; CORE_MAINT takes a test lease and moves the core to MAINT; CORE_RETURN banks a core, or asks for a drain-switch change;
ROW_REMAP holds the core for its remap. -/
def Obligations.CoreCommands : Prop :=
  ∀ (s : State) (f : Fn) (store : Bool),
    let d := s.dev
    let r := d.reqOf f.val
    let n := r.get 0 1
    let c := d.core n
    let Others (t : Dev) : Prop := ∀ m, m ≠ n → t.core m = d.core m
    (Accepts (.fenceCore f store) d f →
      (c.st = .active → Room d r →
        Defers (.fenceCore f store) s f (.fence n (bit1 (r.get 1 1) 0)) fun t => (t.core n).cause = 1 ∧
          (c.job = none → (t.core n).st = .fenced ∧ t.kiln.promote = d.kiln.promote ++ [(n, c.alloc)] ∧ Others t) ∧
          (d.coreJob n ≠ none → (t.core n).st = .active ∧ (t.core n).fencing = true)) ∧
      (c.st = .banked → bit1 (r.get 1 1) 0 = false →
        Gives (.fenceCore f store) s fun t =>
          Answered t r stOk [BitVec.ofNat 8 n, 0xFF, BitVec.ofNat 8 (d.countSt .active), 0] 0xFFFF ∧ (t.core n).st = .fenced ∧
          (t.core n).cause = 1 ∧ Others t ∧ Recorded d t { cls := 4, source := 0, index := n, code := 0x0020, info := 1 }) ∧
      (c.st = .fenced →
        Serves (.fenceCore f store) s f [BitVec.ofNat 8 n, 0xFF, BitVec.ofNat 8 (d.countSt .active), 0] (OnlyAnswers d))) ∧
    (Accepts (.coreMaint f) d f → Room d r →
      Defers (.coreMaint f) s f (.maint n (r.get 1 1)) fun t => (t.core n).st = .maint ∧ (t.core n).prior = c.st ∧ Others t ∧
        t.blw = { d.blw with test := d.blw.test + 2 }) ∧
    (Accepts (.coreReturnActive f) d f → Room d r →
      Defers (.coreReturnActive f) s f .drain fun t => (t.core n).st = c.st ∧ t.kiln.epoch = d.kiln.epoch ∧
        t.kiln.drain = some { change := .coreReturn n, opcode := r.op, seq := r.seq, fn := some f.val, persist := false,
                              queues := d.queuesOf 0, applying := false }) ∧
    (Accepts (.coreReturnBanked f store) d f →
      Gives (.coreReturnBanked f store) s fun t =>
        (store = true → (d.fenceMap.filter (fun e => e.1 != n)).length ≤ 18 → d.records = [] →
          Answered t r stOk [BitVec.ofNat 8 (t.countSt .active), BitVec.ofNat 8 (t.countSt .banked), 0, 0] 0xFFFF) ∧
        (store = false → Answered t r stFault [] 0xFFFF) ∧ (t.core n).st = .banked ∧ Others t) ∧
    (Accepts (.rowRemap f) d f → Room d r →
      Defers (.rowRemap f) s f (.remap n (r.get 1 1) (r.get 2 2) (bit1 (r.get 4 1) 0)) fun t =>
        t.core n = { c with held := true } ∧ Others t ∧ t.stk = d.stk ∧ t.mem = d.mem)

/-- R669, R742, R747, R782, R784: a parameter block of SLE_CONFIG, CAM_CONFIG or ETH_CONFIG changes the shadow set it names and nothing in
force. R640, R644, R669, R670, R699, R709, R742, R745, R758, R784: APPLY puts a shadow set in force at once, or makes it pending for the
next boundary or frame; SLE_START starts the loop, or says why not; SLE_STOP stops it; HOME_AXIS starts a run from phase SEEK. -/
def Obligations.ParameterBlocksAndApplies : Prop :=
  (
    ∀ (s : State) (f : Fn),
      let d := s.dev
      let r := d.reqOf f.val
      let b := r.pay.drop 4
      (∀ i ∈ [Instr.sleConfigLoop f, .sleConfigLinks f, .sleConfigInmap f, .sleConfigOutmap f, .sleConfigLimits f, .sleConfigInteg f,
          .sleConfigGain f], Accepts i d f →
        Gives i s fun t => (∃ e, e.length = 8 ∧ Answered t r stOk e 0xFFFF) ∧
          t = { d with sle := { d.sle with shadow := d.sle.shadow.block (r.get 0 2) b }, free := t.free, mbx := t.mbx, pcie := t.pcie,
                       out := t.out }) ∧
      (∀ i ∈ [Instr.camConfigInput f, .camConfigNr f, .camConfigColour f, .camConfigTables f, .camConfigOutput f, .camConfigLinks f],
        Accepts i d f →
        let p := r.get 0 1
        Serves i s f (toBytes (d.cam p).commit.toNat 4) fun t =>
          t = { d with cams := t.cams, mbx := t.mbx, pcie := t.pcie, out := t.out } ∧
          (∀ q, q ≠ p → t.cam q = d.cam q) ∧ t.cam p = { d.cam p with shadow := (d.cam p).shadow.block (r.get 2 2) b }) ∧
      (∀ i ∈ [Instr.ethConfigPort f, .ethConfigIp f, .ethConfigQos f, .ethConfigGcl f, .ethConfigGclent f], Accepts i d f →
        let p := r.get 0 1
        Serves i s f [] fun t => t = { d with eths := t.eths, mbx := t.mbx, pcie := t.pcie, out := t.out } ∧
          (∀ q, q ≠ p → t.eth q = d.eth q) ∧ t.eth p = { d.eth p with shadow := (d.eth p).shadow.block (r.get 2 2) b }) ∧
      (Accepts (.ethConfigCycin f) d f →
        Serves (.ethConfigCycin f) s f [] fun t =>
          t = { d with net := { d.net with inShadow := t.net.inShadow }, mbx := t.mbx, pcie := t.pcie, out := t.out } ∧
          ∀ k, SMap.get {} t.net.inShadow k = if k = r.get 2 2 - 0x10 then streamOf false b else SMap.get {} d.net.inShadow k) ∧
      (Accepts (.ethConfigCycout f) d f →
        Serves (.ethConfigCycout f) s f [] fun t =>
          t = { d with net := { d.net with outShadow := t.net.outShadow }, mbx := t.mbx, pcie := t.pcie, out := t.out } ∧
          ∀ k, SMap.get {} t.net.outShadow k = if k = r.get 2 2 - 0x18 then streamOf true b else SMap.get {} d.net.outShadow k)) ∧
  (
    ∀ (s : State) (f : Fn) (store : Bool),
      let d := s.dev
      let r := d.reqOf f.val
      let p := r.get 0 1
      (Accepts (.sleConfigApply f store) d f →
        (d.sle.st = .running → Serves (.sleConfigApply f store) s f (toBytes d.sle.tnext.toNat 8) fun t =>
          t = { d with sle := { d.sle with shadow := t.sle.shadow, pend := some d.sle.shadow, pendStore := store, applied := true },
                       mbx := t.mbx, pcie := t.pcie, out := t.out }) ∧
        (d.sle.st ≠ .running → Serves (.sleConfigApply f store) s f (toBytes 0 8) fun t =>
          t.sle.cfg = { d.sle.shadow with gainNew := false } ∧ t.sle.applied = true ∧ t.sle.pend = none ∧ t.sle.st = d.sle.st ∧
          t.sle.gain = (if d.sle.shadow.gainNew then d.sle.shadow.gain else d.sle.gain) ∧ t.stk = d.stk ∧ t.cores = d.cores ∧ t.mem = d.mem)) ∧
      (Accepts (.camConfigApply f) d f →
        let c := d.cam p
        Serves (.camConfigApply f) s f (toBytes (c.commits + 1).toNat 4) fun t => (∀ q, q ≠ p → t.cam q = d.cam q) ∧
          (c.shadow.enable = true → t.cam p = { c with pend := some (d.withTables c.shadow, c.commits + 1), pendAt := d.fno, commits := c.commits + 1 } ∧
            t.mem = d.mem) ∧
          (c.shadow.enable = false → (t.cam p).active = d.withTables c.shadow ∧ (t.cam p).commit = c.commits + 1 ∧ (t.cam p).pend = none ∧
            (t.cam p).frame = none)) ∧
      (Accepts (.ethConfigApply f store) d f →
        let e := d.eth p
        let c := e.shadow
        Serves (.ethConfigApply f store) s f [] fun t => (t.eth p).cfg = c ∧ t.net.ins = d.net.inShadow ∧ t.net.outs = d.net.outShadow ∧
          ((c.speed ≠ e.cfg.speed ∨ c.fec ≠ e.cfg.fec) → (t.eth p).link = false) ∧
          (c.nent = 0 → (t.eth p).gates = none ∧ (t.eth p).open_ = 0xFF ∧ (t.eth p).gclPend = none) ∧
          (c.nent ≠ 0 → (t.eth p).gates = e.gates ∧ ∃ g, (t.eth p).gclPend = some g ∧ g.cycle = c.cycle ∧
            g.base = changeTime c.baseTime c.cycle (d.ptp d.now)) ∧ ∀ q, q ≠ p → (t.eth q).cfg = (d.eth q).cfg) ∧
      (Accepts (.sleStart f) d f →
        (d.startResult = 0 →
          Serves (.sleStart f) s f ([0, BitVec.ofNat 8 d.moving] ++ List.replicate 6 0 ++ toBytes d.firstBound 8) fun t =>
            t.sle.st = .running ∧ t.sle.first = true ∧ t.sle.tnext = BitVec.ofNat 64 d.firstBound ∧ t.sle.commits = [] ∧ t.sle.k = 0 ∧ t.sle.next = none ∧
            t.sle.z = [] ∧ t.sle.consec = 0 ∧ t.sle.cfg = d.sle.cfg ∧ t.stk = d.stk ∧ t.cores = d.cores ∧ t.mem = d.mem) ∧
        (d.startResult ≠ 0 → d.sle.st = .stopped →
          Gives (.sleStart f) s fun t => t = { d with free := t.free, mbx := t.mbx, pcie := t.pcie, out := t.out } ∧
            ∃ e, e.length = 8 ∧ Answered t r stOk ([BitVec.ofNat 8 d.startResult, BitVec.ofNat 8 d.moving] ++ List.replicate 6 0 ++ e) 0xFFFF)) ∧
      (Accepts (.sleStop f) d f →
        Serves (.sleStop f) s f (toBytes d.now 8) fun t => t.sle.st = .stopped ∧ (d.sle.pend = none → t.sle.cfg = d.sle.cfg) ∧
          t.stk = d.stk) ∧
      (Accepts (.homeAxis f) d f → Room d r →
        let fl := r.get 6 1
        let w (o : Nat) : W32 := BitVec.ofNat 32 (r.get (4 + o) 4)
        Defers (.homeAxis f) s f (.home p) fun t => t.sle = d.sle ∧ (∀ a, a ≠ p → t.home a = d.home a) ∧
          t.home p = { active := true, phase := .seek, posx := r.get 4 1, velx := r.get 5 1, dir := bit1 fl 0, reverse := bit1 fl 1,
                       useIdx := bit1 fl 2, seekV := w 4, latchV := w 8, accel := w 12, backDist := w 16, first := true,
                       latchReg := (d.home p).latchReg }))

/-- R767-R770: OPEN makes the session of its DATA and gives it its queues; CLOSE ends one without outstanding requests at once and closes any
other; QUERY reports and changes nothing. -/
def Obligations.SessionCommands : Prop :=
  ∀ (s : State) (f : Fn) (store : Bool),
    let d := s.dev
    let r := d.reqOf f.val
    let b := r.pay.drop 8
    let tn := tenField f.val (r.get 1 1)
    (Accepts (.pstSessionOpen f store) d f →
      let n := if r.get 2 2 = 0xFFFF then SMap.firstFree d.net.sessions 0 else r.get 2 2
      let x := sessionOf tn b (bit1 (r.get 4 1) 0)
      Serves (.pstSessionOpen f store) s f (toBytes n 2 ++ [0, 0]) fun t => t.session n = some x ∧ (∀ k, k ≠ n → t.session k = d.session k) ∧
        (∀ u q, d.queue u = some q → t.queue u = some (if x.qBase ≤ u ∧ u < x.qBase + x.qCount then { q with pst := some n } else q)) ∧
        t.stk.jobs = d.stk.jobs ∧ t.mem = d.mem) ∧
    (Accepts (.pstSessionClose f store) d f → ∀ x, d.session (r.get 2 2) = some x →
      Serves (.pstSessionClose f store) s f (toBytes (r.get 2 2) 2 ++ [0, 0]) fun t =>
        t.session (r.get 2 2) = (if x.slots.isEmpty then none else some { x with open_ := false, dormant := false }) ∧
        (∀ k, k ≠ r.get 2 2 → t.session k = d.session k) ∧
        (∀ u q, d.queue u = some q → x.dormant = false → x.qBase ≤ u → u < x.qBase + x.qCount →
          ∃ q', t.queue u = some q' ∧ q'.pst ≠ some (r.get 2 2) ∧ q'.desc = q.desc) ∧ t.stk.jobs = d.stk.jobs ∧ t.mem = d.mem) ∧
    (Accepts (.pstSessionQuery f) d f →
      Serves (.pstSessionQuery f) s f (toBytes (r.get 2 2) 2 ++ [0, 0] ++ queryData (d.session (r.get 2 2))) (OnlyAnswers d))

/-- R151, R159, R161, R162, R175, R188, R625: DEFERRED_COMMAND_FINISH always completes. The deferred command that it names, whose operation ends
now, leaves the deferred commands and its response is queued for its function; where there is none it changes nothing. LOAD_PROGRAM then has
its program in the firmware region under a new number, or leaves nothing; FW_STAGE has its image in the slot that is not in use, or leaves the
slot invalid; CFGSTORE_WRITE has a new bank; TENANT_DESTROY has ended its tenant. -/
def Obligations.DeferredCommandsFinish : Prop :=
  ∀ (s : State) (f : Fn) (op : W16) (seq : W32) (data : List Byte) (ok : Bool),
    let d := s.dev
    let can (y : Deferred) : Bool := y.fn == f.val && y.opcode == op.toNat && y.seq == seq && (d.finishNow y.op data ok).isSome
    (∃ t, exec (.deferredCommandFinish f op seq data ok) s = .next t ∧ t.pending = s.pending) ∧
    (d.kiln.fw = .none ∨ d.kiln.deferred.find? can = none → exec (.deferredCommandFinish f op seq data ok) s = .next s) ∧
    ∀ x, d.kiln.fw ≠ .none → d.kiln.deferred.find? can = some x → x.lost = false →
      let Ended (P : Dev → Prop) : Prop := ∃ t, exec (.deferredCommandFinish f op seq data ok) s = .next t ∧ t.pending = s.pending ∧
        t.dev.kiln.deferred = removeFirst can d.kiln.deferred ∧ P t.dev
      (∀ a n tn, x.op = .loadProgram a n tn →
        let bs := if inHost a n then fitTo n data else d.peek a n
        let k := d.kiln.nextProg
        (ok = true → (if inHost a n then d.hostReads tn false = true else d.poisoned a n = false) →
          (imageBad n bs = false → d.tenExists tn = true → ∀ base, d.fwAlloc n = some base →
            let g := progOf d.fuse.grade tn base n bs
            Ended fun t => t.prog k = some g ∧ (∀ i, i ≠ k → t.prog i = d.prog i) ∧ t.kiln.nextProg = k + 1 ∧ Placed d.mem t.mem base bs ∧
              QueuesResponse d t x stOk
                (toBytes k 4 ++ [BitVec.ofNat 8 g.nMin, BitVec.ofNat 8 g.nMax, BitVec.ofNat 8 g.isa, 0] ++ toBytes g.ttfe 4)) ∧
          (imageBad n bs = true → Ended fun t => t.progs = d.progs ∧ t.mem.dram = d.mem.dram ∧ QueuesResponse d t x stInvalid [] 16)) ∧
        (ok = false → Ended fun t => t.progs = d.progs ∧ t.mem.dram = d.mem.dram ∧ QueuesResponse d t x stFault [])) ∧
      (∀ a n, x.op = .fwStage a n → d.kiln.fw = .fw → inHost a n = false → d.inReach 0 a n = true → d.poisoned a n = false →
        let bs := d.peek a n
        let slot := slotBase (!d.glb.slot)
        let Keeps (t : Dev) : Prop := ∀ k, ¬ (slot ≤ k ∧ k < slot + slotSize) → t.flashRead k 1 = d.flashRead k 1
        (ok = true → d.fuse.imageValid bs = true → n ≤ slotSize →
          Ended fun t => t.kiln.staged = some (imageOf bs) ∧ t.flashRead slot n = bs ∧ Keeps t ∧
            QueuesResponse d t x stOk ((imageOf bs).payload (b2n (!d.glb.slot)))) ∧
        (ok = false ∨ d.fuse.imageValid bs = false →
          Ended fun t => t.kiln.staged = none ∧ t.flashRead slot 4 = [0xFF, 0xFF, 0xFF, 0xFF] ∧ Keeps t ∧ QueuesResponse d t x stFault [])) ∧
      (∀ ty del b, x.op = .cfgWrite ty del b →
        let r := d.storeRecord ty (if del then none else some b) ok
        Ended fun t => t.kiln.flash = r.2.kiln.flash ∧ t.glb = r.2.glb ∧ t.cores = d.cores ∧ t.stk = d.stk ∧ t.mem = d.mem ∧
          (if r.1 then QueuesResponse d t x stOk (toBytes t.glb.cfgSeq.toNat 4 ++ [BitVec.ofNat 8 t.glb.cfgBank.toNat, 0, 0, 0])
           else QueuesResponse d t x stFault [])) ∧
      (∀ y, x.op = .tenantDestroy y → Ended fun t => t.tenant y = {} ∧ QueuesResponse d t x stOk [])

/-- R126, R178-R180, R188-R196, R863: FW_STAGE and CFGSTORE_WRITE defer; FW_ACTIVATE makes the other slot preferred on trial and restarts the
Kiln, or the device with WARM; in the boot ROM it starts the staged image; FW_COMMIT ends the trial and may raise the fused version, never
lower it; FW_ROLLBACK goes back to the other slot, or erases the 64 KiB block of a staged image's header (log 142: the model's choice); CFGSTORE_READ reports the bank in use; a challenge makes a new
nonce, and the right answer enters debug mode. -/
def Obligations.FirmwareAndStoreCommands : Prop :=
  ∀ (s : State) (f : Fn) (nonce : BitVec 256),
    let d := s.dev
    let r := d.reqOf f.val
    let Waits (c : Instr) (o : DefOp) : Prop := Accepts c d f → Room d r → Defers c s f o fun t =>
      t = { d with kiln := { d.kiln with deferred := t.kiln.deferred }, mbx := t.mbx, pcie := t.pcie, out := t.out }
    let Restarts (t : Dev) : Prop := t.kiln.fw = .none ∧ (∀ g, (t.mbox g).ready = false) ∧ t.cores = d.cores ∧ t.stk = d.stk ∧ t.sle = d.sle
    Waits (.fwStage f) (.fwStage (r.get 0 8) (r.get 8 4)) ∧
    Waits (.cfgstoreWrite f) (.cfgWrite (r.get 0 2) (bit1 (r.get 2 2) 0) ((r.pay.drop 8).take (r.get 4 2))) ∧
    (Accepts (.fwActivate f) d f →
      (d.kiln.fw = .rom → Serves (.fwActivate f) s f [] fun t => t.kiln.fw = .none ∧ t.kiln.next = .fw ∧ t.kiln.sram = true ∧
        some t.kiln.img = d.kiln.staged ∧ t.kiln.staged = none ∧ (t.mbox 0).ready = false ∧ t.cores = d.cores) ∧
      (d.kiln.fw = .fw → bit1 (r.get 0 1) 0 = false →
        Serves (.fwActivate f) s f [] fun t => t.bootHeader = (!d.glb.slot, true) ∧ Restarts t) ∧
      (d.kiln.fw = .fw → bit1 (r.get 0 1) 0 = true →
        Gives (.fwActivate f) s fun t => t.bootHeader = (!d.glb.slot, true) ∧ t.glb.phase = (if d.glb.phase = .pll then .pll else .warm) ∧
          t.glb.last = 4 ∧ t.cores = [])) ∧
    (Accepts (.fwCommit f true) d f → Gives (.fwCommit f true) s fun t =>
      Answered t r stOk (toBytes t.fuse.svn.toNat 4) 0xFFFF ∧ t.bootHeader = (d.glb.slot, false) ∧ t.glb.trial = false ∧
      t.fuse = { d.fuse with svn := t.fuse.svn } ∧
      t.fuse.svn.toNat = (if bit1 (r.get 0 1) 0 then max d.fuse.svn.toNat d.kiln.img.svn.toNat else d.fuse.svn.toNat)) ∧
    (Accepts (.fwCommit f false) d f → Gives (.fwCommit f false) s fun t => Answered t r stFault [] 0xFFFF ∧ t.fuse = d.fuse ∧
      t.bootHeader = (false, false)) ∧
    (Accepts (.fwRollback f true) d f →
      (d.kiln.fw = .fw → d.glb.trial = true →
        Serves (.fwRollback f true) s f [] fun t => t.bootHeader = (!d.glb.slot, false) ∧ Restarts t) ∧
      (d.kiln.fw = .fw → d.glb.trial = false →
        Serves (.fwRollback f true) s f [] fun t => t.kiln.staged = none ∧
          ∀ k, t.flashRead k 1 =
            if slotBase (!d.glb.slot) ≤ k ∧ k < slotBase (!d.glb.slot) + 65536 then [0xFF] else d.flashRead k 1)) ∧
    (Accepts (.cfgstoreRead f) d f → ∀ seq bank rs, d.bankInUse = some (seq, bank, rs) →
      let o := recordData rs (r.get 0 2)
      let b := o.getD []
      Serves (.cfgstoreRead f) s f (toBytes seq 4 ++ [BitVec.ofNat 8 bank, BitVec.ofNat 8 (b2n o.isSome), 0, 0] ++ toBytes b.length 4 ++
        [0, 0, 0, 0] ++ (b.drop (r.get 4 4)).take 224) (OnlyAnswers d)) ∧
    (Accepts (.debugUnlockChallenge f nonce) d f →
      Serves (.debugUnlockChallenge f nonce) s f (toBytes nonce.toNat 32)
        (OnlyAnswers { d with kiln := { d.kiln with nonce := some (toBytes nonce.toNat 32) } })) ∧
    (Accepts (.debugUnlockAnswer f) d f →
      Serves (.debugUnlockAnswer f) s f [] fun t => t.dbg.on = true ∧ t.kiln.nonce = none ∧ d.fuse.debugDis = false ∧
        Recorded d t { cls := 7, source := 3, code := 0x0035, info := 1 })

/-- R133-R142, R178: a write of the store that succeeds leaves a newer valid bank in use, which holds the record and every other record as
before; a write that fails leaves the bank in use as it was. -/
def Obligations.StoreWritesAreAtomic : Prop :=
  ∀ (d : Dev) (type : Nat) (data : List Byte), type < 65536 → data.length < 65536 →
    (((putRecord d.records type (some data)).flatMap recordBytes).length ≤ 65520 →
      let t := (d.storeRecord type (some data) true).2
      recordData t.records type = some data ∧ (∀ ty, ty ≠ type → recordData t.records ty = recordData d.records ty) ∧
      (d.storeRecord type none true).2.records = d.records.filter (fun r => r.1 != type) ∧
      (∀ x, d.selected = some x → ∃ y, t.selected = some y ∧ y.1 = !x.1 ∧ y.2.1 = x.2.1 + 1) ∧
      (d.selected = none → ∃ y, t.selected = some y ∧ y.1 = false ∧ y.2.1 = 1)) ∧
    (d.storeRecord type (some data) false).2.selected = d.selected

/-! ### Resets, boot, errors, time and registers (03, 06, 21-27) -/

/-- R109-R116, R125, R814, R847, R855, R856, R860, R862, R896, R906, R915, Table 3-3: each cause of a reset leaves the device at its reset
values but for what Table 3-3 keeps; device time, time fractions, error records and the history of causes survive a warm reset. -/
def Obligations.Resets : Prop :=
  ∀ (s : State) (cause : WarmCause) (ns : Nat) (data : W32) (kiln : Bool),
    let d := s.dev
    let After (t : Dev) (c : RstCause) (cold : Bool) : Prop :=
      t.glb.last = BitVec.ofNat 3 c.code ∧ t.glb.cause = (if cold then 1#6 <<< c.code else d.glb.cause ||| (1#6 <<< c.code)) ∧
      t.glb.time = (if cold then 0 else d.glb.time) ∧ t.glb.frac = (if cold then 0 else d.glb.frac) ∧ t.glb.adj = 0 ∧ t.glb.src = 0 ∧
      t.glb.bootMode = d.glb.bootMode ∧ t.fuse = d.fuse ∧ t.kiln = { flash := d.kiln.flash } ∧ t.cores = [] ∧ t.mbx = [] ∧ t.progs = [] ∧
      t.stk = {} ∧ t.syn = {} ∧ t.sle = {} ∧ t.cams = [] ∧ t.eths = [] ∧ t.net = {} ∧ t.dbg = {} ∧
      t.ten = [(0, Tenant.zero d.fuse.grade.pool)] ∧ t.blw.size = d.fuse.grade.pool ∧ t.pins.vid = none ∧ t.pcie.dlup = false ∧
      t.pins.rstLow = cold ∧ t.glb.phase = (if cold then .held else if d.glb.phase = .pll then .pll else .warm) ∧ (cold = true → t.err = {} ∧ t.mem = {})
    let Warm (c : Instr) (x : RstCause) : Prop := Gives c s fun t => After t x false ∧ t.err = d.err
    Gives .powerOnReset s (fun t => After t .por true ∧ t.pins.lost = false) ∧
    (d.pins.lost = false → 10000 ≤ ns → Gives (.rstNAssert ns) s (After · .pin true)) ∧
    (ns ≤ 1000 → exec (.rstNAssert ns) s = .next s) ∧
    (d.pins.lost = false → 1000 < ns → ns < 10000 →
      Gives (.rstNAssert ns) s fun t => After t .pin true ∨ t = { d with free := d.free + 1 }) ∧
    Gives (.powerLoss false) s (fun t => After t .por true ∧ t.pins.lost = true) ∧
    (d.glb.phase ≠ .held → d.pins.rstLow = false →
      Warm (.warmReset cause) (match cause with
        | .perst => .perst
        | .wdt => .wdt
        | .swrst => .swrst
        | .therm => .therm) ∧
      (bits data.toNat 0 16 = 0xC0DE → Warm (.glbRstctlWrite kiln data) .swrst) ∧
      (bits data.toNat 0 16 ≠ 0xC0DE → exec (.glbRstctlWrite kiln data) s = .next s) ∧
      (d.pcie.perst = false → d.kiln.perstScope = false → Warm .perstNAssert .perst) ∧
      (d.fatalDue = true → d.err.hold = false → Warm .fatalResetTimer .swrst) ∧
      (d.clocked = true → Gives .kilnWatchdogExpire s fun t => After t .wdt false ∧ t.err.seq = d.err.seq + 1))

/-- R115, R116, R124-R128, R192, R488, R582, R626, R820, R910: RST_N samples the straps; the PLL releases the domains, the remaps of OTP are
applied and the Kiln selects its image or serves itself; when the firmware is ready every mailbox is, DRAM has been trained, and the lowest
banked cores are active for tenant 0. -/
def Obligations.BootSequence : Prop :=
  ∀ (s : State) (boot : BitVec 2) (ref : Bool) (big : Bool) (train : W16) (test : BitVec 18) (flash : Bool),
    let d := s.dev
    (d.pins.lost = false → d.pins.rstLow = true →
      Gives (.rstNRise boot ref) s fun t => t =
        { d with glb := { d.glb with phase := .pll, bootMode := boot, refsel := ref }, pins := { d.pins with rstLow := false, scanOut := none } }) ∧
    (d.glb.phase = .pll ∨ d.glb.phase = .warm → d.pins.thermHold = false →
      Gives (.pllLock big train test flash) s fun t => t.glb.phase = .boot ∧ t.kiln.fw = .none ∧ t.glb.time = d.glb.time ∧
        (d.fuse.remaps = [] → t.cores = d.cores) ∧
        (∀ n mem row k, d.fuse.remaps = [(n, mem, row, k)] → ∀ m, t.core m = if m = n then (d.core m).useSpare mem row k else d.core m) ∧
        t.kiln.facts = { big := big, trainFail := train, testFail := test, flash := flash } ∧ t.kiln.flash = d.kiln.flash ∧
        (d.glb.bootMode = 0 →
          (∀ sl fb im, d.pickImage = some (sl, fb, im) → t.kiln.next = .fw ∧ t.kiln.img = im ∧ t.glb.slot = sl ∧ t.glb.fallback = fb ∧
            t.glb.recovery = false) ∧
          (d.pickImage = none → t.kiln.next = .rom ∧ t.glb.recovery = true)) ∧
        (d.glb.bootMode = 1 → t.kiln.next = .rom ∧ t.glb.recovery = false) ∧
        (2 ≤ d.glb.bootMode.toNat → t.kiln.next = .rom ∧ t.glb.recovery = true)) ∧
    (d.clocked = true → d.kiln.fw = .none →
      (d.kiln.next = .rom → Gives .fwreadySet s fun t => t.glb.phase = .ready ∧ t.kiln.fw = .rom ∧ (t.mbox 0).ready = true ∧
        (∀ f, f ≠ 0 → t.mbox f = d.mbox f) ∧ t.cores = d.cores ∧ (d.pcie.perst = false → t.pcie.crs = false)) ∧
      (d.kiln.next = .fw → Gives .fwreadySet s fun t => t.glb.phase = .ready ∧ t.kiln.fw = .fw ∧ (∀ f, f < 128 → (t.mbox f).ready = true) ∧
        (d.pcie.perst = false → t.pcie.crs = false) ∧ (d.kiln.booted = true → t.cores = d.cores ∧ t.stk = d.stk) ∧
        (d.kiln.booted = false → t.kiln.booted = true ∧ t.pins.vid = some d.fuse.vid ∧
          (d.kiln.facts.trainFail = 0 → t.mem.density = (if d.kiln.facts.big then 2 else 1) ∧
            t.mem.usable = usableMiB t.mem.density t.mem.ecc) ∧
          (d.kiln.facts.trainFail ≠ 0 → t.mem.usable = 0 ∧ t.mem.trainFail = d.kiln.facts.trainFail) ∧
          (d.storeUsed = false → d.kiln.facts.testFail = 0 → (∀ n, (d.core n).st = .banked) →
            ∀ n, n < 18 → if n < d.fuse.grade.guar then (t.core n).st = .active ∧ (t.core n).alloc = some 0
              else (t.core n).st = .banked)))) ∧
    (d.pcie.perst = true → Gives .perstNDeassert s fun t => t = { d with pcie := { d.pcie with perst := false, crs := !(d.mbox 0).ready } })

/-- R637, R847, R855, R856, R896, R908, R910, R924, R931, R933, R934: a device-fatal error stops dispatch, puts a running loop in SAFE with
cause 3 and is recorded; with FATALHOLD the device holds its state 10 ms later; an error in Kiln SRAM is recorded and restarts the Kiln alone;
readings 1 ms apart move the thermal cap by two half-tokens; a trip is recorded, holds THERMTRIP_N and resets, and the Kiln waits until Tj has
read low for 1 s; the supply code moves by one in 1 ms within its limits; without
VDD_IO33 the inputs read low and the loop is in SAFE with cause 2. -/
def Obligations.ErrorsTemperatureAndSupply : Prop :=
  ∀ (s : State) (u : Fin 4) (a : W32) (tj : Int) (sensor : Byte),
    let d := s.dev
    let l := d.fuse.limits
    let fatal : Rec := { cls := 6, source := [1, 2, 11, 12].getD u.val 0, code := 0x0040, info := u.val + 1 }
    (d.clocked = true → Gives (.deviceFatalError u) s fun t => t.stk.fatal = true ∧ t.stk.jobs = d.stk.jobs ∧
      (d.stk.fatalAt = none → t.stk.fatalAt = some d.glb.ticks) ∧
      (d.sle.st = .running → t.sle.st = .safe ∧ t.sle.safeCause = 3) ∧
      (d.sle.st ≠ .running → Recorded d t fatal ∧ t.sle = d.sle ∧
        (d.err.stat.getLsbD 5 = false → t.err.fatal = some (d.mkRec fatal)))) ∧
    (∀ f, d.stk.fatalAt = some f →
      (f + 1000000 ≤ d.glb.ticks → d.err.hold = true → Gives .fatalResetTimer s fun t => t = { d with stk := { d.stk with hold := true, fatalAt := none } }) ∧
      (d.glb.ticks < f + 1000000 → exec .fatalResetTimer s = .next s)) ∧
    (d.clocked = true → Gives (.kilnSramUe a) s fun t => t.kiln.fw = .none ∧ (∀ f, (t.mbox f).ready = false) ∧ t.cores = d.cores ∧
      t.stk = d.stk ∧ t.sle = d.sle ∧ t.kiln.epoch = d.kiln.epoch ∧
      Recorded d t { cls := 5, source := 3, code := 0x0018, info := a.toNat }) ∧
    (d.kiln.fw = .fw → (d.pins.tjAt = none ∨ ∃ a, d.pins.tjAt = some a ∧ a + 100000 ≤ d.glb.ticks) → Gives (.thermalReading tj) s fun t =>
      let tc := if l.1 ≤ tj then d.pins.tc - 2 else if tj < l.2.1 then min (d.pins.tc + 2) d.fuse.grade.pool else d.pins.tc
      t = { d with
        pins := { d.pins with tj := tj, tc := tc, tjAt := some d.glb.ticks, coolAt := if tj < l.2.1 then some (d.pins.coolAt.getD d.glb.ticks) else none }
        blw := { d.blw with leaseCap := min tc d.blw.size } }) ∧
    (l.2.2 ≤ tj → d.glb.phase ≠ .held → d.glb.phase ≠ .pll → Gives (.thermalTrip sensor tj) s fun t => t.pins.trip = true ∧ t.pins.thermHold = true ∧
      t.glb.phase = .warm ∧ t.glb.last = 5 ∧ t.glb.time = d.glb.time ∧
      (d.sle.st ≠ .running → Recorded d t { cls := 7, source := 12, code := 0x0041, info := sensor.toNat })) ∧
    (tj < l.2.2 → exec (.thermalTrip sensor tj) s = .next s) ∧
    (∀ c : Int, d.pins.coolAt = some c → c + 100000000 ≤ d.glb.ticks →
      Gives .thermalHoldRelease s fun t => t = { d with pins := { d.pins with thermHold := false } }) ∧
    (d.pins.coolAt = none → exec .thermalHoldRelease s = .next s) ∧
    (∀ v, d.kiln.fw = .fw → d.pins.vid = some v → (d.pins.vidAt = none ∨ ∃ a, d.pins.vidAt = some a ∧ a + 100000 ≤ d.glb.ticks) →
      let Vid (up : Bool) (v : BitVec 6) : Prop := Gives (.coreVidChange up) s fun t =>
        t = { d with pins := { d.pins with vid := some v, vidAt := some d.glb.ticks } }
      (v.toNat < 40 → Vid true (v + 1)) ∧
      (40 ≤ v.toNat → exec (.coreVidChange true) s = .next s) ∧
      (d.fuse.vid.toNat - 4 < v.toNat → Vid false (v - 1)) ∧
      (v.toNat ≤ d.fuse.vid.toNat - 4 → exec (.coreVidChange false) s = .next s)) ∧
    Gives (.powerLoss true) s (fun t => (∀ i, i < 25 → (t.inp i).raw = false) ∧ (∀ c, c < 8 → (t.enc c).a = false ∧ (t.enc c).b = false) ∧
      (d.sle.st = .running → t.sle.st = .safe ∧ t.sle.safeCause = 2) ∧ t.stk = d.stk ∧ t.glb.time = d.glb.time)

/-- R101-R105, R108, R109: a tick adds 0, 1 or 2 by the carry of the rate fraction, or the pending step in its place, unless that is negative
and not permitted, and the FCLK cycle that sees the new time follows (log 2); GLB_TIMEADJ is clamped; the two halves of GLB_TIMESTEP make one step with the high half. -/
def Obligations.DeviceTime : Prop :=
  ∀ (s : State) (kiln : Bool) (v : W64) (a : W32),
    let d := s.dev
    let g := d.glb
    let up : Nat := g.ticks + 1
    let sum : Int := g.frac.toNat + g.adj.toInt
    let n : Nat := if 4294967296 ≤ sum then 2 else if sum < 0 then 0 else 1
    let Glob (c : Instr) (g' : Glb) : Prop := Gives c s fun t => t = { d with glb := g' }
    let Ticks (g' : Glb) (l : Sle) : Prop := Gives .tclkTick s fun t => t.glb = g' ∧ t = ({ d with glb := g', sle := l } : Dev).fclk
    ((g.phase = .held ∨ g.phase = .pll) → exec .tclkTick s = .next s) ∧
    (g.phase ≠ .held → g.phase ≠ .pll →
      (g.step = none → Ticks { g with ticks := up, frac := g.frac + g.adj, time := g.time + BitVec.ofNat 64 n } d.sle) ∧
      (∀ x, g.step = some x →
        ((0 ≤ x.toInt ∨ g.backstep = true) → Ticks { g with ticks := up, time := g.time + x, step := none }
          { d.sle with tnext := if d.sle.st = .running then d.sle.tnext + x else d.sle.tnext }) ∧
        (x.toInt < 0 → g.backstep = false →
          Ticks { g with ticks := up, frac := g.frac + g.adj, time := g.time + BitVec.ofNat 64 n, step := none, stepRej := true } d.sle))) ∧
    ((kiln = true ∨ g.src = 2) →
      (a.toInt < -2147484 → Glob (.glbTimeadjWrite kiln a) { g with adj := BitVec.ofInt 32 (-2147484), adjClamp := true }) ∧
      (2147484 < a.toInt → Glob (.glbTimeadjWrite kiln a) { g with adj := 2147484, adjClamp := true }) ∧
      (-2147484 ≤ a.toInt → a.toInt ≤ 2147484 → Glob (.glbTimeadjWrite kiln a) { g with adj := a }) ∧
      Glob (.glbTimestepWrite kiln .full v) { g.setLow kiln none with step := some (g.step.getD 0 + v) } ∧
      Glob (.glbTimestepWrite kiln .low v) (g.setLow kiln (some (v.setWidth 32))) ∧
      (g.low kiln = none → exec (.glbTimestepWrite kiln .high v) s = .next s) ∧
      (∀ l, g.low kiln = some l →
        Glob (.glbTimestepWrite kiln .high v) { g.setLow kiln none with step := some (g.step.getD 0 + ((v.setWidth 32 : W32) ++ l)) })) ∧
    (kiln = false → g.src ≠ 2 → ∀ c ∈ [Instr.glbTimeadjWrite kiln a, .glbTimestepWrite kiln .full v, .glbTimestepWrite kiln .low v,
      .glbTimestepWrite kiln .high v], exec c s = .next s)

/-- R11-R14, R20, R107, R631, R685, R794, R816, R875, R879, R881, R945, R946, R949: a low-half read of a time register answers the low half
and latches the high one for its function; an RC field reads its count and is cleared; a VF sees and changes only what is its own; an offset
without a register reads zero and ignores writes; TAIL frees log entries; PEAK restarts; BLW_POOL takes legal values, and a CONVT out of its
range is stored as 0 with a warning. R939: a read behind a pending operation of its own function waits for it; otherwise it is answered at
once. R248, R250, R261, R265, R266, R275, R938: a host access to a counter of a block it may name is put in the counter's order, one to
another block is counted and recorded; a narrow SET is counted; arming checks the target, arms the slot and evaluates it. -/
def Obligations.RegisterAndSyncAccesses : Prop :=
  (
    ∀ (s : State) (f : Fn) (tail : Byte) (data : W32) (w : Agent) (off : BitVec 26) (wide : Bool) (v : W64),
      let d := s.dev
      let Reads (c : Instr) (f x : Nat) (e : Dev) : Prop := Gives c s fun t => t = { e with out := d.out ++ [.read f x] }
      let hi : W32 := BitVec.extractLsb' 32 32 d.glb.time
      d.syn.reads = [] →
      (d.synBehind f.val d.syn.nextId = true → Gives (.rcFieldRead (.fn f) off wide) s fun t =>
        t = { d with syn := { d.syn with reads := [{ fn := f.val, off := off.toNat, wide := wide, upto := d.syn.nextId }] } }) ∧
      ((∀ g, d.synBehind g d.syn.nextId = false) →
      (f = 0 → Reads (.glbTimeLowRead f) 0 (d.now % 2 ^ 32) { d with glb := { d.glb with shadow := SMap.set 0 d.glb.shadow 0 hi } }) ∧
      (f ≠ 0 → Reads (.glbTimeLowRead f) f.val 0 d) ∧
      Reads (.stkVtimeLowRead f) f.val (d.now % 2 ^ 32) { d with glb := { d.glb with vshadow := SMap.set 0 d.glb.vshadow f.val hi } } ∧
      (f = 0 → d.blw.peak < 2 ^ 32 → Reads (.blwPeakRead f) 0 d.blw.peak { d with blw := { d.blw with restart := true } }) ∧
      (f ≠ 0 → Reads (.blwPeakRead f) f.val 0 d) ∧
      Reads (.rcFieldRead (.fn 0) 0x100020 false) 0 d.stk.rejCnt.toNat { d with stk := { d.stk with rejCnt := 0 } } ∧
      Reads (.rcFieldRead (.fn 0) 0x3F0008 false) 0 d.syn.accErr.toNat { d with syn := { d.syn with accErr := 0 } } ∧
      Reads (.rcFieldRead (.fn 0) 0x600008 false) 0 d.sle.missCnt.toNat { d with sle := { d.sle with missCnt := 0 } } ∧
      Gives (.errLogptrTailWrite tail) s (fun t =>
        t = { d with err := { d.err with tail := tail.toNat, unread := (d.err.head + 256 - tail.toNat) % 256 } }) ∧
      (let size := bits data.toNat 0 6
       let cap := bits data.toNat 16 6
       let top := d.fuse.grade.pool
       (1 ≤ size → size ≤ top → cap ≤ size →
         Gives (.blwPoolWrite data) s fun t => t = { d with blw := { d.blw with size := size, leaseCap := cap } }) ∧
       ((size = 0 ∨ top < size) → Gives (.blwPoolWrite data) s fun t => t.blw.size = top ∧ t.blw.leaseCap = min cap top ∧ t.err.warn.getLsbD 63 = true) ∧
       (1 ≤ size → size ≤ top → size < cap → Gives (.blwPoolWrite data) s fun t => t.blw.size = size ∧ t.blw.leaseCap = size)) ∧
      Gives (.registerWrite (.fn 0) 0xD00010 false v) s (fun t =>
        t = { d with err := { d.err with ie := BitVec.ofNat 7 v.toNat, logCe := v.getLsbD 8, hold := v.getLsbD 9 } }) ∧
      ((viewer w).fn = 0 → w ≠ .jtag → regAt (off.toNat / 4 * 4) = none → off.toNat % 4 = 0 →
        exec (.registerWrite w off false v) s = .next s ∧ Reads (.rcFieldRead w off false) (viewer w).key 0 d) ∧
      (w ≠ .jtag → off.toNat % (if wide then 8 else 4) ≠ 0 → exec (.registerWrite w off wide v) s = .next s) ∧
      (∀ r base k, w = .fn f → f ≠ 0 → regAt off.toNat = some (r, base, k) → vfReach f.val r = false →
        exec (.registerWrite w off false v) s = .next s ∧ (off.toNat % 4 = 0 → Reads (.rcFieldRead w off false) f.val 0 d)) ∧
      (d.sle.st ≠ .running → d.fuse.grade.convtMax < bits v.toNat 24 6 → Gives (.registerWrite (.fn 0) 0x700010 false v) s fun t =>
        t.mio = { d.mio with pwmPer := BitVec.ofNat 16 (bits v.toNat 0 16), stepMask := BitVec.ofNat 8 (bits v.toNat 16 8), convt := 0 } ∧
        t.err.warn.getLsbD 63 = true ∧ t.sle = d.sle))) ∧
  (
    ∀ (s : State) (f : Fn) (c : CtrId) (a : SlotId) (v : W64) (x data : W32),
      let d := s.dev
      let Refused (i : Instr) (num : Nat) : Prop := Gives i s fun t =>
        t = { d with syn := { d.syn with accErr := satInc d.syn.accErr, errInfo := BitVec.ofNat 32 (num + f.val * 2 ^ 24 + 2 ^ 31) } }
      let Queued (i : Instr) (o : SynOp) : Prop := Gives i s fun t => t = { d with syn := { d.syn with
        pend := d.syn.pend ++ [{ ctr := c.toNat, op := o, src := 0, needDma := 0, needRem := 0, fn := f.val, id := d.syn.nextId }]
        nextId := d.syn.nextId + 1 } }
      let ctr := bits data.toNat 0 17
      let act := bits data.toNat 24 2
      let sl : Arm := { d.arm a.toNat with ctr := BitVec.ofNat 17 ctr, action := BitVec.ofNat 2 act, armed := false, due := false, rebased := false }
      d.syn.reads = [] →
      (d.blockOpen f.val (c.toNat / 256) = true → Queued (.synCtrWrite f c false v) (.set v) ∧ Queued (.synAddWrite f c x) (.add x) ∧
        Gives (.synCtrWrite f c true v) s (fun t => t = { d with syn := { d.syn with accErr := satInc d.syn.accErr } })) ∧
      (d.blockOpen f.val (c.toNat / 256) = false →
        (∀ narrow, Refused (.synCtrWrite f c narrow v) c.toNat) ∧ Refused (.synAddWrite f c x) c.toNat) ∧
      (d.synBehind f.val d.syn.nextId = false →
        (d.blockOpen f.val (c.toNat / 256) = true → Gives (.synCtrLowRead f c) s fun t =>
          t = { d with syn := { d.syn with shadow := SMap.set 0 d.syn.shadow f.val (BitVec.extractLsb' 32 32 (d.ctrVal c.toNat)) },
                       out := d.out ++ [.read f.val ((d.ctrVal c.toNat).toNat % 2 ^ 32)] }) ∧
        (d.blockOpen f.val (c.toNat / 256) = false → Gives (.synCtrLowRead f c) s fun t =>
          t.out = d.out ++ [.read f.val 0] ∧ t.syn.accErr = satInc d.syn.accErr ∧ t.syn.ctr = d.syn.ctr ∧ t.syn.shadow = d.syn.shadow)) ∧
      (d.blockOpen f.val (a.toNat / 16) = false → Refused (.synArmCtlWrite f a data) a.toNat) ∧
      (d.blockOpen f.val (a.toNat / 16) = true → act < 2 → d.syn.pend.filter (fun p => p.src == 0 && p.ctr == ctr) = [] →
        (data.getLsbD 31 = false → Gives (.synArmCtlWrite f a data) s fun t => t.arm a.toNat = sl ∧ t.syn.ctr = d.syn.ctr ∧
          t = { d with syn := { d.syn with arms := t.syn.arms } }) ∧
        (data.getLsbD 31 = true → d.armBad a.toNat ctr act = false → Gives (.synArmCtlWrite f a data) s fun t =>
          t.arm a.toNat = { sl with armed := true, due := d.ctrGe ctr sl.thresh } ∧ t = { d with syn := { d.syn with arms := t.syn.arms } }) ∧
        (data.getLsbD 31 = true → d.armBad a.toNat ctr act = true → Gives (.synArmCtlWrite f a data) s fun t =>
          t.arm a.toNat = { sl with invTgt := true } ∧ t.syn.accErr = satInc d.syn.accErr ∧ t.syn.ctr = d.syn.ctr)))

/-- R248, R252-R255, R260, R262-R264, R267, R268, R848, R939: the oldest operation of a source on a counter is applied: a SET gives its value, an ADD
the sum modulo 2^64; a BAD counter keeps its value; a core and a job that wait for the value see it, and a host read that waited for it is
answered. A satisfied slot fires, once in an FCLK cycle: its action is under way and its threshold moves by STEP. A RELEASE fire moves the tail or finds the ring full. An error marks the counter BAD. -/
def Obligations.CountersAndFires : Prop :=
  ∀ (s : State) (c : CtrId) (a : SlotId) (src : Nat) (p : SynPend) (rest : List SynPend), src < 24 →
    let d := s.dev
    let k := c.toNat
    let old := SMap.get 0 d.syn.ctr k
    let sl := d.arm a.toNat
    let Applied (v : W64) (wrap : Bool) : Prop := Gives (.counterApply c (1#24 <<< src)) s fun t =>
      t.syn.pend = rest ∧ (∀ i, SMap.get 0 t.syn.ctr i = if i = k then v else SMap.get 0 d.syn.ctr i) ∧
      t.syn.wrap = (d.syn.wrap || wrap) ∧
      t = { d with syn := t.syn, cores := t.cores, stk := { d.stk with jobs := t.stk.jobs }, sle := t.sle } ∧
      t.sle = { d.sle with commits :=
        d.sle.commits ++ if d.sle.st = .running ∧ d.sle.cfg.cmt = some k ∧ v ≠ old then [v] else [] } ∧
      (∀ n th b, (d.core n).wait = .sync k th b → th.toNat ≤ v.toNat → (t.core n).wait = .sync k th true) ∧
      (∀ n, (t.core n).regs = (d.core n).regs ∧ (t.core n).sp = (d.core n).sp) ∧
      (∀ i j, d.job i = some j → j.st = .waiting → j.waitCtr = some k → j.waitVal ≤ v.toNat → ∃ j', t.job i = some j' ∧ j'.watchSat = true)
    (d.syn.reads = [] → takePend k src d.syn.pend = some (p, rest) → d.synReady p = true → p.ctr = k →
      (SMap.get false d.syn.bad k = false →
        (∀ v, p.op = .set v → Applied v false) ∧
        (∀ x, p.op = .add x → Applied (old + x.setWidth 64) (decide (2 ^ 64 ≤ old.toNat + x.toNat)))) ∧
      (SMap.get false d.syn.bad k = true → ∀ v, p.op = .set v →
        Gives (.counterApply c (1#24 <<< src)) s fun t => t = { d with syn := { d.syn with pend := rest } }) ∧
      (∀ n q, p.op = .read n q → Gives (.counterApply c (1#24 <<< src)) s fun t => t.syn = { d.syn with pend := rest } ∧
        (∀ m, m ≠ n → t.core m = d.core m) ∧ (t.core n).regs = (d.core n).regs ∧
        ∀ o ∈ (d.core n).ops, ∀ r y, o.seq = q → o.kind = .syncRead r y →
          { o with kind := .regs [.x r (d.ctrVal k)] } ∈ (t.core n).ops)) ∧
    (d.syn.reads = [] → takePend k src d.syn.pend = none → exec (.counterApply c (1#24 <<< src)) s = .next s) ∧
    (∀ g v r, d.syn.pend = [p] → p.src = 0 → p.fn = g → p.op = .set v → p.ctr = k → SMap.get false d.syn.bad k = false →
      d.blockOpen g (k / 256) = true → d.syn.reads = [r] → r.fn = g → r.off = 0x200000 + 8 * k → r.wide = true → p.id < r.upto →
      Gives (.counterApply c 1) s fun t => t.syn.pend = [] ∧ t.syn.reads = [] ∧ t.out = d.out ++ [.read g v.toNat]) ∧
    (d.armSat sl = true → sl.firedAt ≠ d.fno + 1 → Gives (.armSlotFire a) s fun t =>
      let th := if sl.rebased then sl.thresh else sl.thresh + sl.step.setWidth 64
      t = { d with syn := { d.syn with arms := t.syn.arms, irq := t.syn.irq, rel := t.syn.rel } } ∧
      t.arm a.toNat = { sl with thresh := th, fires := satInc sl.fires, armed := decide (sl.step ≠ 0), due := false, rebased := false,
                                firedAt := d.fno + 1 } ∧
      (sl.action = 1 → t.syn.rel = d.syn.rel ++ [(a.toNat, sl.target.toNat)] ∧ t.syn.irq = d.syn.irq) ∧
      (sl.action ≠ 1 → t.syn.rel = d.syn.rel ∧ ∃ e ∈ t.syn.irq, e.1 = a.toNat)) ∧
    ((d.armSat sl = false ∨ sl.firedAt = d.fno + 1) → exec (.armSlotFire a) s = .next s) ∧
    (∀ u r q, takeSlot a.toNat d.syn.rel = some (u, r) → d.queue u = some q →
      let n := (q.tail + 1) % q.desc.sqSize
      (n = q.head → Gives (.armReleaseTail a) s fun t => t.arm a.toNat = { sl with relFull := true } ∧ t.syn.rel = r ∧ t.stk = d.stk) ∧
      (n ≠ q.head → Gives (.armReleaseTail a) s fun t => (∃ b, t.queue u = some { q with tail := n, stopped := false, wb := b }) ∧
        t.syn = { d.syn with rel := r } ∧ t.stk.jobs = d.stk.jobs ∧ MemOutside d.mem t.mem q.desc.headWb 8)) ∧
    (∀ e r, takeSlot a.toNat d.syn.irq = some (e, r) → Gives (.armIrqMessage a) s fun t =>
      t = { d with syn := { d.syn with irq := r }, pcie := t.pcie, out := t.out } ∧
      (SMap.get false d.pcie.msixEn e.1 = true → d.fnExists e.1 = true → SMap.get false d.pcie.fnMask e.1 = false →
        let x := SMap.get {} d.pcie.vecs (vecKey e.1 e.2)
        x.masked = false → d.pcie.dlup = true → t.out = d.out ++ [.msix e.1 e.2 x.addr x.data])) ∧
    Gives (.syncCounterUe c) s (fun t => (∀ i, SMap.get false t.syn.bad i = if i = k then true else SMap.get false d.syn.bad i) ∧
      t.syn.ctr = d.syn.ctr ∧ t.stk = d.stk ∧ t.cores = d.cores ∧
      Recorded d t { cls := 5, source := 2, code := 0x0016, info := k })

/-- R85, R799, R801, R806, R809, R815, R854: unmasking a vector that is pending sends its message once; the link comes up at a legal rate and width
and goes down; a BAR4 access inside the mapped region reaches device DRAM, one outside is dropped or answered Unsupported Request, and one
with EP is recorded; a read that finds or takes on poison is answered with EP set. -/
def Obligations.HostAccesses : Prop :=
  ∀ (s : State) (f : Fn) (v : BitVec 11) (sp wd : BitVec 4) (off : BitVec 35) (data : List Byte) (len : Over (BitVec 13)),
    let d := s.dev
    let e := SMap.get {} d.pcie.vecs (vecKey f.val v.toNat)
    let n := len.val.toNat
    (v.toNat < vectors f.val →
      (e.pend = true → SMap.get false d.pcie.fnMask f.val = false → SMap.get false d.pcie.msixEn f.val = true → d.fnExists f.val = true →
        d.pcie.dlup = true → Gives (.msixUnmask f v) s fun t =>
          t = { d with pcie := { d.pcie with vecs := t.pcie.vecs }, out := d.out ++ [.msix f.val v.toNat e.addr e.data] } ∧
          SMap.get {} t.pcie.vecs (vecKey f.val v.toNat) = { e with masked := false, pend := false }) ∧
      (e.pend = false → Gives (.msixUnmask f v) s fun t => t = { d with pcie := { d.pcie with vecs := t.pcie.vecs } } ∧
        SMap.get {} t.pcie.vecs (vecKey f.val v.toNat) = { e with masked := false })) ∧
    (d.clocked = true → d.pcie.perst = false → sp.toNat ∈ [1, 2, 3, 4, 5] → wd.toNat ∈ [1, 2, 4, 8] → Gives (.pcieLinkUp sp wd) s fun t =>
      t = { d with pcie := { d.pcie with dlup := true, dlchg := d.pcie.dlchg || !d.pcie.dlup, speed := sp, width := wd } }) ∧
    Gives .pcieLinkDown s (fun t =>
      t = { d with pcie := { d.pcie with dlup := false, dlchg := d.pcie.dlchg || d.pcie.dlup, speed := 0, width := 0 } }) ∧
    (wfRequest off.toNat data.length = true →
      (∀ a, d.bar4Addr f.val off.toNat data.length = some a → Gives (.bar4Write f off data false) s fun t =>
        Placed d.mem t.mem a data ∧ t.stk = d.stk ∧ t.out = d.out ∧ ∀ n, (t.core n).regs = (d.core n).regs ∧ (t.core n).sp = (d.core n).sp) ∧
      (d.bar4Addr f.val off.toNat data.length = none → Gives (.bar4Write f off data false) s fun t =>
        t = { d with pcie := { d.pcie with inDrop := satInc d.pcie.inDrop } }) ∧
      Gives (.bar4Write f off data true) s fun t => t.mem = d.mem ∧ t.stk = d.stk ∧ t.err.seq = d.err.seq + 1 ∧ t.err.stat.getLsbD 1 = true) ∧
    (wfRequest off.toNat n = true →
      (∀ a, d.bar4Addr f.val off.toNat n = some a → Gives (.bar4Read f off len) s fun t =>
        (∀ x, t.mem.byte x = d.mem.byte x) ∧ t.cores = d.cores ∧ t.stk = d.stk ∧
        (d.poisoned a n = false → fabricLost len.fab = false → (.read f.val (ofBytes (d.peek a n))) ∈ t.out ∧
          (len.fab = .clean → t.out = d.out ++ [.read f.val (ofBytes (d.peek a n))] ∧ t.err = d.err) ∧
          (len.fab ≠ .clean → t.err.stat.getLsbD 0 = true)) ∧
        ((d.poisoned a n = true ∨ fabricLost len.fab = true) → (.poisoned f.val (ofBytes (d.peek a n))) ∈ t.out ∧
          t.err.stat.getLsbD 1 = true ∧ (len.fab = .clean → t.err.seq = d.err.seq + 1))) ∧
      (d.bar4Addr f.val off.toNat n = none → Gives (.bar4Read f off len) s fun t =>
        t = { d with out := d.out ++ [.unsupported f.val] })) ∧
    (wfRequest off.toNat data.length = false → exec (.bar4Write f off data false) s = .refused .illFormed) ∧
    (wfRequest off.toNat n = false → exec (.bar4Read f off len) s = .refused .illFormed)

/-- R116, R790-R792, R810-R814: an FLR detaches the tenant's jobs, destroys its queues, clears its mailbox and its vectors, and the function
answers retry until it completes; clearing VF Enable resets every VF that goes; configuration requests get retry status before FWREADY. -/
def Obligations.FunctionResets : Prop :=
  ∀ (s : State) (f : Fn) (en : Bool) (num : BitVec 7) (off : BitVec 12) (q : CfgReq),
    let d := s.dev
    let Gone (t : Dev) (f : Nat) : Prop :=
      (t.mbox f).busy = false ∧ (t.mbox f).valid = false ∧ (t.mbox f).async = false ∧ (t.mbox f).queue = [] ∧ (t.mbox f).ready = (d.mbox f).ready ∧
      SMap.get false t.pcie.msixEn f = false ∧ SMap.get false t.pcie.flr f = true ∧ (t.tenant f).detach = true ∧
      (t.tenant f).exist = (d.tenant f).exist ∧
      (∀ k j, t.job k = some j → j.tenant = f → j.cores ≠ [] → j.detached = true) ∧
      (∀ u x, t.queue u = some x → x.tenant = f → x.dying = true ∧ x.detach = true) ∧
      (∀ k p, t.prog k = some p → p.tenant = f → p.dying = true)
    (f ≠ 0 → d.fnExists f.val = true → Gives (.flr f) s fun t => Gone t f.val ∧ ∀ g, g ≠ f.val → t.mbox g = d.mbox g) ∧
    (f = 0 ∨ d.fnExists f.val = false → exec (.flr f) s = .next s) ∧
    (SMap.get false d.pcie.flr f.val = true → Gives (.flrComplete f) s fun t =>
      SMap.get false t.pcie.flr f.val = false ∧ (t.tenant f.val).detach = false ∧ t.stk = d.stk ∧ t.cores = d.cores) ∧
    Gives .pfFlr s (fun t => Gone t 0 ∧ t.pcie.vfEn = false ∧ t.pcie.numVfs = 0) ∧
    Gives (.vfEnableClear en num) s (fun t => t.pcie.vfEn = en ∧ t.pcie.numVfs = num.toNat ∧
      (f ≠ 0 → d.fnExists f.val = true → t.fnExists f.val = false → Gone t f.val) ∧ t.mbox 0 = d.mbox 0) ∧
    (d.pcie.perst = true ∨ d.pcie.dlup = false → exec (.configRequest f q) s = .next s) ∧
    (d.pcie.perst = false → d.pcie.dlup = true →
      (d.pcie.crs = true ∨ SMap.get false d.pcie.flr f.val = true → Gives (.configRequest f q) s fun t =>
        t = { d with out := d.out ++ [.cfgRetry f.val] }) ∧
      (d.pcie.crs = false → SMap.get false d.pcie.flr f.val = false →
        (d.fnExists f.val = false → Gives (.configRequest f q) s fun t => t = { d with out := d.out ++ [.unsupported f.val] }) ∧
        (d.fnExists f.val = true → ∃ w, (∀ x, d.cfgWord f.val (off.toNat / 4 * 4) = some x → w = x) ∧
          Gives (.configRequest f (.read off)) s fun t => t = { d with free := t.free, out := d.out ++ [.cfgData f.val w] }))) ∧
    (d.pcie.perst = false → d.kiln.perstScope = true → d.pins.rstLow = false → Gives .perstNAssert s fun t =>
      t.pcie.perst = true ∧ t.pcie.dlup = false ∧ t.pcie.vfEn = false ∧ t.mbx = [] ∧ t.pcie.crs = true ∧ t.glb = d.glb)

/-- R826, R827, R830, R831, R833: an uncorrectable read is counted, recorded and its flit delivered poisoned from then on, a correctable one
only counted; the scrub visits flit after flit; refresh goes round the banks; a held slot counts a pressure frame. -/
def Obligations.MemoryController : Prop :=
  ∀ (s : State) (ch : Fin 16) (r : ScrubResult) (e : FlitError) (p : Fin 8) (hot : Bool),
    let d := s.dev
    let n := d.usable / 64
    let g := d.mem.scrub % n
    let UE (t : Dev) (f : Nat) : Prop := SMap.get false t.mem.poison f = true ∧ t.mem.ue = satInc d.mem.ue ∧ t.mem.dram = d.mem.dram ∧
      (∀ x, x ≠ f → SMap.get false t.mem.poison x = SMap.get false d.mem.poison x) ∧
      Recorded d t { cls := 2, source := 10, index := portOf f, code := 0x0011, info := f * 64 } ∧ t.stk = d.stk ∧ t.cores = d.cores
    Gives (.dramRefresh ch) s (fun t => t = { d with mem := { d.mem with refresh := t.mem.refresh } } ∧
      ∀ c, SMap.get 0 t.mem.refresh c = if c = ch.val then (SMap.get 0 d.mem.refresh c + 1) % 16 else SMap.get 0 d.mem.refresh c) ∧
    (d.mem.ecc = true → 0 < n →
      Gives (.patrolScrub .clean) s (fun t => t = { d with mem := { d.mem with scrub := (g + 1) % n } }) ∧
      Gives (.patrolScrub .corrected) s (fun t => t.mem = { d.mem with scrub := (g + 1) % n, ce := satInc d.mem.ce } ∧
        t.err.stat.getLsbD 0 = true ∧ (d.err.logCe = true →
          Recorded d t { cls := 1, source := 10, index := portOf g, code := 0x0002, info := g * 64 })) ∧
      Gives (.patrolScrub .uncorrectable) s (fun t => UE t g ∧ t.mem.scrub = (g + 1) % n) ∧
      (e.flit.toNat * 64 < d.usable →
        (e.corrected = false → Gives (.dramReadUe e) s (UE · e.flit.toNat)) ∧
        (e.corrected = true → Gives (.dramReadUe e) s fun t => t.mem = { d.mem with ce := satInc d.mem.ce } ∧ t.err.stat.getLsbD 0 = true))) ∧
    (d.mem.ecc = false → exec (.dramReadUe e) s = .next s ∧ exec (.patrolScrub r) s = .next s) ∧
    Gives (.portSlotHold p) s (fun t => t = { d with mem := { d.mem with press := true, ports := t.mem.ports } } ∧
      ∀ k, SMap.get {} t.mem.ports k = (let c := SMap.get {} d.mem.ports k
        if k = p.val then { c with press := satInc c.press, hold := satInc c.hold } else c)) ∧
    Gives (.dramTemperatureChange hot) s (fun t => t = { d with mem := { d.mem with hot := hot } })

/-- R866-R871, R918, R920: a breakpoint halts the set of its core before the instruction issues; RESUME and EXIT let halted sets go on; BYPASS
delays by one bit, IDCODE shifts out the revision's code; EXTEST, CLAMP and HIGHZ drive the outputs only in reset or debug mode, and DBGACC
acts only in debug mode; the SMBus target answers while the firmware or ROM serves, and does not acknowledge otherwise. -/
def Obligations.DebugAccess : Prop :=
  ∀ (s : State) (n : CoreN) (k : Nat) (j : Job) (code : BitVec 6) (tdi : W64) (off : BitVec 26) (v : W64) (a : DbgAcc),
    let d := s.dev
    let x := (tdi <<< 1).toNat
    let Tap (c : Instr) (p : Pins) (m : OutMsg) : Prop := Gives c s fun t => t = { d with pins := p, out := d.out ++ [m] }
    let Bypassed (c : Instr) (m : OutMsg) : Prop := Tap c { d.pins with tap := .bypass, scanOut := none } m
    (d.coreJob n.val = some (k, j) → j.fin = none → j.halt = none → (d.core n.val).run = true → (d.core n.val).dbg.halted = false →
      (d.core n.val).wait = .none → (d.core n.val).spec.wrong = false → (d.core n.val).spec.redirect = 0 → d.atBreak n.val = true →
      n.val ∈ j.cores → Gives (.breakpointHalt n) s fun t => (∃ j', t.job k = some j' ∧ j'.halt = some false ∧ j'.fin = none) ∧
        ∀ m ∈ j.cores, (t.core m).dbg.halted = true ∧ (t.core m).regs = (d.core m).regs ∧ (t.core m).sp = (d.core m).sp) ∧
    (d.dbg.on = true →
      (d.coreJob n.val = some (k, j) → d.job k = some j → j.halt = some false → d.now < j.deadline → Gives (.dbgResume n) s fun t =>
        (∃ j', t.job k = some j' ∧ j'.halt = none ∧ j'.fin = j.fin) ∧
        ∀ m ∈ j.cores, (t.core m).run = true ∧ (t.core m).dbg.halted = false ∧ (t.core m).regs = (d.core m).regs) ∧
      Gives .dbgExit s (fun t => t.dbg.on = false ∧ t.pins.scanOut = none ∧ (∀ m, m < 18 → (t.core m).haz.ctl = 0) ∧
        (∀ i y, t.job i = some y → d.job i ≠ none → y.halt = none))) ∧
    (d.dbg.on = false → exec .dbgExit s = .next s ∧ exec (.dbgResume n) s = .next s ∧ Bypassed (.dbgacc a) (.tdo 0 64)) ∧
    Bypassed (.bypass code tdi) (.tdo x 64) ∧
    Tap .idcode { d.pins with tap := .idcode, scanOut := none } (.tdo (if d.fuse.revB0 then 0x15C18A5D else 0x05C18A5D) 32) ∧
    Gives (.samplePreload v) s (fun t => t.pins = { d.pins with tap := .sample, scan := t.pins.scan, scanOut := none } ∧
      (∀ i, i < 64 → SMap.get false t.pins.scan i = v.getLsbD i) ∧ t.cores = d.cores ∧ t.stk = d.stk) ∧
    (d.pins.rstLow = false → d.dbg.on = false → Bypassed (.extest tdi) (.tdo x 64) ∧ Bypassed (.clamp tdi) (.tdo x 64) ∧
      Bypassed (.highz tdi) (.tdo x 64)) ∧
    (d.pins.rstLow = true → d.dbg.on = false →
      Gives (.extest tdi) s (fun t => t.pins.scanOut = some .extest ∧ (∀ i, i < 64 → SMap.get false t.pins.scan i = tdi.getLsbD i)) ∧
      Tap (.clamp tdi) { d.pins with tap := .clamp, scanOut := some .clamp } (.tdo x 64) ∧
      Tap (.highz tdi) { d.pins with tap := .highz, scanOut := some .highz } (.tdo x 64)) ∧
    (d.dbg.on = true →
      (d.sle.st = .running → Gives (.extest tdi) s fun t => t.sle.st = .safe ∧ t.pins.scanOut = some .extest) ∧
      ((d.core n.val).dbg.halted = true → ∀ r : Reg, Tap (.dbgacc (.readX n r)) { d.pins with tap := .dbgacc, scanOut := none }
        (.tdo ((d.core n.val).getX r.toNat).toNat 64)) ∧
      Tap (.dbgacc (.readReg 0x0 false)) { d.pins with tap := .dbgacc, scanOut := none } (.tdo d.fuse.idcode 32) ∧
      (d.syn.reads = [] → regAt (off.toNat / 4 * 4) = none → off.toNat % 4 = 0 → Gives (.dbgacc (.writeReg off false v)) s fun t =>
        t = { d with pins := { d.pins with tap := .dbgacc, scanOut := none } })) ∧
    Gives .tapReset s (fun t => t = { d with pins := { d.pins with tap := .idcode, scanOut := none } }) ∧
    (let Bus (c : Instr) (b : List Byte) : Prop :=
      (d.kiln.fw ≠ .none → d.pins.lost = false → Gives c s fun t => t = { d with out := d.out ++ [.smbus b] }) ∧
      (d.kiln.fw = .none ∨ d.pins.lost = true → Gives c s fun t => t = { d with out := d.out ++ [.smbusNack] })
     Bus .readTemperature1 (toBytes (linear11 d.pins.tj) 2) ∧ Bus .mfrModel (15#8 :: ascii d.fuse.partNumber) ∧
     Bus .mfrSerial (8#8 :: toBytes d.fuse.devid.toNat 8))

/-! ### Loop, motion, cameras, Ethernet (17-20) -/

/-- R642-R649, R655-R662, R665, R669, R853: the first boundary comes at its device time, a later one a period after the one before; there the
sample is numbered, a pending set takes effect, every encoder's count and velocity are latched, and a trajectory whose load ended in an earlier
LCLK replaces the active one, whose position otherwise advances; each change of CMTCTR is seen in turn, and a higher value starts the load of
its slot; the load's end makes the trajectory pending and acknowledges its commits; SAMPCTR gets one ADD after each of its snapshots. -/
def Obligations.BoundariesAndTrajectories : Prop :=
  ∀ (s : State) (v u : W64) (vs : List W64) (c : Nat) (cs : List Nat) (fab : Fabric),
    let d := s.dev
    let l := d.sle
    let due : Prop :=
      (l.first = true → l.tnext.toNat ≤ d.now) ∧
      (l.first = false → l.cfg.tlock = false → l.lbound + l.cfg.period ≤ d.lclk) ∧
      (l.first = false → l.cfg.tlock = true → l.lbound + l.cfg.period ≤ d.lclk + cdiv l.cfg.period 1333 ∧ l.tnext.toNat ≤ d.now + 1)
    let Ack (t : Dev) : Prop := match l.cfg.ack with
      | some k => ∃ p, t.syn = { d.syn with pend := d.syn.pend ++ [p], nextId := d.syn.nextId + 1 } ∧ p.ctr = k ∧ p.src = 3 ∧
          p.op = .add (BitVec.ofNat 32 (min (v - u).toNat 0xFFFFFFFF))
      | none => t.syn = d.syn
    (l.st = .running → l.phase = .idle → due → Gives .sampleBoundary s fun t =>
      t.sle.k = (if l.first then 0 else l.k + 1) ∧ t.sle.tbound = d.glb.time ∧ t.sle.lbound = d.lclk ∧
      t.sle.tnext = (if l.cfg.tlock = true ∧ t.sle.cfg.tlock = true then l.tnext else d.glb.time) +
        BitVec.ofNat 64 (t.sle.cfg.period / d.fuse.grade.perTick) ∧ t.sle.phase = .latched ∧ t.sle.missNow = false ∧
      t.sle.adc = [] ∧ t.sle.first = false ∧ t.sle.pend = none ∧
      (∀ n, n < 8 → SMap.get 0 t.sle.counts n = (d.enc n).count ∧ SMap.get 0 t.sle.vels n = d.vel n) ∧
      (∀ x, l.pend = some x → t.sle.cfg = { x with gainNew := false }) ∧ (l.pend = none → t.sle.cfg = l.cfg) ∧
      (∀ x, l.next = some x → l.nextAt < d.lclk → t.sle.traj = x ∧ t.sle.p = 0 ∧ t.sle.q = 0 ∧ t.sle.stale = false ∧ t.sle.next = none ∧
        t.sle.swaps = l.swaps + 1) ∧
      ((l.next = none ∨ d.lclk ≤ l.nextAt) → t.sle.traj = l.traj ∧ t.sle.next = l.next ∧
        (l.first = false → l.q + 1 < l.traj.div → t.sle.q = l.q + 1 ∧ t.sle.p = l.p ∧ t.sle.stale = l.stale) ∧
        (l.first = false → l.traj.div ≤ l.q + 1 → t.sle.q = 0 ∧
          (l.p + 1 < l.traj.count → t.sle.p = l.p + 1 ∧ t.sle.stale = l.stale) ∧ (l.traj.count ≤ l.p + 1 → t.sle.p = l.p ∧ t.sle.stale = true))) ∧
      t.stk = d.stk ∧ t.cores = d.cores ∧ t.mem = d.mem) ∧
    (l.st = .running → l.phase = .idle → ¬ due → exec .sampleBoundary s = .next s) ∧
    (l.sampDue = c :: cs → Gives .sampctrAdd s fun t =>
      t = { d with sle := { l with sampDue := cs },
                   syn := { d.syn with
                     pend := d.syn.pend ++ [{ ctr := c, op := .add 1, src := 3, needDma := 0, needRem := 0, fn := 0, id := d.syn.nextId }]
                     nextId := d.syn.nextId + 1 } }) ∧
    (l.commits = [] → exec .commitSeen s = .next s) ∧
    (l.commits = v :: vs → l.lastCmt = u → l.st = .running → l.load = none →
      (v.toNat ≤ u.toNat → Gives .commitSeen s fun t => t = { d with sle := { l with commits := vs, lastCmt := v } }) ∧
      (u.toNat < v.toNat → d.poisoned (l.slot v) 512 = false →
        (headBad (d.peek (l.slot v) 512) = false → Gives .commitSeen s fun t => t.syn = d.syn ∧
          t.sle = { l with commits := vs, load := some (v, u), lastCmt := v, next := none, overtaken := l.overtaken || l.next.isSome }) ∧
        (headBad (d.peek (l.slot v) 512) = true → Gives .commitSeen s fun t => t.sle = { l with commits := vs, lastCmt := v, reject := true } ∧ Ack t))) ∧
    (l.load = some (v, u) →
      let a := l.slot v
      let n := 512 * headRows (d.peek a 512)
      (d.poisoned a n = false → fabricLost fab = false → Gives (.trajectoryLoadDone fab) s fun t =>
        t.sle = { l with load := none, next := some (trajOf (d.peek a n)), nextAt := d.lclk } ∧ Ack t ∧ (∀ x, t.mem.byte x = d.mem.byte x)) ∧
      ((d.poisoned a n = true ∨ fabricLost fab = true) → Gives (.trajectoryLoadDone fab) s fun t =>
        t.sle = { l with load := none, next := none, reject := true } ∧ Ack t))

/-- R645, R647, R650-R653, R664-R668: the input check at INWIN takes the state elements of the latched inputs and computes the outputs, or declares the
miss of its cause and holds the outputs; at OUTINST the output instant presents the new values and writes the snapshot, or counts the miss and after
MISSLIM in a row enters SAFE with cause 1. -/
def Obligations.SamplesAndMisses : Prop :=
  ∀ (s : State),
    let d := s.dev
    let l := d.sle
    let present : Prop := ∀ i, i < l.cfg.nx → (d.xIn i).isSome = true
    let Base (t : Dev) : Prop := t.sle.phase = .checked ∧ t.sle.tsnNew = [] ∧ t.sle.k = l.k ∧ t.sle.cfg = l.cfg ∧ t.sle.uprev = l.uprev ∧
      (∀ i w, i < l.cfg.nx → d.xIn i = some w → SMap.get 0 t.sle.x i = w) ∧ t.mio = d.mio ∧ t.stk = d.stk ∧ t.cores = d.cores ∧ t.mem = d.mem
    let Miss (t : Dev) (cause : BitVec 3) : Prop := t.sle.missNow = true ∧ t.sle.missCause = cause ∧ t.sle.u = l.uprev ∧ t.sle.z = l.z
    let a := l.cfg.snapBase + l.k.toNat % 16 * 512
    let Snap (t : Dev) : Prop := (l.cfg.links = true → d.target a 512 = .dram → Placed d.mem t.mem a l.snapshot) ∧
      (l.cfg.links = false → t.mem = d.mem)
    (l.st = .running → l.phase = .latched → l.cfg.inwin ≤ d.lclk - l.lbound → l.catching = false →
      (∀ late, ¬ present → Gives (.inputCheck late) s fun t => Base t ∧ Miss t 1) ∧
      (present → Gives (.inputCheck true) s fun t => Base t ∧ Miss t 4 ∧ t.err.stat.getLsbD 4 = true) ∧
      (present → ∃ x, (∀ i w, i < l.cfg.nx → d.xIn i = some w → SMap.get 0 x i = w) ∧
        let r := { d with sle := { l with x := x } }.law
        (((List.range l.cfg.nu).all (fun i => sFinite (SMap.get 0 r.2.1 i)) = true) → Gives (.inputCheck false) s fun t =>
          Base t ∧ t.sle.x = x ∧ t.sle.z = r.1 ∧ t.sle.u = r.2.1 ∧ t.sle.clamp = r.2.2 ∧ t.sle.missNow = l.missNow) ∧
        (((List.range l.cfg.nu).all (fun i => sFinite (SMap.get 0 r.2.1 i)) = false) → Gives (.inputCheck false) s fun t =>
          Base t ∧ Miss t 2))) ∧
    (l.st = .running → l.phase = .checked → l.cfg.outinst ≤ d.lclk - l.lbound →
      (l.missNow = false → Gives .outputInstant s fun t => t.sle.st = .running ∧ t.sle.phase = .idle ∧ t.sle.uprev = l.u ∧ t.sle.consec = 0 ∧
        t.sle.dacDue = some (l.lbound + l.cfg.outinst + 4) ∧
        t.sle.sampDue = l.sampDue ++ (if l.k.toNat % l.cfg.sampDiv = 0 then l.cfg.samp.toList else []) ∧ (∀ x ∈ d.mappedOuts, SMap.get 0 t.sle.raw x.1 = x.2.rawOut (SMap.get 0 l.u x.1)) ∧
        t.sle.missCnt = l.missCnt ∧ t.stk = d.stk ∧ Snap t) ∧
      (l.missNow = true → l.consec + 1 < l.cfg.missLim → Gives .outputInstant s fun t => t.sle.st = .running ∧ t.sle.phase = .idle ∧
        t.sle.miss = true ∧ t.sle.missCnt = satInc l.missCnt ∧ t.sle.consec = l.consec + 1 ∧ t.sle.raw = l.raw ∧ t.sle.uprev = l.uprev ∧ t.mio = d.mio ∧ Snap t) ∧
      (l.missNow = true → l.cfg.missLim ≤ l.consec + 1 → Gives .outputInstant s fun t => t.sle.st = .safe ∧ t.sle.safeEnt = true ∧
        t.sle.safeCause = 1 ∧ t.sle.missCnt = satInc l.missCnt ∧ t.stk = d.stk))

/-- R679-R692, R695-R697, R703, R704, R763, R764: a quadrature edge counts by one in its direction, two at once set ENCERR; SSI frames start in
the LCLK of a boundary or every 65,536 LCLK and end in a count; an index pulse latches it; ADC results, DAC codes, PWM duties and STEP pulses at
their instants; an input that has stood for DEB changes its level, keeps the position of its first raw edge, trips its limit, or stops the loop;
SAFE frames are queued every 1 ms while the loop does not run. -/
def Obligations.MotionEvents : Prop :=
  ∀ (s : State) (c : Axis) (a b : Bool) (bits32 : W32) (port : Fin 4) (l0 l1 l2 l3 : W16) (i : Fin 25) (level : Bool),
    let d := s.dev
    let e := d.enc c.val
    let x := d.inp i.val
    let h := d.home c.val
    let st := SMap.get {} d.mio.steps c.val
    let stood : Prop := (x.deb = 0 → x.edgeL < d.lclk) ∧ (x.deb ≠ 0 → x.edgeT + 100 * x.deb.toNat ≤ d.glb.ticks)
    let Enc (i : Instr) (P : Enc → Prop) : Prop := Gives i s fun t =>
      t = { d with mio := { d.mio with encs := t.mio.encs } } ∧ P (t.enc c.val) ∧ ∀ k, k ≠ c.val → t.enc k = d.enc k
    let up := ((if a ≠ e.a then a != e.b else b == e.a) == Config.countsUp) != e.dirInv
    (e.mode = 1 →
      (xor (a != e.a) (b != e.b) = true → Enc (.quadratureEdge c a b) fun y => y.a = a ∧ y.b = b ∧
        y.count = (if up then e.count + 1 else e.count - 1)) ∧
      (a ≠ e.a → b ≠ e.b → Gives (.quadratureEdge c a b) s fun t => (t.enc c.val).count = e.count ∧ t.mio.encErr.getLsbD c.val = true ∧
        t.mio.ins = d.mio.ins) ∧
      (a = e.a → b = e.b → Enc (.quadratureEdge c a b) (· = e))) ∧
    (e.mode = 2 →
      (e.ssi = none → (d.sle.st = .running → d.sle.first = false ∧ d.lclk = d.sle.lbound) →
        (d.sle.st ≠ .running → ∀ t0, e.ssiAt = some t0 → t0 + 65536 ≤ d.lclk) →
        Enc (.ssiFrameStart c) (· = { e with ssi := some d.lclk, ssiAt := some d.lclk })) ∧
      (∀ t0, e.ssi = some t0 → t0 + e.ssiLen ≤ d.lclk →
        let n := bits32.toNat % 2 ^ (e.ssiBits.toNat + 1)
        Enc (.ssiFrameEnd c bits32) fun y => y.ssi = none ∧ y.count = BitVec.ofNat 32 (if e.gray then grayBin n else n))) ∧
    (h.active = true → h.idx = true → Gives (.indexPulse c) s fun t => t.home c.val =
      { h with idx := false, latch := some e.count, latchReg := e.count } ∧ t.sle = d.sle ∧ ∀ k, k ≠ c.val → t.home k = d.home k) ∧
    (d.sle.st = .running → d.sle.first = false → d.mio.convt.toNat + 68 ≤ d.lclk - d.sle.lbound → Gives (.adcResult port l0 l1 l2 l3) s fun t =>
      t = { d with sle := { d.sle with adc := t.sle.adc } } ∧
      ∀ k, SMap.get none t.sle.adc k = if k / 4 = port.val then some ([l0, l1, l2, l3].getD (k % 4) 0) else SMap.get none d.sle.adc k) ∧
    (∀ t0, d.sle.dacDue = some t0 → t0 ≤ d.lclk → Gives .dacSend s fun t => t.sle = { d.sle with dacDue := none } ∧
      t.out = d.out ++ (d.mappedOuts.filter (fun x => decide (x.2.dst = 3))).map
        (fun x => .dac x.2.ch (BitVec.ofInt 16 (SMap.get 0 d.sle.raw x.1)))) ∧
    (let per := d.mio.pwmPer.toNat + 1
     let d0 := d.mio.pwmAt
     (d.lclk - d0 < per → exec .pwmPeriodStart s = .next s) ∧
     (per ≤ d.lclk - d0 → Gives .pwmPeriodStart s fun t =>
       t = { d with mio := { d.mio with duty := d.mio.dutyNext, pwmAt := t.mio.pwmAt } } ∧
       t.mio.pwmAt ≤ d.lclk ∧ d.lclk < t.mio.pwmAt + per ∧ (t.mio.pwmAt - d0) % per = 0)) ∧
    (d.mio.stepMask.getLsbD c.val = true → st.owed = true → (∀ t0, st.turned = some t0 → t0 + 64 < d.lclk) → Gives (.stepPulse c) s fun t =>
      SMap.get {} t.mio.steps c.val = { st with owed := false, pulses := st.pulses + 1 } ∧ t.out = d.out ++ [.step c.val st.dir] ∧
      t.sle = d.sle) ∧
    Gives (.inputRawEdge i level) s (fun t => t = { d with mio := { d.mio with ins := t.mio.ins } } ∧
      (∀ k, k ≠ i.val → t.inp k = d.inp k) ∧ t.inp i.val = { x with
        raw := level
        cap := if (level != x.pol) ≠ x.lvl ∧ x.cap = none ∧ i.val < 24 then some (d.enc (i.val % 8)).count else x.cap
        edgeT := if level = x.raw then x.edgeT else d.glb.ticks
        edgeL := if level = x.raw then x.edgeL else d.lclk }) ∧
    (¬ stood → exec (.debounceAccept i) s = .next s ∧ exec (.captureDiscard i) s = .next s) ∧
    (x.eff ≠ x.lvl → stood → Gives (.debounceAccept i) s fun t => (t.inp i.val).lvl = x.eff ∧ (t.inp i.val).latch = x.cap.getD x.latch ∧
      (t.inp i.val).cap = none ∧ (∀ k, k ≠ i.val → t.inp k = d.inp k) ∧
      (i.val = 24 → x.eff = true → d.sle.st = .running → t.sle.st = .safe ∧ t.sle.safeCause = 2) ∧
      (i.val < 16 → x.eff = true → x.limSto = true → (d.home (i.val % 8)).active = false → t.mio.limTrip.getLsbD (i.val % 8) = true ∧
        t.sto (i.val % 8) = false)) ∧
    (x.eff = x.lvl → stood → exec (.debounceAccept i) s = .next s ∧ Gives (.captureDiscard i) s fun t => t.inp i.val = { x with cap := none } ∧
      (∀ k, k ≠ i.val → t.inp k = d.inp k) ∧ t.sle = d.sle) ∧
    (d.sle.st ≠ .running → d.net.safeAt + 100000 ≤ d.glb.ticks → Gives .safeCyclicFrame s fun t => t.net.safeAt = d.glb.ticks ∧ t.sle = d.sle ∧ t.mio = d.mio ∧ ∀ k, k < 8 →
      let o := SMap.get {} d.net.outs k
      let q := SMap.get 0 d.net.outSeq k
      let pay : List Byte := [BitVec.ofNat 8 o.first, BitVec.ofNat 8 o.count, 1, 0, 0, 0, 0, 0] ++ toBytes (d.ptp d.now) 8 ++
        (span o.first o.count).flatMap (fun j => toBytes (d.tsnOut true j).toNat 4)
      (o.enable = true → SMap.get 0 t.net.outSeq k = q + 1 ∧
        ∃ g tag, g ∈ SMap.get [] (t.eth o.port).tx (nth 0 (d.eth o.port).cfg.qmap o.pcp) ∧
          g.bytes = etherFrame o.mac (d.eth o.port).cfg.mac o.vid o.pcp 0x88B5 (pstHeader 0x10 k q.toNat pay.length tag ++ pay)) ∧
      (o.enable = false → SMap.get 0 t.net.outSeq k = q))

/-- R714-R719, R732, R736, R739, R743, R745: an accepted FS opens a frame with the next number, after a set that was pending in an earlier FCLK has become active; a line
of the right type, length and CRC is added to it, a wrong one drops the frame with its cause; the FE writes the outputs and closes it; its
descriptor follows, with an ADD to FRAMECTR for a delivered frame. -/
def Obligations.CameraFrames : Prop :=
  ∀ (s : State) (p : Port) (h : CsiHdr) (num : Over W16) (px : List W16) (f : Frame),
    let d := s.dev
    let c := d.cam p.val
    let a := c.active
    let x := c.selects d.fno
    let Others (t : Dev) : Prop := ∀ q, q ≠ p.val → t.cam q = d.cam q
    let DroppedWith (i : Instr) (cause : Nat) (P : Cam → Prop) : Prop := Gives i s fun t => Others t ∧ (t.cam p.val).drop = true ∧
      (t.cam p.val).lastCause = BitVec.ofNat 4 cause ∧ (t.cam p.val).drops = satInc c.drops ∧ t.stk = d.stk ∧ P (t.cam p.val)
    let Dropped (i : Instr) (cause : Nat) : Prop := DroppedWith i cause (·.tnrReset = true)
    (x.enable = true → h.ecc ≠ 2 →
      (h.vc.toNat = x.vc → c.frame = none → Gives (.frameStart p h num.val) s fun t => Others t ∧ t.mem = d.mem ∧
        (∀ x n, c.pend = some (x, n) → c.pendAt < d.fno → (t.cam p.val).active = x ∧ (t.cam p.val).commit = n ∧ (t.cam p.val).pend = none) ∧
        ((c.pend = none ∨ d.fno ≤ c.pendAt) → (t.cam p.val).active = a ∧ (t.cam p.val).commit = c.commit ∧ (t.cam p.val).pend = c.pend) ∧
        ∃ g, (t.cam p.val).frame = some g ∧ g.fsTime = d.glb.time ∧ g.num = num.val ∧ g.lines = [] ∧ g.drop = 0 ∧ g.cfg = (t.cam p.val).active ∧
          g.commit = (t.cam p.val).commit ∧ (t.cam p.val).seq = g.seq + 1 ∧ (c.pend = none → g.seq = c.seq)) ∧
      (h.vc.toNat = x.vc → c.frame = some f → f.drop = 0 →
        DroppedWith (.frameStart p h num.val) 4 fun y => ∃ g, y.frame = some g ∧ g.num = num.val ∧ g.lines = [] ∧ g.tnrReset = true) ∧
      (h.vc.toNat ≠ x.vc → Gives (.frameStart p h num.val) s fun t => Others t ∧ (t.cam p.val).discard = satInc c.discard ∧
        (t.cam p.val).frame = c.frame ∧ (t.cam p.val).active = a)) ∧
    (a.enable = true → c.frame = some f → f.drop = 0 →
      (h.ecc = 2 → Dropped (.csiLongPacket p h 0 true false px) 1 ∧ Dropped (.frameEnd p h num) 1) ∧
      (h.ecc ≠ 2 → h.vc.toNat = a.vc →
        let dt := BitVec.ofNat 6 a.dt
        (a.dt < 64 →
          (px.length = f.cfg.width → Gives (.csiLongPacket p h dt true false px) s fun t => Others t ∧ t.mem = d.mem ∧ t.stk = d.stk ∧
            (t.cam p.val).frame = some { f with lines := px.map (fun v => v.toNat % 2 ^ f.cfg.depth) :: f.lines }) ∧
          Dropped (.csiLongPacket p h dt true true px) 5 ∧ Dropped (.csiLongPacket p h dt false false px) 2 ∧
          (px.length ≠ f.cfg.width → Dropped (.csiLongPacket p h dt true false px) 3)) ∧
        (f.num = num.val → f.lines.length ≠ f.cfg.height → Dropped (.frameEnd p h num) 3) ∧
        (f.num = num.val → f.lines.length = f.cfg.height → f.cfg.tnrEn = true → fabricLost num.fab = true → Dropped (.frameEnd p h num) 7) ∧
        (f.num = num.val → f.lines.length = f.cfg.height → f.cfg.tnrEn = false → Gives (.frameEnd p h num) s fun t => Others t ∧
          (t.cam p.val).frame = none ∧ (f.wrote = false → (t.cam p.val).tail = c.tail ++ [{ f with feTime := d.glb.time }]) ∧
          (t.cam p.val).drops = c.drops ∧ t.stk = d.stk ∧
          let o := f.cfg.buffer f.seq.toNat + 0x200
          let im := f.cfg.black (f.cfg.snr (f.cfg.normal f.lines.reverse))
          (d.target o 4096 = .dram → t.mem.bytes o 4096 = f.cfg.histBytes im)))) ∧
    (∀ fs, c.tail = f :: fs → Gives (.descriptorWrite p) s fun t => Others t ∧ (t.cam p.val).tail = fs ∧
      let o := f.cfg.buffer f.seq.toNat
      (d.target o 512 = .dram → Placed d.mem t.mem o (f.desc d.glb.time)) ∧
      (f.drop = 0 → (t.cam p.val).deliv = satInc c.deliv ∧ ∀ k, f.cfg.frameCtr = some k → ∃ q,
        t.syn = { d.syn with pend := d.syn.pend ++ [q], nextId := d.syn.nextId + 1 } ∧ q.ctr = k ∧ q.op = .add 1) ∧
      (f.drop ≠ 0 → (t.cam p.val).deliv = c.deliv ∧ t.syn = d.syn))

/-- R750, R752, R758-R762, R777, R778, R784: a frame with a bad checksum or length is counted; one of gPTP waits for the Kiln, an event message with its timestamp, which TXLAT and RXLAT correct; a PST frame
enters the receive buffer while it has room; the link goes down with the loss of its responses and comes up; a gate list becomes operational
at its time; the port sends the frame of the highest queue that may, and releases a response after its last byte. -/
def Obligations.EthernetPorts : Prop :=
  ∀ (s : State) (p : Port) (fcs : Bool) (bytes : List Byte),
    let d := s.dev
    let e := d.eth p.val
    let c := e.cfg
    let f := parseFrame bytes
    let badLen : Prop := bytes.length + 4 < 64 ∨ c.mtu + 22 < bytes.length + 4
    let Only (i : Instr) (P : Eth → Prop) : Prop := Gives i s fun t => t = { d with eths := t.eths } ∧ P (t.eth p.val) ∧
      ∀ q, q ≠ p.val → t.eth q = d.eth q
    let Stamp (sent : Bool) (w : Nat) : Nat :=
      let gap : Int := Config.stampDelay c.speed (b2n c.fec) sent
      let x : Int := d.now * 65536 + w + (if sent then (c.txLat : Int) * 65536 / 10 - gap else gap - (c.rxLat : Int) * 65536 / 10)
      (x % 2 ^ 80).toNat
    let now := d.ptp d.now
    (e.link = false → exec (.ethFrameReceive p fcs bytes) s = .next s) ∧
    (e.link = true →
      ((fcs = false ∨ badLen ∨ c.takes f.dst = false) → Only (.ethFrameReceive p fcs bytes) (· = { e with bad := satInc e.bad })) ∧
      (fcs = true → ¬ badLen → c.takes f.dst = true →
        (f.type = 0x88F7 → 4 ≤ gptpType f.body →
          Only (.ethFrameReceive p fcs bytes) (· = { e with gptp := e.gptp ++ [{ bytes := bytes, stamp := none }] })) ∧
        (f.type = 0x88F7 → gptpType f.body < 4 → Gives (.ethFrameReceive p fcs bytes) s fun t =>
          t = { d with eths := t.eths, free := t.free } ∧ (∀ q, q ≠ p.val → t.eth q = d.eth q) ∧ ∃ w : Nat, w < 65536 ∧
            let at_ := Stamp false w
            (t.eth p.val).gptp = e.gptp ++ [{ bytes := bytes, stamp := some at_ }] ∧
            (gptpType f.body = 2 → (t.eth p.val).delayReq = some
              { seq := ofBytesBE ((f.body.drop 30).take 2), ident := (f.body.drop 20).take 10, stamp := at_ })) ∧
        (∀ x, f.type ≠ 0x88F7 → pstIn c f = some x → ¬ (x.encap = 0 ∧ fieldAt x.msg 1 1 = 0x10) → e.rxBytes + bytes.length ≤ rxSize →
          Only (.ethFrameReceive p fcs bytes) (· =
            { e with rx := e.rx ++ [{ bytes := bytes, rxt := d.glb.time, dl := d.rxDeadline d.now x.msg }] })) ∧
        (∀ x, f.type ≠ 0x88F7 → pstIn c f = some x → x.encap = 0 → fieldAt x.msg 1 1 = 0x10 →
          let k := fieldAt x.msg 2 2
          let st := SMap.get {} d.net.ins k
          let b := x.msg.drop 16
          let seq : W32 := BitVec.ofNat 32 (fieldAt x.msg 4 4)
          let fits : Prop := x.fits = true ∧ pstHeadBad x.msg = false ∧ k < 8 ∧ st.enable = true ∧ st.port = p.val ∧ x.mac = st.mac ∧
            x.vid = st.vid ∧ fieldAt b 0 1 = st.first ∧ fieldAt b 1 1 = st.count ∧ fieldAt b 2 6 = 0 ∧ pstLen x.msg = 16 + 4 * st.count ∧
            ∀ q, SMap.get none d.net.inSeq k = some q → seqNewer seq q = true
          (¬ fits → Only (.ethFrameReceive p fcs bytes) (· = { e with bad := satInc e.bad })) ∧
          (fits → Gives (.ethFrameReceive p fcs bytes) s fun t => t.eths = d.eths ∧ SMap.get none t.net.inSeq k = some seq ∧
            (∀ i, i < st.count → SMap.get (0, false) t.sle.tsn (st.first + i) = (BitVec.ofNat 32 (fieldAt b (16 + 4 * i) 4), st.float) ∧
              SMap.get false t.sle.tsnNew (st.first + i) = true) ∧
            ∀ i, (i < st.first ∨ st.first + st.count ≤ i) → SMap.get (0, false) t.sle.tsn i = SMap.get (0, false) d.sle.tsn i)) ∧
        (f.type ≠ 0x88F7 → pstIn c f = none → forKiln c f = true → Only (.ethFrameReceive p fcs bytes) (· = { e with kiln := e.kiln ++ [bytes] })) ∧
        (f.type ≠ 0x88F7 → pstIn c f = none → forKiln c f = false →
          Only (.ethFrameReceive p fcs bytes) (· = { e with bad := satInc e.bad }))) ∧
      Gives (.ethLinkDown p) s (fun t => (t.eth p.val).link = false ∧ (t.eth p.val).linkChg = true ∧ (t.eth p.val).verified = false ∧
        (t.eth p.val).onWire = [] ∧ (t.eth p.val).cfg = c ∧
        (∀ q, SMap.get [] (t.eth p.val).tx q = (SMap.get [] e.tx q).filter (fun g => g.resp.isNone)) ∧ ∀ q, q ≠ p.val → t.eth q = d.eth q) ∧
      (c.preemptEn = true → c.verifyEn = true → Only (.preemptionVerifySuccess p) (· = { e with verified := true })) ∧
      (∀ q g gs, e.pick now = some q → e.frag = none → SMap.get [] e.tx q = g :: gs →
        (e.preempt = false ∨ c.express.getLsbD q = true ∨ e.fits q (g.bytes.length + 4) now = true → Gives (.transmitSelect p) s fun t =>
          t = { d with eths := t.eths, free := t.free, out := d.out ++ [.frame p.val g.bytes] } ∧ SMap.get [] (t.eth p.val).tx q = gs ∧
          (g.ptp = some .sync → ∃ w : Nat, w < 65536 ∧ (t.eth p.val).syncTx = some (Stamp true w)) ∧
          (g.ptp = some .delayResp → ∃ w : Nat, w < 65536 ∧ (t.eth p.val).respTx = some (Stamp true w)) ∧
          (t.eth p.val).onWire = e.onWire ++ g.resp.toList ∧ ∀ r, r ≠ q → SMap.get [] (t.eth p.val).tx r = SMap.get [] e.tx r) ∧
        (e.preempt = true → c.express.getLsbD q = false → e.fits q (g.bytes.length + 4) now = false → Gives (.transmitSelect p) s fun t =>
          t = { d with eths := t.eths, free := t.free } ∧ (t.eth p.val).frag = some (q, g) ∧ SMap.get [] (t.eth p.val).tx q = gs))) ∧
    (e.link = false → c.speed ≠ 0 → Only (.ethLinkUp p) (· = { e with link := true, linkChg := true })) ∧
    Only (.gateEvent p) (· = { e with open_ := e.gatesNow now }) ∧
    (∀ g, e.gclPend = some g → g.base ≤ now → Only (.gclConfigChange p) fun y => y.gates = some g ∧ y.gclPend = none ∧ y.cfg = c) ∧
    (∀ r rs, e.onWire = r :: rs → Gives (.solveResponseSent p) s fun t => (t.eth p.val).onWire = rs ∧ (t.eth p.val).tx = e.tx ∧
      (∀ q, d.queue r.2.2.1 = some q → ∃ q', t.queue r.2.2.1 = some q' ∧ q'.desc = q.desc ∧
        (r.2.2.2 = none → q'.cqFreed = q.cqFreed + 1) ∧ (∀ i, r.2.2.2 = some i → q'.ovfMask = q.ovfMask &&& ~~~(1#4 <<< i))) ∧
      ∀ x, d.session r.1 = some x → x.open_ = true → ∃ y, t.session r.1 = some y ∧ y.responses = x.responses + 1 ∧
        SMap.get none y.slots r.2.1 = none)

/-- R766, R772-R775: the receive path takes the oldest buffered frame: one without its session is counted; a request that passes every check
takes the lowest free slot, its payload and its submission entry are written and its queue's tail moves; a request that is not newer, or out
of range, late or without a slot gets a NOTICE and is counted. -/
def Obligations.SolveRequests : Prop :=
  ∀ (s : State) (p : Port) (f : RxPst) (rest : List RxPst) (x : PstIn),
    let d := s.dev
    let e := d.eth p.val
    let b := x.msg.drop 16
    let sn := fieldAt x.msg 2 2
    let seq : W32 := BitVec.ofNat 32 (fieldAt x.msg 4 4)
    let c := Instr.pstRequestProcess p
    e.rx = f :: rest → pstIn e.cfg (parseFrame f.bytes) = some x → x.fits = true → pstHeadBad x.msg = false → fieldAt x.msg 1 1 = 1 →
    ((d.session sn = none ∨ ∃ y, d.session sn = some y ∧ y.takes p.val x = false) → Gives c s fun t =>
      t = { d with eths := t.eths } ∧ t.eth p.val = { e with rx := rest, noSession := satInc e.noSession }) ∧
    (∀ y, d.session sn = some y → y.takes p.val x = true → requestBad y x.msg = false →
      let new := match y.lastSeq with
        | some q => seqNewer seq q
        | none => true
      let dl := d.reqDeadline f.rxt.toNat b
      let u := y.qBase + fieldAt b 0 2
      let timed : Prop := bit1 (fieldAt b 2 2) 1 = true ∨ d.net.locked = true
      let Noticed (P : Session → Prop) : Prop := Gives c s fun t => (t.eth p.val).rx = rest ∧ (t.eth p.val).notices = satInc e.notices ∧
        t.stk = d.stk ∧ t.mem = d.mem ∧ ∃ z, t.session sn = some z ∧ z.notices = y.notices + 1 ∧ z.slots = y.slots ∧ P z
      (new = false → Noticed fun z => z.lastSeq = y.lastSeq) ∧
      (new = true →
        (y.qCount ≤ fieldAt b 0 2 → Noticed fun z => z.lastSeq = some seq) ∧
        (fieldAt b 0 2 < y.qCount → ¬ timed → Noticed fun z => z.lastSeq = some seq) ∧
        (fieldAt b 0 2 < y.qCount → timed → dl ≤ (d.now : Int) → Noticed fun z => z.lastSeq = some seq) ∧
        (fieldAt b 0 2 < y.qCount → timed → (d.now : Int) < dl →
          (y.freeSlot = none → Noticed fun z => z.lastSeq = some seq) ∧
          (∀ k, y.freeSlot = some k → (∀ q, d.queue u = some q → q.pst ≠ some sn ∨ q.tenant ≠ y.tenant) → Noticed fun z => z.lastSeq = some seq) ∧
          (∀ k q, y.freeSlot = some k → d.queue u = some q → q.pst = some sn → q.tenant = y.tenant →
            ((q.tail + 1) % q.desc.sqSize = q.head → Noticed fun z => z.lastSeq = some seq) ∧
            ((q.tail + 1) % q.desc.sqSize ≠ q.head → Gives c s fun t => (t.eth p.val).rx = rest ∧ (t.eth p.val).accepted = satInc e.accepted ∧
              t.queue u = some { q with tail := (q.tail + 1) % q.desc.sqSize, stopped := false } ∧
              (∃ z o, t.session sn = some z ∧ z.accepted = y.accepted + 1 ∧ z.lastSeq = some seq ∧ SMap.get none z.slots k = some o ∧ o.seq = seq) ∧
              (d.target (q.desc.sqBase + 64 * q.tail) 64 = .dram →
                t.mem.bytes (q.desc.sqBase + 64 * q.tail) 64 = pstEntry sn k y b dl.toNat (y.sBase + k * (y.pMax + 8) * 512)))))))

/-- R751, R753-R757: with TIME_SRC 1 a Sync re-anchors PTPOFS where its error is above 1 ms, else sets the rate; eight in a row within 100 ns
lock; three intervals without one unlock; a port that may sends its messages at priority 7; the Kiln answers an ARP request. -/
def Obligations.TimeSynchronisation : Prop :=
  ∀ (s : State) (p : Port) (err : W64) (adj : W32) (kind : PtpMsg) (b : List Byte) (bs : List (List Byte)),
    let d := s.dev
    let e := d.eth p.val
    let n := d.net
    (d.glb.src = 1 → d.kiln.fw = .fw → e.cfg.ptpEn = true →
      ((n.anchored = false ∨ 1000000 < err.toInt.natAbs) → Gives (.ptpSyncProcess p err adj) s fun t =>
        t.net = { n with gm := false, offset := t.net.offset, ptpOfs := n.ptpOfs - err, anchors := (n.anchors + 1) % 256, anchored := true,
                         locked := false, good := 0 } ∧ t.glb = d.glb ∧ (t.eth p.val).ptpState = 2) ∧
      (n.anchored = true → err.toInt.natAbs ≤ 1000000 →
        let good := if err.toInt.natAbs ≤ 100 then min 8 (n.good + 1) else 0
        Gives (.ptpSyncProcess p err adj) s fun t =>
          t.net = { n with gm := false, offset := t.net.offset, good := good, locked := n.locked || decide (8 ≤ good) } ∧
          (adj.toInt.natAbs ≤ 2147484 → t.glb = { d.glb with adj := adj }) ∧ (t.eth p.val).ptpState = 2) ∧
      (e.ptpReady kind = true → (ptpMaster kind = false ∨ ((d.eth 0).ptpState ≠ 2 ∧ (d.eth 1).ptpState ≠ 2)) → Gives (.ptpMessageSend p kind) s fun t =>
        ∃ g, SMap.get [] (t.eth p.val).tx (nth 0 e.cfg.qmap 7) = SMap.get [] e.tx (nth 0 e.cfg.qmap 7) ++ [g] ∧
          g.ptp = ptpEvent kind ∧ (parseFrame g.bytes).type = 0x88F7 ∧
          ∀ x, kind = .followUp → e.syncTx = some x → ((parseFrame g.bytes).body.drop 34).take 10 = ptpStamp (d.ptpOfStamp x))) ∧
    (e.ptpReady kind = false → exec (.ptpMessageSend p kind) s = .next s) ∧
    ((d.glb.src ≠ 1 ∨ d.kiln.fw ≠ .fw ∨ e.cfg.ptpEn = false) →
      exec (.ptpSyncProcess p err adj) s = .next s ∧ exec (.ptpMessageSend p kind) s = .next s) ∧
    Gives .ptpLockTimeout s (fun t => t.net = { n with locked := false, good := 0 } ∧ t.glb = d.glb) ∧
    (e.kiln = b :: bs → d.kiln.fw = .fw →
      let f := parseFrame b
      let q := nth 0 e.cfg.qmap 0
      Gives (.kilnNeighbourReply p) s fun t => (t.eth p.val).kiln = bs ∧ (∀ r, r ≠ p.val → t.eth r = d.eth r) ∧
        (f.type = 0x0806 → ∃ g, SMap.get [] (t.eth p.val).tx q = SMap.get [] e.tx q ++ [g] ∧ g.bytes = etherFrame f.src e.cfg.mac f.vid 0 0x0806
          ([0, 1, 8, 0, 6, 4, 0, 2] ++ toBytes e.cfg.mac 6 ++ toBytes e.cfg.ipv4 4 ++ (f.body.drop 8).take 10)))

/-! ### Reset, invariants of every step, and the instruction words -/

/-- R106, R185, R274, R616, R637, R694, R860, R864: the machine after reset: time and epoch 0, every counter 0 and every block free, tenant 0
alone, no program, queue or job, the loop STOPPED with torque off, debug mode off, no error recorded. The canonical form of the memories
holds after reset. -/
def Obligations.StateAfterReset : Prop :=
  (
    let d := State.reset.dev
    State.reset.pending = [] ∧ d.glb.time = 0 ∧ d.kiln.epoch = 0 ∧ d.kiln.fw = .none ∧ (∀ c, d.ctrVal c = 0) ∧
      (∀ b, SMap.get 0 d.syn.owner b = 0) ∧ (∀ a, SMap.get {} d.syn.arms a = {}) ∧ (∀ t, (d.tenant t).exist = true ↔ t = 0) ∧
      (∀ p, d.prog p = none) ∧ (∀ u, d.queue u = none) ∧ (∀ k, d.job k = none) ∧ d.sle.st = .stopped ∧ (∀ a, d.sto a = false) ∧
      d.dbg.on = false ∧ d.err.seq = 0 ∧ d.err.stat = 0) ∧
  (
     State.reset.dev.memWf = true)

/-- No step breaks the canonical form of device DRAM, the flash, the scratchpads and the ember stores: equal memories stay equal data. -/
def Obligations.MemoryStaysCanonical : Prop :=
   ∀ s t : State, s.dev.memWf = true → step s = .next t → t.dev.memWf = true

/-- R122, R195: no step lowers the minimum security version fused in OTP, and no step changes any other fuse. -/
def Obligations.FusesStayBlown : Prop :=
  ∀ s t : State, step s = .next t →
    t.dev.fuse = { s.dev.fuse with svn := t.dev.fuse.svn } ∧ s.dev.fuse.svn.toNat ≤ t.dev.fuse.svn.toNat

/-- R282, R286, R287: two instruction words that decode to the same predicate and the same instruction are the same word: the decoder drops no
bit of the encoding. -/
def Obligations.CoreWordsDecodeOnce : Prop :=
  ∀ (w v : BitVec 128) (x : Pred × CoreOp), decodeCore w = some x → decodeCore v = some x → w = v
end

