-- ==== Sys2Proof/Laws/Map.lean ====
section
/-!
SUPPORT. Laws/Map.lean: the laws of sparse tables and byte memories: reading after a change, and the canonical form.
-/
namespace Sys2Proof.Machine
variable {α : Type}

/-! ### Reading after a change: no law needs the canonical form -/

@[simp] theorem SMap.get_nil (d : α) (k : Nat) : SMap.get d ([] : SMap α) k = d := rfl

theorem SMap.get_cons (d : α) (a : Nat) (v : α) (m : SMap α) (k : Nat) :
    SMap.get d ((a, v) :: m) k = if a = k then v else if k < a then d else SMap.get d m k := rfl

theorem SMap.get_above (d : α) (m : SMap α) (k j : Nat) :
    SMap.get d (SMap.above k m) j = if j ≤ k then d else SMap.get d m j := by
  induction m with
  | nil => simp [SMap.above]
  | cons e m ih =>
    obtain ⟨a, v⟩ := e
    by_cases h : a ≤ k
    · have : SMap.above k ((a, v) :: m) = SMap.above k m := by simp [SMap.above, h]
      rw [this, ih, SMap.get_cons]
      split <;> rename_i hj
      · rfl
      · rw [if_neg (by omega), if_neg (by omega)]
    · have : SMap.above k ((a, v) :: m) = (a, v) :: m := by simp [SMap.above, h]
      rw [this, SMap.get_cons]
      split <;> rename_i hj
      · rw [if_neg (by omega)]
      · split <;> rename_i hl
        · simp
        · rw [if_neg (by omega)]

theorem SMap.get_put [DecidableEq α] (d : α) (k : Nat) (v : α) (m : SMap α) (j : Nat) :
    SMap.get d (SMap.put d k v m) j = if j = k then v else if j < k then d else SMap.get d m j := by
  unfold SMap.put
  split
  · rename_i hv
    rw [SMap.get_above]
    by_cases hj : j = k
    · simp [hj, hv]
    · rw [if_neg hj]
      by_cases hl : j < k
      · rw [if_pos (by omega), if_pos hl]
      · rw [if_neg (by omega), if_neg hl]
  · rw [SMap.get_cons]
    by_cases hj : j = k
    · simp [hj]
    · rw [if_neg (Ne.symm hj), if_neg hj]

/-- Reading a key after setting a key. -/
theorem SMap.get_set [DecidableEq α] (d : α) (m : SMap α) (k : Nat) (v : α) (j : Nat) :
    SMap.get d (SMap.set d m k v) j = if j = k then v else SMap.get d m j := by
  induction m with
  | nil => simp [SMap.set, SMap.get_put]
  | cons e m ih =>
    obtain ⟨a, w⟩ := e
    unfold SMap.set
    by_cases h1 : k < a
    · rw [if_pos h1, SMap.get_put, SMap.get_cons]
      by_cases hj : j = k
      · simp [hj]
      · rw [if_neg hj, if_neg hj]
        by_cases hl : j < k
        · rw [if_pos hl, if_neg (by omega), if_pos (by omega)]
        · rw [if_neg hl]
    · rw [if_neg h1]
      by_cases h2 : a = k
      · subst h2
        rw [if_pos rfl, SMap.get_put, SMap.get_cons]
        by_cases hj : j = a
        · simp [hj]
        · rw [if_neg hj, if_neg hj, if_neg (Ne.symm hj)]
      · rw [if_neg h2, SMap.get_cons, ih, SMap.get_cons]
        by_cases hj : j = k
        · subst hj
          rw [if_neg h2, if_neg h1, if_pos rfl, if_pos rfl]
        · rw [if_neg hj, if_neg hj]

/-- Reading a key after every listed value is changed by a function that keeps the default. -/
theorem SMap.get_mapV [DecidableEq α] (d : α) (f : Nat → α → α) (m : SMap α) (j : Nat) (h : f j d = d) :
    SMap.get d (SMap.mapV d f m) j = f j (SMap.get d m j) := by
  induction m with
  | nil => exact h.symm
  | cons e m ih =>
    obtain ⟨a, w⟩ := e
    rw [SMap.mapV, SMap.get_put, SMap.get_cons]
    by_cases hj : j = a
    · simp [hj]
    · rw [if_neg hj, if_neg (Ne.symm hj)]
      split
      · exact h.symm
      · exact ih

/-- Reading a key after only some entries are kept. -/
theorem SMap.get_keep (d : α) (p : Nat → α → Bool) (m : SMap α) (j : Nat) :
    SMap.get d (SMap.keep p m) j = if p j (SMap.get d m j) then SMap.get d m j else d := by
  induction m with
  | nil => rw [SMap.keep, SMap.get_nil, ite_self]
  | cons e m ih =>
    obtain ⟨a, w⟩ := e
    rw [SMap.keep, SMap.get_cons]
    by_cases hj : a = j
    · subst hj
      rw [if_pos rfl]
      split
      · rw [SMap.get_cons, if_pos rfl]
      · rw [SMap.get_above, if_pos (Nat.le_refl _)]
    · rw [if_neg hj]
      by_cases hl : j < a
      · rw [if_pos hl, ite_self]
        split
        · rw [SMap.get_cons, if_neg hj, if_pos hl]
        · rw [SMap.get_above, if_pos (by omega)]
      · rw [if_neg hl]
        split
        · rw [SMap.get_cons, if_neg hj, if_neg hl, ih]
        · rw [SMap.get_above, if_neg (by omega), ih]

@[simp] theorem SMap.get_set_self [DecidableEq α] (d : α) (m : SMap α) (k : Nat) (v : α) :
    SMap.get d (SMap.set d m k v) k = v := by rw [SMap.get_set, if_pos rfl]

theorem SMap.get_set_ne [DecidableEq α] (d : α) (m : SMap α) (k : Nat) (v : α) {j : Nat} (h : j ≠ k) :
    SMap.get d (SMap.set d m k v) j = SMap.get d m j := by rw [SMap.get_set, if_neg h]

/-- Reading a key after changing a key. -/
theorem SMap.get_upd [DecidableEq α] (d : α) (m : SMap α) (k : Nat) (f : α → α) (j : Nat) :
    SMap.get d (SMap.upd d m k f) j = if j = k then f (SMap.get d m k) else SMap.get d m j :=
  SMap.get_set d m k _ j

@[simp] theorem SMap.get_upd_self [DecidableEq α] (d : α) (m : SMap α) (k : Nat) (f : α → α) :
    SMap.get d (SMap.upd d m k f) k = f (SMap.get d m k) := by rw [SMap.get_upd, if_pos rfl]

theorem SMap.get_upd_ne [DecidableEq α] (d : α) (m : SMap α) (k : Nat) (f : α → α) {j : Nat} (h : j ≠ k) :
    SMap.get d (SMap.upd d m k f) j = SMap.get d m j := by rw [SMap.get_upd, if_neg h]

/-! ### The canonical form -/

/-- The keys of a canonical table after `a` are above `a`, and its tail is canonical. -/
theorem SMap.wf_cons [DecidableEq α] (d : α) (a : Nat) (v : α) (m : SMap α) :
    SMap.wf d ((a, v) :: m) = true ↔ v ≠ d ∧ SMap.wf d m = true ∧ ∀ e ∈ m, a < e.1 := by
  induction m generalizing a v with
  | nil => simp [SMap.wf]
  | cons e m ih =>
    obtain ⟨b, w⟩ := e
    have hm := ih b w
    simp only [SMap.wf, Bool.and_eq_true, decide_eq_true_eq]
    constructor
    · rintro ⟨⟨h1, h2⟩, h3⟩
      refine ⟨h2, h3, fun e he => ?_⟩
      rcases List.mem_cons.mp he with rfl | he
      · exact h1
      · exact Nat.lt_trans h1 ((hm.mp h3).2.2 e he)
    · rintro ⟨h1, h2, h3⟩
      exact ⟨⟨h3 (b, w) (List.mem_cons_self ..), h1⟩, h2⟩

theorem SMap.wf_tail [DecidableEq α] {d : α} {e : Nat × α} {m : SMap α} (h : SMap.wf d (e :: m) = true) :
    SMap.wf d m = true := ((SMap.wf_cons d e.1 e.2 m).mp h).2.1

theorem SMap.above_of_lt {k : Nat} {m : SMap α} (h : ∀ e ∈ m, k < e.1) : SMap.above k m = m := by
  cases m with
  | nil => rfl
  | cons e m => simp [SMap.above, Nat.not_le.mpr (h e (List.mem_cons_self ..))]

theorem SMap.mem_above {k : Nat} {m : SMap α} {e : Nat × α} (h : e ∈ SMap.above k m) : e ∈ m :=
  (List.dropWhile_sublist _).subset h

theorem SMap.wf_put [DecidableEq α] {d : α} {k : Nat} {v : α} {m : SMap α} (h : SMap.wf d m = true)
    (hk : ∀ e ∈ m, k < e.1) : SMap.wf d (SMap.put d k v m) = true := by
  unfold SMap.put
  split
  · rw [SMap.above_of_lt hk]; exact h
  · rename_i hv; exact (SMap.wf_cons d k v m).mpr ⟨hv, h, hk⟩

theorem SMap.mem_put [DecidableEq α] {d : α} {k : Nat} {v : α} {m : SMap α} {e : Nat × α}
    (h : e ∈ SMap.put d k v m) : e.1 = k ∨ e ∈ m := by
  unfold SMap.put at h
  split at h
  · exact .inr (SMap.mem_above h)
  · rcases List.mem_cons.mp h with rfl | h
    · exact .inl rfl
    · exact .inr h

theorem SMap.mem_keep {p : Nat → α → Bool} {m : SMap α} {e : Nat × α} (h : e ∈ SMap.keep p m) : e ∈ m := by
  induction m with
  | nil => exact h
  | cons x m ih =>
    obtain ⟨a, w⟩ := x
    rw [SMap.keep] at h
    split at h
    · rcases List.mem_cons.mp h with h | h
      · exact h ▸ List.mem_cons_self ..
      · exact List.mem_cons_of_mem _ (ih h)
    · exact List.mem_cons_of_mem _ (ih (SMap.mem_above h))

theorem SMap.mem_set [DecidableEq α] {d : α} {m : SMap α} {k : Nat} {v : α} {e : Nat × α}
    (h : e ∈ SMap.set d m k v) : e.1 = k ∨ e ∈ m := by
  induction m with
  | nil => exact SMap.mem_put h
  | cons x m ih =>
    obtain ⟨a, w⟩ := x
    unfold SMap.set at h
    split at h
    · exact SMap.mem_put h
    · split at h
      · rcases SMap.mem_put h with h | h
        · exact .inl h
        · exact .inr (List.mem_cons_of_mem _ h)
      · rcases List.mem_cons.mp h with h | h
        · exact .inr (h ▸ List.mem_cons_self ..)
        · exact (ih h).imp id (List.mem_cons_of_mem _)

/-- Setting a key keeps the canonical form. -/
theorem SMap.wf_set [DecidableEq α] {d : α} {m : SMap α} (h : SMap.wf d m = true) (k : Nat) (v : α) :
    SMap.wf d (SMap.set d m k v) = true := by
  induction m with
  | nil => exact SMap.wf_put h (by simp)
  | cons e m ih =>
    obtain ⟨a, w⟩ := e
    obtain ⟨hw, hm, hk⟩ := (SMap.wf_cons d a w m).mp h
    unfold SMap.set
    split
    · rename_i hlt
      refine SMap.wf_put h (fun e he => ?_)
      rcases List.mem_cons.mp he with rfl | he
      · exact hlt
      · exact Nat.lt_trans hlt (hk e he)
    · split
      · rename_i h1 h2
        subst h2
        exact SMap.wf_put hm hk
      · rename_i h1 h2
        refine (SMap.wf_cons d a w _).mpr ⟨hw, ih hm, fun e he => ?_⟩
        rcases SMap.mem_set he with he | he
        · omega
        · exact hk e he

/-- Changing a key keeps the canonical form. -/
theorem SMap.wf_upd [DecidableEq α] {d : α} {m : SMap α} (h : SMap.wf d m = true) (k : Nat) (f : α → α) :
    SMap.wf d (SMap.upd d m k f) = true := SMap.wf_set h k _

/-- Keeping some of the entries keeps the canonical form. -/
theorem SMap.wf_keep [DecidableEq α] {d : α} {m : SMap α} (h : SMap.wf d m = true) (p : Nat → α → Bool) :
    SMap.wf d (SMap.keep p m) = true := by
  induction m with
  | nil => rfl
  | cons e m ih =>
    obtain ⟨a, w⟩ := e
    obtain ⟨hw, hm, hk⟩ := (SMap.wf_cons d a w m).mp h
    rw [SMap.keep]
    split
    · exact (SMap.wf_cons d a w _).mpr ⟨hw, ih hm, fun e he => hk e (SMap.mem_keep he)⟩
    · rw [SMap.above_of_lt (fun e he => hk e (SMap.mem_keep he))]
      exact ih hm

/-- Changing every listed value keeps the canonical form. -/
theorem SMap.wf_mapV [DecidableEq α] {d : α} {m : SMap α} (h : SMap.wf d m = true) (f : Nat → α → α) :
    SMap.wf d (SMap.mapV d f m) = true := by
  have mem : ∀ (m : SMap α) (e : Nat × α), e ∈ SMap.mapV d f m → ∃ x ∈ m, x.1 = e.1 := by
    intro m
    induction m with
    | nil => intro e he; cases he
    | cons x m ih =>
      intro e he
      rcases SMap.mem_put he with he | he
      · exact ⟨x, List.mem_cons_self .., he.symm⟩
      · obtain ⟨y, hy, hxy⟩ := ih e he
        exact ⟨y, List.mem_cons_of_mem _ hy, hxy⟩
  induction m with
  | nil => rfl
  | cons e m ih =>
    obtain ⟨a, w⟩ := e
    obtain ⟨_, hm, hk⟩ := (SMap.wf_cons d a w m).mp h
    refine SMap.wf_put (ih hm) (fun e he => ?_)
    obtain ⟨x, hx, hxe⟩ := mem m e he
    exact hxe ▸ hk x hx

/-! ### Byte memories -/

/-- A byte of a memory after one byte of it is written. -/
theorem Memory.read_write (d : Byte) (m : Memory) (a : Nat) (b : Byte) (j : Nat) :
    Memory.read d (Memory.write d m a b) j = if j = a then b else Memory.read d m j := SMap.get_set d m a b j

/-- A byte of a memory after bytes are written from address `a` on. -/
theorem Memory.read_writeL (d : Byte) (m : Memory) (a : Nat) (bs : List Byte) (j : Nat) :
    Memory.read d (Memory.writeL d m a bs) j =
      if a ≤ j ∧ j < a + bs.length then bs.getD (j - a) 0 else Memory.read d m j := by
  induction bs generalizing m a with
  | nil => rw [Memory.writeL, if_neg (by simp)]
  | cons b bs ih =>
    rw [Memory.writeL, ih, Memory.read_write]
    simp only [List.length_cons]
    by_cases h1 : j = a
    · subst h1
      rw [if_neg (by omega), if_pos rfl, if_pos (by omega)]
      simp
    · by_cases h2 : a + 1 ≤ j ∧ j < a + 1 + bs.length
      · rw [if_pos h2, if_pos (by omega)]
        obtain ⟨i, rfl⟩ : ∃ i, j = a + 1 + i := ⟨j - (a + 1), by omega⟩
        rw [show a + 1 + i - a = i + 1 by omega, show a + 1 + i - (a + 1) = i by omega]
        rfl
      · rw [if_neg h2, if_neg h1, if_neg (by omega)]

theorem Memory.readN_length (d : Byte) (m : Memory) (a n : Nat) : (Memory.readN d m a n).length = n := by
  induction n generalizing a with
  | zero => rfl
  | succ n ih => simp [Memory.readN, ih]

theorem Memory.readN_getD (d : Byte) (m : Memory) (a n i : Nat) (h : i < n) :
    (Memory.readN d m a n).getD i 0 = Memory.read d m (a + i) := by
  induction n generalizing a i with
  | zero => omega
  | succ n ih =>
    cases i with
    | zero => rfl
    | succ i =>
      have := ih (a + 1) i (by omega)
      rw [show a + 1 + i = a + (i + 1) by omega] at this
      exact this

/-- Bytes written from an address on read back from it. -/
theorem Memory.readN_writeL (d : Byte) (m : Memory) (a : Nat) (bs : List Byte) :
    Memory.readN d (Memory.writeL d m a bs) a bs.length = bs := by
  refine List.ext_getElem (Memory.readN_length ..) (fun i h1 h2 => ?_)
  have e := Memory.readN_getD d (Memory.writeL d m a bs) a bs.length i h2
  rw [Memory.read_writeL, if_pos (by omega), show a + i - a = i by omega] at e
  simpa [List.getD, h1, h2] using e

/-- Writing bytes keeps the canonical form. -/
theorem Memory.wf_writeL {d : Byte} {m : Memory} (h : Memory.wf d m = true) (a : Nat) (bs : List Byte) :
    Memory.wf d (Memory.writeL d m a bs) = true := by
  induction bs generalizing m a with
  | nil => exact h
  | cons b bs ih => exact ih (SMap.wf_set h a b) (a + 1)

/-- Clearing an extent keeps the canonical form. -/
theorem Memory.wf_clear {d : Byte} {m : Memory} (h : Memory.wf d m = true) (a n : Nat) :
    Memory.wf d (Memory.clear m a n) = true := SMap.wf_keep h _

end Sys2Proof.Machine
end

