-- ==== Sys2Proof/Laws/State.lean ====
section
/-!
SUPPORT. Laws/State.lean: one lemma per field per update of the state, so that no proof unfolds a record update.
-/
namespace Sys2Proof.Machine

/-! ### Updates of the device -/

@[simp] theorem Dev.updCore_cclk (d : Dev) (n : Nat) (f : Core → Core) : (d.updCore n f).cclk = d.cclk := rfl
@[simp] theorem Dev.updCore_fno (d : Dev) (n : Nat) (f : Core → Core) : (d.updCore n f).fno = d.fno := rfl
@[simp] theorem Dev.updCore_fuse (d : Dev) (n : Nat) (f : Core → Core) : (d.updCore n f).fuse = d.fuse := rfl
@[simp] theorem Dev.updCore_glb (d : Dev) (n : Nat) (f : Core → Core) : (d.updCore n f).glb = d.glb := rfl
@[simp] theorem Dev.updCore_kiln (d : Dev) (n : Nat) (f : Core → Core) : (d.updCore n f).kiln = d.kiln := rfl
@[simp] theorem Dev.updCore_mbx (d : Dev) (n : Nat) (f : Core → Core) : (d.updCore n f).mbx = d.mbx := rfl
@[simp] theorem Dev.updCore_ten (d : Dev) (n : Nat) (f : Core → Core) : (d.updCore n f).ten = d.ten := rfl
@[simp] theorem Dev.updCore_progs (d : Dev) (n : Nat) (f : Core → Core) : (d.updCore n f).progs = d.progs := rfl
@[simp] theorem Dev.updCore_stk (d : Dev) (n : Nat) (f : Core → Core) : (d.updCore n f).stk = d.stk := rfl
@[simp] theorem Dev.updCore_syn (d : Dev) (n : Nat) (f : Core → Core) : (d.updCore n f).syn = d.syn := rfl
@[simp] theorem Dev.updCore_blw (d : Dev) (n : Nat) (f : Core → Core) : (d.updCore n f).blw = d.blw := rfl
@[simp] theorem Dev.updCore_sle (d : Dev) (n : Nat) (f : Core → Core) : (d.updCore n f).sle = d.sle := rfl
@[simp] theorem Dev.updCore_mio (d : Dev) (n : Nat) (f : Core → Core) : (d.updCore n f).mio = d.mio := rfl
@[simp] theorem Dev.updCore_cams (d : Dev) (n : Nat) (f : Core → Core) : (d.updCore n f).cams = d.cams := rfl
@[simp] theorem Dev.updCore_eths (d : Dev) (n : Nat) (f : Core → Core) : (d.updCore n f).eths = d.eths := rfl
@[simp] theorem Dev.updCore_net (d : Dev) (n : Nat) (f : Core → Core) : (d.updCore n f).net = d.net := rfl
@[simp] theorem Dev.updCore_pcie (d : Dev) (n : Nat) (f : Core → Core) : (d.updCore n f).pcie = d.pcie := rfl
@[simp] theorem Dev.updCore_mem (d : Dev) (n : Nat) (f : Core → Core) : (d.updCore n f).mem = d.mem := rfl
@[simp] theorem Dev.updCore_err (d : Dev) (n : Nat) (f : Core → Core) : (d.updCore n f).err = d.err := rfl
@[simp] theorem Dev.updCore_dbg (d : Dev) (n : Nat) (f : Core → Core) : (d.updCore n f).dbg = d.dbg := rfl
@[simp] theorem Dev.updCore_pins (d : Dev) (n : Nat) (f : Core → Core) : (d.updCore n f).pins = d.pins := rfl
@[simp] theorem Dev.updCore_free (d : Dev) (n : Nat) (f : Core → Core) : (d.updCore n f).free = d.free := rfl
@[simp] theorem Dev.updCore_out (d : Dev) (n : Nat) (f : Core → Core) : (d.updCore n f).out = d.out := rfl

@[simp] theorem Dev.setJob_cclk (d : Dev) (k : Nat) (o : Option Job) : (d.setJob k o).cclk = d.cclk := rfl
@[simp] theorem Dev.setJob_fno (d : Dev) (k : Nat) (o : Option Job) : (d.setJob k o).fno = d.fno := rfl
@[simp] theorem Dev.setJob_fuse (d : Dev) (k : Nat) (o : Option Job) : (d.setJob k o).fuse = d.fuse := rfl
@[simp] theorem Dev.setJob_glb (d : Dev) (k : Nat) (o : Option Job) : (d.setJob k o).glb = d.glb := rfl
@[simp] theorem Dev.setJob_kiln (d : Dev) (k : Nat) (o : Option Job) : (d.setJob k o).kiln = d.kiln := rfl
@[simp] theorem Dev.setJob_mbx (d : Dev) (k : Nat) (o : Option Job) : (d.setJob k o).mbx = d.mbx := rfl
@[simp] theorem Dev.setJob_ten (d : Dev) (k : Nat) (o : Option Job) : (d.setJob k o).ten = d.ten := rfl
@[simp] theorem Dev.setJob_progs (d : Dev) (k : Nat) (o : Option Job) : (d.setJob k o).progs = d.progs := rfl
@[simp] theorem Dev.setJob_syn (d : Dev) (k : Nat) (o : Option Job) : (d.setJob k o).syn = d.syn := rfl
@[simp] theorem Dev.setJob_blw (d : Dev) (k : Nat) (o : Option Job) : (d.setJob k o).blw = d.blw := rfl
@[simp] theorem Dev.setJob_cores (d : Dev) (k : Nat) (o : Option Job) : (d.setJob k o).cores = d.cores := rfl
@[simp] theorem Dev.setJob_sle (d : Dev) (k : Nat) (o : Option Job) : (d.setJob k o).sle = d.sle := rfl
@[simp] theorem Dev.setJob_mio (d : Dev) (k : Nat) (o : Option Job) : (d.setJob k o).mio = d.mio := rfl
@[simp] theorem Dev.setJob_cams (d : Dev) (k : Nat) (o : Option Job) : (d.setJob k o).cams = d.cams := rfl
@[simp] theorem Dev.setJob_eths (d : Dev) (k : Nat) (o : Option Job) : (d.setJob k o).eths = d.eths := rfl
@[simp] theorem Dev.setJob_net (d : Dev) (k : Nat) (o : Option Job) : (d.setJob k o).net = d.net := rfl
@[simp] theorem Dev.setJob_pcie (d : Dev) (k : Nat) (o : Option Job) : (d.setJob k o).pcie = d.pcie := rfl
@[simp] theorem Dev.setJob_mem (d : Dev) (k : Nat) (o : Option Job) : (d.setJob k o).mem = d.mem := rfl
@[simp] theorem Dev.setJob_err (d : Dev) (k : Nat) (o : Option Job) : (d.setJob k o).err = d.err := rfl
@[simp] theorem Dev.setJob_dbg (d : Dev) (k : Nat) (o : Option Job) : (d.setJob k o).dbg = d.dbg := rfl
@[simp] theorem Dev.setJob_pins (d : Dev) (k : Nat) (o : Option Job) : (d.setJob k o).pins = d.pins := rfl
@[simp] theorem Dev.setJob_free (d : Dev) (k : Nat) (o : Option Job) : (d.setJob k o).free = d.free := rfl
@[simp] theorem Dev.setJob_out (d : Dev) (k : Nat) (o : Option Job) : (d.setJob k o).out = d.out := rfl

@[simp] theorem Dev.updJob_cclk (d : Dev) (k : Nat) (f : Job → Job) : (d.updJob k f).cclk = d.cclk := rfl
@[simp] theorem Dev.updJob_fno (d : Dev) (k : Nat) (f : Job → Job) : (d.updJob k f).fno = d.fno := rfl
@[simp] theorem Dev.updJob_fuse (d : Dev) (k : Nat) (f : Job → Job) : (d.updJob k f).fuse = d.fuse := rfl
@[simp] theorem Dev.updJob_glb (d : Dev) (k : Nat) (f : Job → Job) : (d.updJob k f).glb = d.glb := rfl
@[simp] theorem Dev.updJob_kiln (d : Dev) (k : Nat) (f : Job → Job) : (d.updJob k f).kiln = d.kiln := rfl
@[simp] theorem Dev.updJob_mbx (d : Dev) (k : Nat) (f : Job → Job) : (d.updJob k f).mbx = d.mbx := rfl
@[simp] theorem Dev.updJob_ten (d : Dev) (k : Nat) (f : Job → Job) : (d.updJob k f).ten = d.ten := rfl
@[simp] theorem Dev.updJob_progs (d : Dev) (k : Nat) (f : Job → Job) : (d.updJob k f).progs = d.progs := rfl
@[simp] theorem Dev.updJob_syn (d : Dev) (k : Nat) (f : Job → Job) : (d.updJob k f).syn = d.syn := rfl
@[simp] theorem Dev.updJob_blw (d : Dev) (k : Nat) (f : Job → Job) : (d.updJob k f).blw = d.blw := rfl
@[simp] theorem Dev.updJob_cores (d : Dev) (k : Nat) (f : Job → Job) : (d.updJob k f).cores = d.cores := rfl
@[simp] theorem Dev.updJob_sle (d : Dev) (k : Nat) (f : Job → Job) : (d.updJob k f).sle = d.sle := rfl
@[simp] theorem Dev.updJob_mio (d : Dev) (k : Nat) (f : Job → Job) : (d.updJob k f).mio = d.mio := rfl
@[simp] theorem Dev.updJob_cams (d : Dev) (k : Nat) (f : Job → Job) : (d.updJob k f).cams = d.cams := rfl
@[simp] theorem Dev.updJob_eths (d : Dev) (k : Nat) (f : Job → Job) : (d.updJob k f).eths = d.eths := rfl
@[simp] theorem Dev.updJob_net (d : Dev) (k : Nat) (f : Job → Job) : (d.updJob k f).net = d.net := rfl
@[simp] theorem Dev.updJob_pcie (d : Dev) (k : Nat) (f : Job → Job) : (d.updJob k f).pcie = d.pcie := rfl
@[simp] theorem Dev.updJob_mem (d : Dev) (k : Nat) (f : Job → Job) : (d.updJob k f).mem = d.mem := rfl
@[simp] theorem Dev.updJob_err (d : Dev) (k : Nat) (f : Job → Job) : (d.updJob k f).err = d.err := rfl
@[simp] theorem Dev.updJob_dbg (d : Dev) (k : Nat) (f : Job → Job) : (d.updJob k f).dbg = d.dbg := rfl
@[simp] theorem Dev.updJob_pins (d : Dev) (k : Nat) (f : Job → Job) : (d.updJob k f).pins = d.pins := rfl
@[simp] theorem Dev.updJob_free (d : Dev) (k : Nat) (f : Job → Job) : (d.updJob k f).free = d.free := rfl
@[simp] theorem Dev.updJob_out (d : Dev) (k : Nat) (f : Job → Job) : (d.updJob k f).out = d.out := rfl

@[simp] theorem Dev.setQueue_cclk (d : Dev) (u : Nat) (o : Option Queue) : (d.setQueue u o).cclk = d.cclk := rfl
@[simp] theorem Dev.setQueue_fno (d : Dev) (u : Nat) (o : Option Queue) : (d.setQueue u o).fno = d.fno := rfl
@[simp] theorem Dev.setQueue_fuse (d : Dev) (u : Nat) (o : Option Queue) : (d.setQueue u o).fuse = d.fuse := rfl
@[simp] theorem Dev.setQueue_glb (d : Dev) (u : Nat) (o : Option Queue) : (d.setQueue u o).glb = d.glb := rfl
@[simp] theorem Dev.setQueue_kiln (d : Dev) (u : Nat) (o : Option Queue) : (d.setQueue u o).kiln = d.kiln := rfl
@[simp] theorem Dev.setQueue_mbx (d : Dev) (u : Nat) (o : Option Queue) : (d.setQueue u o).mbx = d.mbx := rfl
@[simp] theorem Dev.setQueue_ten (d : Dev) (u : Nat) (o : Option Queue) : (d.setQueue u o).ten = d.ten := rfl
@[simp] theorem Dev.setQueue_progs (d : Dev) (u : Nat) (o : Option Queue) : (d.setQueue u o).progs = d.progs := rfl
@[simp] theorem Dev.setQueue_syn (d : Dev) (u : Nat) (o : Option Queue) : (d.setQueue u o).syn = d.syn := rfl
@[simp] theorem Dev.setQueue_blw (d : Dev) (u : Nat) (o : Option Queue) : (d.setQueue u o).blw = d.blw := rfl
@[simp] theorem Dev.setQueue_cores (d : Dev) (u : Nat) (o : Option Queue) : (d.setQueue u o).cores = d.cores := rfl
@[simp] theorem Dev.setQueue_sle (d : Dev) (u : Nat) (o : Option Queue) : (d.setQueue u o).sle = d.sle := rfl
@[simp] theorem Dev.setQueue_mio (d : Dev) (u : Nat) (o : Option Queue) : (d.setQueue u o).mio = d.mio := rfl
@[simp] theorem Dev.setQueue_cams (d : Dev) (u : Nat) (o : Option Queue) : (d.setQueue u o).cams = d.cams := rfl
@[simp] theorem Dev.setQueue_eths (d : Dev) (u : Nat) (o : Option Queue) : (d.setQueue u o).eths = d.eths := rfl
@[simp] theorem Dev.setQueue_net (d : Dev) (u : Nat) (o : Option Queue) : (d.setQueue u o).net = d.net := rfl
@[simp] theorem Dev.setQueue_pcie (d : Dev) (u : Nat) (o : Option Queue) : (d.setQueue u o).pcie = d.pcie := rfl
@[simp] theorem Dev.setQueue_mem (d : Dev) (u : Nat) (o : Option Queue) : (d.setQueue u o).mem = d.mem := rfl
@[simp] theorem Dev.setQueue_err (d : Dev) (u : Nat) (o : Option Queue) : (d.setQueue u o).err = d.err := rfl
@[simp] theorem Dev.setQueue_dbg (d : Dev) (u : Nat) (o : Option Queue) : (d.setQueue u o).dbg = d.dbg := rfl
@[simp] theorem Dev.setQueue_pins (d : Dev) (u : Nat) (o : Option Queue) : (d.setQueue u o).pins = d.pins := rfl
@[simp] theorem Dev.setQueue_free (d : Dev) (u : Nat) (o : Option Queue) : (d.setQueue u o).free = d.free := rfl
@[simp] theorem Dev.setQueue_out (d : Dev) (u : Nat) (o : Option Queue) : (d.setQueue u o).out = d.out := rfl

@[simp] theorem Dev.updQueue_cclk (d : Dev) (u : Nat) (f : Queue → Queue) : (d.updQueue u f).cclk = d.cclk := rfl
@[simp] theorem Dev.updQueue_fno (d : Dev) (u : Nat) (f : Queue → Queue) : (d.updQueue u f).fno = d.fno := rfl
@[simp] theorem Dev.updQueue_fuse (d : Dev) (u : Nat) (f : Queue → Queue) : (d.updQueue u f).fuse = d.fuse := rfl
@[simp] theorem Dev.updQueue_glb (d : Dev) (u : Nat) (f : Queue → Queue) : (d.updQueue u f).glb = d.glb := rfl
@[simp] theorem Dev.updQueue_kiln (d : Dev) (u : Nat) (f : Queue → Queue) : (d.updQueue u f).kiln = d.kiln := rfl
@[simp] theorem Dev.updQueue_mbx (d : Dev) (u : Nat) (f : Queue → Queue) : (d.updQueue u f).mbx = d.mbx := rfl
@[simp] theorem Dev.updQueue_ten (d : Dev) (u : Nat) (f : Queue → Queue) : (d.updQueue u f).ten = d.ten := rfl
@[simp] theorem Dev.updQueue_progs (d : Dev) (u : Nat) (f : Queue → Queue) : (d.updQueue u f).progs = d.progs := rfl
@[simp] theorem Dev.updQueue_syn (d : Dev) (u : Nat) (f : Queue → Queue) : (d.updQueue u f).syn = d.syn := rfl
@[simp] theorem Dev.updQueue_blw (d : Dev) (u : Nat) (f : Queue → Queue) : (d.updQueue u f).blw = d.blw := rfl
@[simp] theorem Dev.updQueue_cores (d : Dev) (u : Nat) (f : Queue → Queue) : (d.updQueue u f).cores = d.cores := rfl
@[simp] theorem Dev.updQueue_sle (d : Dev) (u : Nat) (f : Queue → Queue) : (d.updQueue u f).sle = d.sle := rfl
@[simp] theorem Dev.updQueue_mio (d : Dev) (u : Nat) (f : Queue → Queue) : (d.updQueue u f).mio = d.mio := rfl
@[simp] theorem Dev.updQueue_cams (d : Dev) (u : Nat) (f : Queue → Queue) : (d.updQueue u f).cams = d.cams := rfl
@[simp] theorem Dev.updQueue_eths (d : Dev) (u : Nat) (f : Queue → Queue) : (d.updQueue u f).eths = d.eths := rfl
@[simp] theorem Dev.updQueue_net (d : Dev) (u : Nat) (f : Queue → Queue) : (d.updQueue u f).net = d.net := rfl
@[simp] theorem Dev.updQueue_pcie (d : Dev) (u : Nat) (f : Queue → Queue) : (d.updQueue u f).pcie = d.pcie := rfl
@[simp] theorem Dev.updQueue_mem (d : Dev) (u : Nat) (f : Queue → Queue) : (d.updQueue u f).mem = d.mem := rfl
@[simp] theorem Dev.updQueue_err (d : Dev) (u : Nat) (f : Queue → Queue) : (d.updQueue u f).err = d.err := rfl
@[simp] theorem Dev.updQueue_dbg (d : Dev) (u : Nat) (f : Queue → Queue) : (d.updQueue u f).dbg = d.dbg := rfl
@[simp] theorem Dev.updQueue_pins (d : Dev) (u : Nat) (f : Queue → Queue) : (d.updQueue u f).pins = d.pins := rfl
@[simp] theorem Dev.updQueue_free (d : Dev) (u : Nat) (f : Queue → Queue) : (d.updQueue u f).free = d.free := rfl
@[simp] theorem Dev.updQueue_out (d : Dev) (u : Nat) (f : Queue → Queue) : (d.updQueue u f).out = d.out := rfl

@[simp] theorem Dev.updTenant_cclk (d : Dev) (t : Nat) (f : Tenant → Tenant) : (d.updTenant t f).cclk = d.cclk := rfl
@[simp] theorem Dev.updTenant_fno (d : Dev) (t : Nat) (f : Tenant → Tenant) : (d.updTenant t f).fno = d.fno := rfl
@[simp] theorem Dev.updTenant_fuse (d : Dev) (t : Nat) (f : Tenant → Tenant) : (d.updTenant t f).fuse = d.fuse := rfl
@[simp] theorem Dev.updTenant_glb (d : Dev) (t : Nat) (f : Tenant → Tenant) : (d.updTenant t f).glb = d.glb := rfl
@[simp] theorem Dev.updTenant_kiln (d : Dev) (t : Nat) (f : Tenant → Tenant) : (d.updTenant t f).kiln = d.kiln := rfl
@[simp] theorem Dev.updTenant_mbx (d : Dev) (t : Nat) (f : Tenant → Tenant) : (d.updTenant t f).mbx = d.mbx := rfl
@[simp] theorem Dev.updTenant_progs (d : Dev) (t : Nat) (f : Tenant → Tenant) : (d.updTenant t f).progs = d.progs := rfl
@[simp] theorem Dev.updTenant_stk (d : Dev) (t : Nat) (f : Tenant → Tenant) : (d.updTenant t f).stk = d.stk := rfl
@[simp] theorem Dev.updTenant_syn (d : Dev) (t : Nat) (f : Tenant → Tenant) : (d.updTenant t f).syn = d.syn := rfl
@[simp] theorem Dev.updTenant_blw (d : Dev) (t : Nat) (f : Tenant → Tenant) : (d.updTenant t f).blw = d.blw := rfl
@[simp] theorem Dev.updTenant_cores (d : Dev) (t : Nat) (f : Tenant → Tenant) : (d.updTenant t f).cores = d.cores := rfl
@[simp] theorem Dev.updTenant_sle (d : Dev) (t : Nat) (f : Tenant → Tenant) : (d.updTenant t f).sle = d.sle := rfl
@[simp] theorem Dev.updTenant_mio (d : Dev) (t : Nat) (f : Tenant → Tenant) : (d.updTenant t f).mio = d.mio := rfl
@[simp] theorem Dev.updTenant_cams (d : Dev) (t : Nat) (f : Tenant → Tenant) : (d.updTenant t f).cams = d.cams := rfl
@[simp] theorem Dev.updTenant_eths (d : Dev) (t : Nat) (f : Tenant → Tenant) : (d.updTenant t f).eths = d.eths := rfl
@[simp] theorem Dev.updTenant_net (d : Dev) (t : Nat) (f : Tenant → Tenant) : (d.updTenant t f).net = d.net := rfl
@[simp] theorem Dev.updTenant_pcie (d : Dev) (t : Nat) (f : Tenant → Tenant) : (d.updTenant t f).pcie = d.pcie := rfl
@[simp] theorem Dev.updTenant_mem (d : Dev) (t : Nat) (f : Tenant → Tenant) : (d.updTenant t f).mem = d.mem := rfl
@[simp] theorem Dev.updTenant_err (d : Dev) (t : Nat) (f : Tenant → Tenant) : (d.updTenant t f).err = d.err := rfl
@[simp] theorem Dev.updTenant_dbg (d : Dev) (t : Nat) (f : Tenant → Tenant) : (d.updTenant t f).dbg = d.dbg := rfl
@[simp] theorem Dev.updTenant_pins (d : Dev) (t : Nat) (f : Tenant → Tenant) : (d.updTenant t f).pins = d.pins := rfl
@[simp] theorem Dev.updTenant_free (d : Dev) (t : Nat) (f : Tenant → Tenant) : (d.updTenant t f).free = d.free := rfl
@[simp] theorem Dev.updTenant_out (d : Dev) (t : Nat) (f : Tenant → Tenant) : (d.updTenant t f).out = d.out := rfl

@[simp] theorem Dev.updMbox_cclk (d : Dev) (f : Nat) (g : Mbx → Mbx) : (d.updMbox f g).cclk = d.cclk := rfl
@[simp] theorem Dev.updMbox_fno (d : Dev) (f : Nat) (g : Mbx → Mbx) : (d.updMbox f g).fno = d.fno := rfl
@[simp] theorem Dev.updMbox_fuse (d : Dev) (f : Nat) (g : Mbx → Mbx) : (d.updMbox f g).fuse = d.fuse := rfl
@[simp] theorem Dev.updMbox_glb (d : Dev) (f : Nat) (g : Mbx → Mbx) : (d.updMbox f g).glb = d.glb := rfl
@[simp] theorem Dev.updMbox_kiln (d : Dev) (f : Nat) (g : Mbx → Mbx) : (d.updMbox f g).kiln = d.kiln := rfl
@[simp] theorem Dev.updMbox_ten (d : Dev) (f : Nat) (g : Mbx → Mbx) : (d.updMbox f g).ten = d.ten := rfl
@[simp] theorem Dev.updMbox_progs (d : Dev) (f : Nat) (g : Mbx → Mbx) : (d.updMbox f g).progs = d.progs := rfl
@[simp] theorem Dev.updMbox_stk (d : Dev) (f : Nat) (g : Mbx → Mbx) : (d.updMbox f g).stk = d.stk := rfl
@[simp] theorem Dev.updMbox_syn (d : Dev) (f : Nat) (g : Mbx → Mbx) : (d.updMbox f g).syn = d.syn := rfl
@[simp] theorem Dev.updMbox_blw (d : Dev) (f : Nat) (g : Mbx → Mbx) : (d.updMbox f g).blw = d.blw := rfl
@[simp] theorem Dev.updMbox_cores (d : Dev) (f : Nat) (g : Mbx → Mbx) : (d.updMbox f g).cores = d.cores := rfl
@[simp] theorem Dev.updMbox_sle (d : Dev) (f : Nat) (g : Mbx → Mbx) : (d.updMbox f g).sle = d.sle := rfl
@[simp] theorem Dev.updMbox_mio (d : Dev) (f : Nat) (g : Mbx → Mbx) : (d.updMbox f g).mio = d.mio := rfl
@[simp] theorem Dev.updMbox_cams (d : Dev) (f : Nat) (g : Mbx → Mbx) : (d.updMbox f g).cams = d.cams := rfl
@[simp] theorem Dev.updMbox_eths (d : Dev) (f : Nat) (g : Mbx → Mbx) : (d.updMbox f g).eths = d.eths := rfl
@[simp] theorem Dev.updMbox_net (d : Dev) (f : Nat) (g : Mbx → Mbx) : (d.updMbox f g).net = d.net := rfl
@[simp] theorem Dev.updMbox_pcie (d : Dev) (f : Nat) (g : Mbx → Mbx) : (d.updMbox f g).pcie = d.pcie := rfl
@[simp] theorem Dev.updMbox_mem (d : Dev) (f : Nat) (g : Mbx → Mbx) : (d.updMbox f g).mem = d.mem := rfl
@[simp] theorem Dev.updMbox_err (d : Dev) (f : Nat) (g : Mbx → Mbx) : (d.updMbox f g).err = d.err := rfl
@[simp] theorem Dev.updMbox_dbg (d : Dev) (f : Nat) (g : Mbx → Mbx) : (d.updMbox f g).dbg = d.dbg := rfl
@[simp] theorem Dev.updMbox_pins (d : Dev) (f : Nat) (g : Mbx → Mbx) : (d.updMbox f g).pins = d.pins := rfl
@[simp] theorem Dev.updMbox_free (d : Dev) (f : Nat) (g : Mbx → Mbx) : (d.updMbox f g).free = d.free := rfl
@[simp] theorem Dev.updMbox_out (d : Dev) (f : Nat) (g : Mbx → Mbx) : (d.updMbox f g).out = d.out := rfl

@[simp] theorem Dev.send_cclk (d : Dev) (m : OutMsg) : (d.send m).cclk = d.cclk := rfl
@[simp] theorem Dev.send_fno (d : Dev) (m : OutMsg) : (d.send m).fno = d.fno := rfl
@[simp] theorem Dev.send_fuse (d : Dev) (m : OutMsg) : (d.send m).fuse = d.fuse := rfl
@[simp] theorem Dev.send_glb (d : Dev) (m : OutMsg) : (d.send m).glb = d.glb := rfl
@[simp] theorem Dev.send_kiln (d : Dev) (m : OutMsg) : (d.send m).kiln = d.kiln := rfl
@[simp] theorem Dev.send_mbx (d : Dev) (m : OutMsg) : (d.send m).mbx = d.mbx := rfl
@[simp] theorem Dev.send_ten (d : Dev) (m : OutMsg) : (d.send m).ten = d.ten := rfl
@[simp] theorem Dev.send_progs (d : Dev) (m : OutMsg) : (d.send m).progs = d.progs := rfl
@[simp] theorem Dev.send_stk (d : Dev) (m : OutMsg) : (d.send m).stk = d.stk := rfl
@[simp] theorem Dev.send_syn (d : Dev) (m : OutMsg) : (d.send m).syn = d.syn := rfl
@[simp] theorem Dev.send_blw (d : Dev) (m : OutMsg) : (d.send m).blw = d.blw := rfl
@[simp] theorem Dev.send_cores (d : Dev) (m : OutMsg) : (d.send m).cores = d.cores := rfl
@[simp] theorem Dev.send_sle (d : Dev) (m : OutMsg) : (d.send m).sle = d.sle := rfl
@[simp] theorem Dev.send_mio (d : Dev) (m : OutMsg) : (d.send m).mio = d.mio := rfl
@[simp] theorem Dev.send_cams (d : Dev) (m : OutMsg) : (d.send m).cams = d.cams := rfl
@[simp] theorem Dev.send_eths (d : Dev) (m : OutMsg) : (d.send m).eths = d.eths := rfl
@[simp] theorem Dev.send_net (d : Dev) (m : OutMsg) : (d.send m).net = d.net := rfl
@[simp] theorem Dev.send_pcie (d : Dev) (m : OutMsg) : (d.send m).pcie = d.pcie := rfl
@[simp] theorem Dev.send_mem (d : Dev) (m : OutMsg) : (d.send m).mem = d.mem := rfl
@[simp] theorem Dev.send_err (d : Dev) (m : OutMsg) : (d.send m).err = d.err := rfl
@[simp] theorem Dev.send_dbg (d : Dev) (m : OutMsg) : (d.send m).dbg = d.dbg := rfl
@[simp] theorem Dev.send_pins (d : Dev) (m : OutMsg) : (d.send m).pins = d.pins := rfl
@[simp] theorem Dev.send_free (d : Dev) (m : OutMsg) : (d.send m).free = d.free := rfl

@[simp] theorem Dev.peakUp_cclk (d : Dev) : d.peakUp.cclk = d.cclk := rfl
@[simp] theorem Dev.peakUp_fno (d : Dev) : d.peakUp.fno = d.fno := rfl
@[simp] theorem Dev.peakUp_fuse (d : Dev) : d.peakUp.fuse = d.fuse := rfl
@[simp] theorem Dev.peakUp_glb (d : Dev) : d.peakUp.glb = d.glb := rfl
@[simp] theorem Dev.peakUp_kiln (d : Dev) : d.peakUp.kiln = d.kiln := rfl
@[simp] theorem Dev.peakUp_mbx (d : Dev) : d.peakUp.mbx = d.mbx := rfl
@[simp] theorem Dev.peakUp_ten (d : Dev) : d.peakUp.ten = d.ten := rfl
@[simp] theorem Dev.peakUp_progs (d : Dev) : d.peakUp.progs = d.progs := rfl
@[simp] theorem Dev.peakUp_stk (d : Dev) : d.peakUp.stk = d.stk := rfl
@[simp] theorem Dev.peakUp_syn (d : Dev) : d.peakUp.syn = d.syn := rfl
@[simp] theorem Dev.peakUp_cores (d : Dev) : d.peakUp.cores = d.cores := rfl
@[simp] theorem Dev.peakUp_sle (d : Dev) : d.peakUp.sle = d.sle := rfl
@[simp] theorem Dev.peakUp_mio (d : Dev) : d.peakUp.mio = d.mio := rfl
@[simp] theorem Dev.peakUp_cams (d : Dev) : d.peakUp.cams = d.cams := rfl
@[simp] theorem Dev.peakUp_eths (d : Dev) : d.peakUp.eths = d.eths := rfl
@[simp] theorem Dev.peakUp_net (d : Dev) : d.peakUp.net = d.net := rfl
@[simp] theorem Dev.peakUp_pcie (d : Dev) : d.peakUp.pcie = d.pcie := rfl
@[simp] theorem Dev.peakUp_mem (d : Dev) : d.peakUp.mem = d.mem := rfl
@[simp] theorem Dev.peakUp_err (d : Dev) : d.peakUp.err = d.err := rfl
@[simp] theorem Dev.peakUp_dbg (d : Dev) : d.peakUp.dbg = d.dbg := rfl
@[simp] theorem Dev.peakUp_pins (d : Dev) : d.peakUp.pins = d.pins := rfl
@[simp] theorem Dev.peakUp_free (d : Dev) : d.peakUp.free = d.free := rfl
@[simp] theorem Dev.peakUp_out (d : Dev) : d.peakUp.out = d.out := rfl

/-! ### Cores, jobs, queues, tenants and mailboxes after an update -/

theorem Dev.core_updCore (d : Dev) (n : Nat) (f : Core → Core) (m : Nat) :
    (d.updCore n f).core m = if m = n then f (d.core n) else d.core m := SMap.get_upd _ _ _ _ _
@[simp] theorem Dev.core_updCore_self (d : Dev) (n : Nat) (f : Core → Core) : (d.updCore n f).core n = f (d.core n) := by
  rw [Dev.core_updCore, if_pos rfl]
theorem Dev.core_updCore_ne (d : Dev) (n : Nat) (f : Core → Core) {m : Nat} (h : m ≠ n) :
    (d.updCore n f).core m = d.core m := by rw [Dev.core_updCore, if_neg h]
@[simp] theorem Dev.core_setJob (d : Dev) (k : Nat) (o : Option Job) (m : Nat) : (d.setJob k o).core m = d.core m := rfl
@[simp] theorem Dev.core_updJob (d : Dev) (k : Nat) (f : Job → Job) (m : Nat) : (d.updJob k f).core m = d.core m := rfl
@[simp] theorem Dev.core_setQueue (d : Dev) (k : Nat) (o : Option Queue) (m : Nat) : (d.setQueue k o).core m = d.core m := rfl
@[simp] theorem Dev.core_updQueue (d : Dev) (k : Nat) (f : Queue → Queue) (m : Nat) : (d.updQueue k f).core m = d.core m := rfl
@[simp] theorem Dev.core_peakUp (d : Dev) (m : Nat) : d.peakUp.core m = d.core m := rfl
@[simp] theorem Dev.core_send (d : Dev) (x : OutMsg) (m : Nat) : (d.send x).core m = d.core m := rfl
theorem Dev.job_setJob (d : Dev) (k : Nat) (o : Option Job) (m : Nat) :
    (d.setJob k o).job m = if m = k then o else d.job m := SMap.get_set _ _ _ _ _
theorem Dev.job_updJob (d : Dev) (k : Nat) (f : Job → Job) (m : Nat) :
    (d.updJob k f).job m = if m = k then (d.job k).map f else d.job m := SMap.get_set _ _ _ _ _
@[simp] theorem Dev.job_updJob_self (d : Dev) (k : Nat) (f : Job → Job) : (d.updJob k f).job k = (d.job k).map f := by
  rw [Dev.job_updJob, if_pos rfl]
@[simp] theorem Dev.job_setJob_self (d : Dev) (k : Nat) (o : Option Job) : (d.setJob k o).job k = o := by
  rw [Dev.job_setJob, if_pos rfl]
@[simp] theorem Dev.job_updCore (d : Dev) (n : Nat) (f : Core → Core) (k : Nat) : (d.updCore n f).job k = d.job k := rfl
@[simp] theorem Dev.queue_updCore (d : Dev) (n : Nat) (f : Core → Core) (k : Nat) : (d.updCore n f).queue k = d.queue k := rfl
@[simp] theorem Dev.queue_updJob (d : Dev) (n : Nat) (f : Job → Job) (k : Nat) : (d.updJob n f).queue k = d.queue k := rfl
@[simp] theorem Dev.queues_updJob (d : Dev) (n : Nat) (f : Job → Job) : (d.updJob n f).stk.queues = d.stk.queues := rfl
theorem Dev.queue_setQueue (d : Dev) (k : Nat) (o : Option Queue) (m : Nat) :
    (d.setQueue k o).queue m = if m = k then o else d.queue m := SMap.get_set _ _ _ _ _
@[simp] theorem Dev.queue_setQueue_self (d : Dev) (k : Nat) (o : Option Queue) : (d.setQueue k o).queue k = o := by
  rw [Dev.queue_setQueue, if_pos rfl]
@[simp] theorem Dev.queue_updQueue_self (d : Dev) (k : Nat) (f : Queue → Queue) : (d.updQueue k f).queue k = (d.queue k).map f := by
  rw [Dev.updQueue, Dev.queue_setQueue_self]
theorem Dev.tenant_updTenant (d : Dev) (t : Nat) (f : Tenant → Tenant) (m : Nat) :
    (d.updTenant t f).tenant m = if m = t then f (d.tenant t) else d.tenant m := SMap.get_upd _ _ _ _ _
theorem Dev.mbox_updMbox (d : Dev) (t : Nat) (f : Mbx → Mbx) (m : Nat) :
    (d.updMbox t f).mbox m = if m = t then f (d.mbox t) else d.mbox m := SMap.get_upd _ _ _ _ _
@[simp] theorem Dev.mbox_updMbox_self (d : Dev) (t : Nat) (f : Mbx → Mbx) : (d.updMbox t f).mbox t = f (d.mbox t) := by
  rw [Dev.mbox_updMbox, if_pos rfl]
@[simp] theorem Dev.prog_updCore (d : Dev) (n : Nat) (f : Core → Core) (k : Nat) : (d.updCore n f).prog k = d.prog k := rfl

/-- A change of several cores leaves what is not a core unchanged. -/
theorem Dev.updCores_eq (d : Dev) (ns : List Nat) (f : Core → Core) : d.updCores ns f = { d with cores := (d.updCores ns f).cores } := by
  induction ns generalizing d with
  | nil => rfl
  | cons n ns ih => rw [show d.updCores (n :: ns) f = (d.updCore n f).updCores ns f from rfl, ih]; rfl

@[simp] theorem Dev.updCores_cclk (d : Dev) (ns : List Nat) (f : Core → Core) : (d.updCores ns f).cclk = d.cclk := by
  rw [Dev.updCores_eq]
@[simp] theorem Dev.updCores_fno (d : Dev) (ns : List Nat) (f : Core → Core) : (d.updCores ns f).fno = d.fno := by
  rw [Dev.updCores_eq]
@[simp] theorem Dev.updCores_fuse (d : Dev) (ns : List Nat) (f : Core → Core) : (d.updCores ns f).fuse = d.fuse := by
  rw [Dev.updCores_eq]
@[simp] theorem Dev.updCores_glb (d : Dev) (ns : List Nat) (f : Core → Core) : (d.updCores ns f).glb = d.glb := by
  rw [Dev.updCores_eq]
@[simp] theorem Dev.updCores_kiln (d : Dev) (ns : List Nat) (f : Core → Core) : (d.updCores ns f).kiln = d.kiln := by
  rw [Dev.updCores_eq]
@[simp] theorem Dev.updCores_mbx (d : Dev) (ns : List Nat) (f : Core → Core) : (d.updCores ns f).mbx = d.mbx := by
  rw [Dev.updCores_eq]
@[simp] theorem Dev.updCores_ten (d : Dev) (ns : List Nat) (f : Core → Core) : (d.updCores ns f).ten = d.ten := by
  rw [Dev.updCores_eq]
@[simp] theorem Dev.updCores_progs (d : Dev) (ns : List Nat) (f : Core → Core) : (d.updCores ns f).progs = d.progs := by
  rw [Dev.updCores_eq]
@[simp] theorem Dev.updCores_stk (d : Dev) (ns : List Nat) (f : Core → Core) : (d.updCores ns f).stk = d.stk := by
  rw [Dev.updCores_eq]
@[simp] theorem Dev.updCores_syn (d : Dev) (ns : List Nat) (f : Core → Core) : (d.updCores ns f).syn = d.syn := by
  rw [Dev.updCores_eq]
@[simp] theorem Dev.updCores_blw (d : Dev) (ns : List Nat) (f : Core → Core) : (d.updCores ns f).blw = d.blw := by
  rw [Dev.updCores_eq]
@[simp] theorem Dev.updCores_sle (d : Dev) (ns : List Nat) (f : Core → Core) : (d.updCores ns f).sle = d.sle := by
  rw [Dev.updCores_eq]
@[simp] theorem Dev.updCores_mio (d : Dev) (ns : List Nat) (f : Core → Core) : (d.updCores ns f).mio = d.mio := by
  rw [Dev.updCores_eq]
@[simp] theorem Dev.updCores_cams (d : Dev) (ns : List Nat) (f : Core → Core) : (d.updCores ns f).cams = d.cams := by
  rw [Dev.updCores_eq]
@[simp] theorem Dev.updCores_eths (d : Dev) (ns : List Nat) (f : Core → Core) : (d.updCores ns f).eths = d.eths := by
  rw [Dev.updCores_eq]
@[simp] theorem Dev.updCores_net (d : Dev) (ns : List Nat) (f : Core → Core) : (d.updCores ns f).net = d.net := by
  rw [Dev.updCores_eq]
@[simp] theorem Dev.updCores_pcie (d : Dev) (ns : List Nat) (f : Core → Core) : (d.updCores ns f).pcie = d.pcie := by
  rw [Dev.updCores_eq]
@[simp] theorem Dev.updCores_mem (d : Dev) (ns : List Nat) (f : Core → Core) : (d.updCores ns f).mem = d.mem := by
  rw [Dev.updCores_eq]
@[simp] theorem Dev.updCores_err (d : Dev) (ns : List Nat) (f : Core → Core) : (d.updCores ns f).err = d.err := by
  rw [Dev.updCores_eq]
@[simp] theorem Dev.updCores_dbg (d : Dev) (ns : List Nat) (f : Core → Core) : (d.updCores ns f).dbg = d.dbg := by
  rw [Dev.updCores_eq]
@[simp] theorem Dev.updCores_pins (d : Dev) (ns : List Nat) (f : Core → Core) : (d.updCores ns f).pins = d.pins := by
  rw [Dev.updCores_eq]
@[simp] theorem Dev.updCores_free (d : Dev) (ns : List Nat) (f : Core → Core) : (d.updCores ns f).free = d.free := by
  rw [Dev.updCores_eq]
@[simp] theorem Dev.updCores_out (d : Dev) (ns : List Nat) (f : Core → Core) : (d.updCores ns f).out = d.out := by
  rw [Dev.updCores_eq]

/-! ### Updates of a core -/

@[simp] theorem Core.setPc_st (c : Core) (a : W64) : (c.setPc a).st = c.st := rfl
@[simp] theorem Core.setPc_ecc (c : Core) (a : W64) : (c.setPc a).ecc = c.ecc := rfl
@[simp] theorem Core.setPc_ported (c : Core) (a : W64) : (c.setPc a).ported = c.ported := rfl
@[simp] theorem Core.setPc_inb (c : Core) (a : W64) : (c.setPc a).inb = c.inb := rfl
@[simp] theorem Core.setPc_prior (c : Core) (a : W64) : (c.setPc a).prior = c.prior := rfl
@[simp] theorem Core.setPc_alloc (c : Core) (a : W64) : (c.setPc a).alloc = c.alloc := rfl
@[simp] theorem Core.setPc_fencing (c : Core) (a : W64) : (c.setPc a).fencing = c.fencing := rfl
@[simp] theorem Core.setPc_cause (c : Core) (a : W64) : (c.setPc a).cause = c.cause := rfl
@[simp] theorem Core.setPc_persist (c : Core) (a : W64) : (c.setPc a).persist = c.persist := rfl
@[simp] theorem Core.setPc_testOk (c : Core) (a : W64) : (c.setPc a).testOk = c.testOk := rfl
@[simp] theorem Core.setPc_job (c : Core) (a : W64) : (c.setPc a).job = c.job := rfl
@[simp] theorem Core.setPc_idx (c : Core) (a : W64) : (c.setPc a).idx = c.idx := rfl
@[simp] theorem Core.setPc_run (c : Core) (a : W64) : (c.setPc a).run = c.run := rfl
@[simp] theorem Core.setPc_rows (c : Core) (a : W64) : (c.setPc a).rows = c.rows := rfl
@[simp] theorem Core.setPc_spec (c : Core) (a : W64) : (c.setPc a).spec = c.spec := rfl
@[simp] theorem Core.setPc_tok (c : Core) (a : W64) : (c.setPc a).tok = c.tok := rfl
@[simp] theorem Core.setPc_haz (c : Core) (a : W64) : (c.setPc a).haz = c.haz := rfl
@[simp] theorem Core.setPc_dbg (c : Core) (a : W64) : (c.setPc a).dbg = c.dbg := rfl
@[simp] theorem Core.setPc_ops (c : Core) (a : W64) : (c.setPc a).ops = c.ops := rfl
@[simp] theorem Core.setPc_nextSeq (c : Core) (a : W64) : (c.setPc a).nextSeq = c.nextSeq := rfl
@[simp] theorem Core.setPc_wait (c : Core) (a : W64) : (c.setPc a).wait = c.wait := rfl
@[simp] theorem Core.setPc_dmaq (c : Core) (a : W64) : (c.setPc a).dmaq = c.dmaq := rfl
@[simp] theorem Core.setPc_rq (c : Core) (a : W64) : (c.setPc a).rq = c.rq := rfl
@[simp] theorem Core.setPc_sp (c : Core) (a : W64) : (c.setPc a).sp = c.sp := rfl
@[simp] theorem Core.setPc_estore (c : Core) (a : W64) : (c.setPc a).estore = c.estore := rfl
@[simp] theorem Core.setPc_ember (c : Core) (a : W64) : (c.setPc a).ember = c.ember := rfl
@[simp] theorem Core.setPc_gv (c : Core) (a : W64) : (c.setPc a).gv = c.gv := rfl
@[simp] theorem Core.setPc_gd (c : Core) (a : W64) : (c.setPc a).gd = c.gd := rfl
@[simp] theorem Core.setPc_gdNext (c : Core) (a : W64) : (c.setPc a).gdNext = c.gdNext := rfl
@[simp] theorem Core.setPc_banks (c : Core) (a : W64) : (c.setPc a).banks = c.banks := rfl
@[simp] theorem Core.setPc_remaps (c : Core) (a : W64) : (c.setPc a).remaps = c.remaps := rfl
@[simp] theorem Core.setPc_spares (c : Core) (a : W64) : (c.setPc a).spares = c.spares := rfl
@[simp] theorem Core.setPc_evt (c : Core) (a : W64) : (c.setPc a).evt = c.evt := rfl
@[simp] theorem Core.setPc_fault (c : Core) (a : W64) : (c.setPc a).fault = c.fault := rfl
@[simp] theorem Core.setPc_sperr (c : Core) (a : W64) : (c.setPc a).sperr = c.sperr := rfl
@[simp] theorem Core.setPc_tag (c : Core) (a : W64) : (c.setPc a).tag = c.tag := rfl
@[simp] theorem Core.setPc_held (c : Core) (a : W64) : (c.setPc a).held = c.held := rfl
@[simp] theorem Core.setPc_dmaIss (c : Core) (a : W64) : (c.setPc a).dmaIss = c.dmaIss := rfl
@[simp] theorem Core.setPc_dmaDone (c : Core) (a : W64) : (c.setPc a).dmaDone = c.dmaDone := rfl
@[simp] theorem Core.setPc_dmaLastWr (c : Core) (a : W64) : (c.setPc a).dmaLastWr = c.dmaLastWr := rfl
@[simp] theorem Core.setPc_remIss (c : Core) (a : W64) : (c.setPc a).remIss = c.remIss := rfl
@[simp] theorem Core.setPc_remDone (c : Core) (a : W64) : (c.setPc a).remDone = c.remDone := rfl

@[simp] theorem Core.setX_st (c : Core) (i : Nat) (w : W64) : (c.setX i w).st = c.st := by unfold Core.setX; split <;> rfl
@[simp] theorem Core.setX_ecc (c : Core) (i : Nat) (w : W64) : (c.setX i w).ecc = c.ecc := by unfold Core.setX; split <;> rfl
@[simp] theorem Core.setX_ported (c : Core) (i : Nat) (w : W64) : (c.setX i w).ported = c.ported := by unfold Core.setX; split <;> rfl
@[simp] theorem Core.setX_inb (c : Core) (i : Nat) (w : W64) : (c.setX i w).inb = c.inb := by unfold Core.setX; split <;> rfl
@[simp] theorem Core.setX_prior (c : Core) (i : Nat) (w : W64) : (c.setX i w).prior = c.prior := by unfold Core.setX; split <;> rfl
@[simp] theorem Core.setX_alloc (c : Core) (i : Nat) (w : W64) : (c.setX i w).alloc = c.alloc := by unfold Core.setX; split <;> rfl
@[simp] theorem Core.setX_fencing (c : Core) (i : Nat) (w : W64) : (c.setX i w).fencing = c.fencing := by unfold Core.setX; split <;> rfl
@[simp] theorem Core.setX_cause (c : Core) (i : Nat) (w : W64) : (c.setX i w).cause = c.cause := by unfold Core.setX; split <;> rfl
@[simp] theorem Core.setX_persist (c : Core) (i : Nat) (w : W64) : (c.setX i w).persist = c.persist := by unfold Core.setX; split <;> rfl
@[simp] theorem Core.setX_testOk (c : Core) (i : Nat) (w : W64) : (c.setX i w).testOk = c.testOk := by unfold Core.setX; split <;> rfl
@[simp] theorem Core.setX_job (c : Core) (i : Nat) (w : W64) : (c.setX i w).job = c.job := by unfold Core.setX; split <;> rfl
@[simp] theorem Core.setX_idx (c : Core) (i : Nat) (w : W64) : (c.setX i w).idx = c.idx := by unfold Core.setX; split <;> rfl
@[simp] theorem Core.setX_run (c : Core) (i : Nat) (w : W64) : (c.setX i w).run = c.run := by unfold Core.setX; split <;> rfl
@[simp] theorem Core.setX_rows (c : Core) (i : Nat) (w : W64) : (c.setX i w).rows = c.rows := by unfold Core.setX; split <;> rfl
@[simp] theorem Core.setX_spec (c : Core) (i : Nat) (w : W64) : (c.setX i w).spec = c.spec := by unfold Core.setX; split <;> rfl
@[simp] theorem Core.setX_tok (c : Core) (i : Nat) (w : W64) : (c.setX i w).tok = c.tok := by unfold Core.setX; split <;> rfl
@[simp] theorem Core.setX_haz (c : Core) (i : Nat) (w : W64) : (c.setX i w).haz = c.haz := by unfold Core.setX; split <;> rfl
@[simp] theorem Core.setX_dbg (c : Core) (i : Nat) (w : W64) : (c.setX i w).dbg = c.dbg := by unfold Core.setX; split <;> rfl
@[simp] theorem Core.setX_ops (c : Core) (i : Nat) (w : W64) : (c.setX i w).ops = c.ops := by unfold Core.setX; split <;> rfl
@[simp] theorem Core.setX_nextSeq (c : Core) (i : Nat) (w : W64) : (c.setX i w).nextSeq = c.nextSeq := by unfold Core.setX; split <;> rfl
@[simp] theorem Core.setX_wait (c : Core) (i : Nat) (w : W64) : (c.setX i w).wait = c.wait := by unfold Core.setX; split <;> rfl
@[simp] theorem Core.setX_dmaq (c : Core) (i : Nat) (w : W64) : (c.setX i w).dmaq = c.dmaq := by unfold Core.setX; split <;> rfl
@[simp] theorem Core.setX_rq (c : Core) (i : Nat) (w : W64) : (c.setX i w).rq = c.rq := by unfold Core.setX; split <;> rfl
@[simp] theorem Core.setX_sp (c : Core) (i : Nat) (w : W64) : (c.setX i w).sp = c.sp := by unfold Core.setX; split <;> rfl
@[simp] theorem Core.setX_estore (c : Core) (i : Nat) (w : W64) : (c.setX i w).estore = c.estore := by unfold Core.setX; split <;> rfl
@[simp] theorem Core.setX_ember (c : Core) (i : Nat) (w : W64) : (c.setX i w).ember = c.ember := by unfold Core.setX; split <;> rfl
@[simp] theorem Core.setX_gv (c : Core) (i : Nat) (w : W64) : (c.setX i w).gv = c.gv := by unfold Core.setX; split <;> rfl
@[simp] theorem Core.setX_gd (c : Core) (i : Nat) (w : W64) : (c.setX i w).gd = c.gd := by unfold Core.setX; split <;> rfl
@[simp] theorem Core.setX_gdNext (c : Core) (i : Nat) (w : W64) : (c.setX i w).gdNext = c.gdNext := by unfold Core.setX; split <;> rfl
@[simp] theorem Core.setX_banks (c : Core) (i : Nat) (w : W64) : (c.setX i w).banks = c.banks := by unfold Core.setX; split <;> rfl
@[simp] theorem Core.setX_remaps (c : Core) (i : Nat) (w : W64) : (c.setX i w).remaps = c.remaps := by unfold Core.setX; split <;> rfl
@[simp] theorem Core.setX_spares (c : Core) (i : Nat) (w : W64) : (c.setX i w).spares = c.spares := by unfold Core.setX; split <;> rfl
@[simp] theorem Core.setX_evt (c : Core) (i : Nat) (w : W64) : (c.setX i w).evt = c.evt := by unfold Core.setX; split <;> rfl
@[simp] theorem Core.setX_fault (c : Core) (i : Nat) (w : W64) : (c.setX i w).fault = c.fault := by unfold Core.setX; split <;> rfl
@[simp] theorem Core.setX_sperr (c : Core) (i : Nat) (w : W64) : (c.setX i w).sperr = c.sperr := by unfold Core.setX; split <;> rfl
@[simp] theorem Core.setX_tag (c : Core) (i : Nat) (w : W64) : (c.setX i w).tag = c.tag := by unfold Core.setX; split <;> rfl
@[simp] theorem Core.setX_held (c : Core) (i : Nat) (w : W64) : (c.setX i w).held = c.held := by unfold Core.setX; split <;> rfl
@[simp] theorem Core.setX_dmaIss (c : Core) (i : Nat) (w : W64) : (c.setX i w).dmaIss = c.dmaIss := by unfold Core.setX; split <;> rfl
@[simp] theorem Core.setX_dmaDone (c : Core) (i : Nat) (w : W64) : (c.setX i w).dmaDone = c.dmaDone := by unfold Core.setX; split <;> rfl
@[simp] theorem Core.setX_dmaLastWr (c : Core) (i : Nat) (w : W64) : (c.setX i w).dmaLastWr = c.dmaLastWr := by unfold Core.setX; split <;> rfl
@[simp] theorem Core.setX_remIss (c : Core) (i : Nat) (w : W64) : (c.setX i w).remIss = c.remIss := by unfold Core.setX; split <;> rfl
@[simp] theorem Core.setX_remDone (c : Core) (i : Nat) (w : W64) : (c.setX i w).remDone = c.remDone := by unfold Core.setX; split <;> rfl

@[simp] theorem Core.setF_st (c : Core) (i : Nat) (w : W32) : (c.setF i w).st = c.st := rfl
@[simp] theorem Core.setF_ecc (c : Core) (i : Nat) (w : W32) : (c.setF i w).ecc = c.ecc := rfl
@[simp] theorem Core.setF_ported (c : Core) (i : Nat) (w : W32) : (c.setF i w).ported = c.ported := rfl
@[simp] theorem Core.setF_inb (c : Core) (i : Nat) (w : W32) : (c.setF i w).inb = c.inb := rfl
@[simp] theorem Core.setF_prior (c : Core) (i : Nat) (w : W32) : (c.setF i w).prior = c.prior := rfl
@[simp] theorem Core.setF_alloc (c : Core) (i : Nat) (w : W32) : (c.setF i w).alloc = c.alloc := rfl
@[simp] theorem Core.setF_fencing (c : Core) (i : Nat) (w : W32) : (c.setF i w).fencing = c.fencing := rfl
@[simp] theorem Core.setF_cause (c : Core) (i : Nat) (w : W32) : (c.setF i w).cause = c.cause := rfl
@[simp] theorem Core.setF_persist (c : Core) (i : Nat) (w : W32) : (c.setF i w).persist = c.persist := rfl
@[simp] theorem Core.setF_testOk (c : Core) (i : Nat) (w : W32) : (c.setF i w).testOk = c.testOk := rfl
@[simp] theorem Core.setF_job (c : Core) (i : Nat) (w : W32) : (c.setF i w).job = c.job := rfl
@[simp] theorem Core.setF_idx (c : Core) (i : Nat) (w : W32) : (c.setF i w).idx = c.idx := rfl
@[simp] theorem Core.setF_run (c : Core) (i : Nat) (w : W32) : (c.setF i w).run = c.run := rfl
@[simp] theorem Core.setF_rows (c : Core) (i : Nat) (w : W32) : (c.setF i w).rows = c.rows := rfl
@[simp] theorem Core.setF_spec (c : Core) (i : Nat) (w : W32) : (c.setF i w).spec = c.spec := rfl
@[simp] theorem Core.setF_tok (c : Core) (i : Nat) (w : W32) : (c.setF i w).tok = c.tok := rfl
@[simp] theorem Core.setF_haz (c : Core) (i : Nat) (w : W32) : (c.setF i w).haz = c.haz := rfl
@[simp] theorem Core.setF_dbg (c : Core) (i : Nat) (w : W32) : (c.setF i w).dbg = c.dbg := rfl
@[simp] theorem Core.setF_ops (c : Core) (i : Nat) (w : W32) : (c.setF i w).ops = c.ops := rfl
@[simp] theorem Core.setF_nextSeq (c : Core) (i : Nat) (w : W32) : (c.setF i w).nextSeq = c.nextSeq := rfl
@[simp] theorem Core.setF_wait (c : Core) (i : Nat) (w : W32) : (c.setF i w).wait = c.wait := rfl
@[simp] theorem Core.setF_dmaq (c : Core) (i : Nat) (w : W32) : (c.setF i w).dmaq = c.dmaq := rfl
@[simp] theorem Core.setF_rq (c : Core) (i : Nat) (w : W32) : (c.setF i w).rq = c.rq := rfl
@[simp] theorem Core.setF_sp (c : Core) (i : Nat) (w : W32) : (c.setF i w).sp = c.sp := rfl
@[simp] theorem Core.setF_estore (c : Core) (i : Nat) (w : W32) : (c.setF i w).estore = c.estore := rfl
@[simp] theorem Core.setF_ember (c : Core) (i : Nat) (w : W32) : (c.setF i w).ember = c.ember := rfl
@[simp] theorem Core.setF_gv (c : Core) (i : Nat) (w : W32) : (c.setF i w).gv = c.gv := rfl
@[simp] theorem Core.setF_gd (c : Core) (i : Nat) (w : W32) : (c.setF i w).gd = c.gd := rfl
@[simp] theorem Core.setF_gdNext (c : Core) (i : Nat) (w : W32) : (c.setF i w).gdNext = c.gdNext := rfl
@[simp] theorem Core.setF_banks (c : Core) (i : Nat) (w : W32) : (c.setF i w).banks = c.banks := rfl
@[simp] theorem Core.setF_remaps (c : Core) (i : Nat) (w : W32) : (c.setF i w).remaps = c.remaps := rfl
@[simp] theorem Core.setF_spares (c : Core) (i : Nat) (w : W32) : (c.setF i w).spares = c.spares := rfl
@[simp] theorem Core.setF_evt (c : Core) (i : Nat) (w : W32) : (c.setF i w).evt = c.evt := rfl
@[simp] theorem Core.setF_fault (c : Core) (i : Nat) (w : W32) : (c.setF i w).fault = c.fault := rfl
@[simp] theorem Core.setF_sperr (c : Core) (i : Nat) (w : W32) : (c.setF i w).sperr = c.sperr := rfl
@[simp] theorem Core.setF_tag (c : Core) (i : Nat) (w : W32) : (c.setF i w).tag = c.tag := rfl
@[simp] theorem Core.setF_held (c : Core) (i : Nat) (w : W32) : (c.setF i w).held = c.held := rfl
@[simp] theorem Core.setF_dmaIss (c : Core) (i : Nat) (w : W32) : (c.setF i w).dmaIss = c.dmaIss := rfl
@[simp] theorem Core.setF_dmaDone (c : Core) (i : Nat) (w : W32) : (c.setF i w).dmaDone = c.dmaDone := rfl
@[simp] theorem Core.setF_dmaLastWr (c : Core) (i : Nat) (w : W32) : (c.setF i w).dmaLastWr = c.dmaLastWr := rfl
@[simp] theorem Core.setF_remIss (c : Core) (i : Nat) (w : W32) : (c.setF i w).remIss = c.remIss := rfl
@[simp] theorem Core.setF_remDone (c : Core) (i : Nat) (w : W32) : (c.setF i w).remDone = c.remDone := rfl

@[simp] theorem Core.setP_st (c : Core) (i : Nat) (b : Bool) : (c.setP i b).st = c.st := by unfold Core.setP; split <;> rfl
@[simp] theorem Core.setP_ecc (c : Core) (i : Nat) (b : Bool) : (c.setP i b).ecc = c.ecc := by unfold Core.setP; split <;> rfl
@[simp] theorem Core.setP_ported (c : Core) (i : Nat) (b : Bool) : (c.setP i b).ported = c.ported := by unfold Core.setP; split <;> rfl
@[simp] theorem Core.setP_inb (c : Core) (i : Nat) (b : Bool) : (c.setP i b).inb = c.inb := by unfold Core.setP; split <;> rfl
@[simp] theorem Core.setP_prior (c : Core) (i : Nat) (b : Bool) : (c.setP i b).prior = c.prior := by unfold Core.setP; split <;> rfl
@[simp] theorem Core.setP_alloc (c : Core) (i : Nat) (b : Bool) : (c.setP i b).alloc = c.alloc := by unfold Core.setP; split <;> rfl
@[simp] theorem Core.setP_fencing (c : Core) (i : Nat) (b : Bool) : (c.setP i b).fencing = c.fencing := by unfold Core.setP; split <;> rfl
@[simp] theorem Core.setP_cause (c : Core) (i : Nat) (b : Bool) : (c.setP i b).cause = c.cause := by unfold Core.setP; split <;> rfl
@[simp] theorem Core.setP_persist (c : Core) (i : Nat) (b : Bool) : (c.setP i b).persist = c.persist := by unfold Core.setP; split <;> rfl
@[simp] theorem Core.setP_testOk (c : Core) (i : Nat) (b : Bool) : (c.setP i b).testOk = c.testOk := by unfold Core.setP; split <;> rfl
@[simp] theorem Core.setP_job (c : Core) (i : Nat) (b : Bool) : (c.setP i b).job = c.job := by unfold Core.setP; split <;> rfl
@[simp] theorem Core.setP_idx (c : Core) (i : Nat) (b : Bool) : (c.setP i b).idx = c.idx := by unfold Core.setP; split <;> rfl
@[simp] theorem Core.setP_run (c : Core) (i : Nat) (b : Bool) : (c.setP i b).run = c.run := by unfold Core.setP; split <;> rfl
@[simp] theorem Core.setP_rows (c : Core) (i : Nat) (b : Bool) : (c.setP i b).rows = c.rows := by unfold Core.setP; split <;> rfl
@[simp] theorem Core.setP_spec (c : Core) (i : Nat) (b : Bool) : (c.setP i b).spec = c.spec := by unfold Core.setP; split <;> rfl
@[simp] theorem Core.setP_tok (c : Core) (i : Nat) (b : Bool) : (c.setP i b).tok = c.tok := by unfold Core.setP; split <;> rfl
@[simp] theorem Core.setP_haz (c : Core) (i : Nat) (b : Bool) : (c.setP i b).haz = c.haz := by unfold Core.setP; split <;> rfl
@[simp] theorem Core.setP_dbg (c : Core) (i : Nat) (b : Bool) : (c.setP i b).dbg = c.dbg := by unfold Core.setP; split <;> rfl
@[simp] theorem Core.setP_ops (c : Core) (i : Nat) (b : Bool) : (c.setP i b).ops = c.ops := by unfold Core.setP; split <;> rfl
@[simp] theorem Core.setP_nextSeq (c : Core) (i : Nat) (b : Bool) : (c.setP i b).nextSeq = c.nextSeq := by unfold Core.setP; split <;> rfl
@[simp] theorem Core.setP_wait (c : Core) (i : Nat) (b : Bool) : (c.setP i b).wait = c.wait := by unfold Core.setP; split <;> rfl
@[simp] theorem Core.setP_dmaq (c : Core) (i : Nat) (b : Bool) : (c.setP i b).dmaq = c.dmaq := by unfold Core.setP; split <;> rfl
@[simp] theorem Core.setP_rq (c : Core) (i : Nat) (b : Bool) : (c.setP i b).rq = c.rq := by unfold Core.setP; split <;> rfl
@[simp] theorem Core.setP_sp (c : Core) (i : Nat) (b : Bool) : (c.setP i b).sp = c.sp := by unfold Core.setP; split <;> rfl
@[simp] theorem Core.setP_estore (c : Core) (i : Nat) (b : Bool) : (c.setP i b).estore = c.estore := by unfold Core.setP; split <;> rfl
@[simp] theorem Core.setP_ember (c : Core) (i : Nat) (b : Bool) : (c.setP i b).ember = c.ember := by unfold Core.setP; split <;> rfl
@[simp] theorem Core.setP_gv (c : Core) (i : Nat) (b : Bool) : (c.setP i b).gv = c.gv := by unfold Core.setP; split <;> rfl
@[simp] theorem Core.setP_gd (c : Core) (i : Nat) (b : Bool) : (c.setP i b).gd = c.gd := by unfold Core.setP; split <;> rfl
@[simp] theorem Core.setP_gdNext (c : Core) (i : Nat) (b : Bool) : (c.setP i b).gdNext = c.gdNext := by unfold Core.setP; split <;> rfl
@[simp] theorem Core.setP_banks (c : Core) (i : Nat) (b : Bool) : (c.setP i b).banks = c.banks := by unfold Core.setP; split <;> rfl
@[simp] theorem Core.setP_remaps (c : Core) (i : Nat) (b : Bool) : (c.setP i b).remaps = c.remaps := by unfold Core.setP; split <;> rfl
@[simp] theorem Core.setP_spares (c : Core) (i : Nat) (b : Bool) : (c.setP i b).spares = c.spares := by unfold Core.setP; split <;> rfl
@[simp] theorem Core.setP_evt (c : Core) (i : Nat) (b : Bool) : (c.setP i b).evt = c.evt := by unfold Core.setP; split <;> rfl
@[simp] theorem Core.setP_fault (c : Core) (i : Nat) (b : Bool) : (c.setP i b).fault = c.fault := by unfold Core.setP; split <;> rfl
@[simp] theorem Core.setP_sperr (c : Core) (i : Nat) (b : Bool) : (c.setP i b).sperr = c.sperr := by unfold Core.setP; split <;> rfl
@[simp] theorem Core.setP_tag (c : Core) (i : Nat) (b : Bool) : (c.setP i b).tag = c.tag := by unfold Core.setP; split <;> rfl
@[simp] theorem Core.setP_held (c : Core) (i : Nat) (b : Bool) : (c.setP i b).held = c.held := by unfold Core.setP; split <;> rfl
@[simp] theorem Core.setP_dmaIss (c : Core) (i : Nat) (b : Bool) : (c.setP i b).dmaIss = c.dmaIss := by unfold Core.setP; split <;> rfl
@[simp] theorem Core.setP_dmaDone (c : Core) (i : Nat) (b : Bool) : (c.setP i b).dmaDone = c.dmaDone := by unfold Core.setP; split <;> rfl
@[simp] theorem Core.setP_dmaLastWr (c : Core) (i : Nat) (b : Bool) : (c.setP i b).dmaLastWr = c.dmaLastWr := by unfold Core.setP; split <;> rfl
@[simp] theorem Core.setP_remIss (c : Core) (i : Nat) (b : Bool) : (c.setP i b).remIss = c.remIss := by unfold Core.setP; split <;> rfl
@[simp] theorem Core.setP_remDone (c : Core) (i : Nat) (b : Bool) : (c.setP i b).remDone = c.remDone := by unfold Core.setP; split <;> rfl

@[simp] theorem Core.setV_st (c : Core) (i : Nat) (ws : List W32) : (c.setV i ws).st = c.st := rfl
@[simp] theorem Core.setV_ecc (c : Core) (i : Nat) (ws : List W32) : (c.setV i ws).ecc = c.ecc := rfl
@[simp] theorem Core.setV_ported (c : Core) (i : Nat) (ws : List W32) : (c.setV i ws).ported = c.ported := rfl
@[simp] theorem Core.setV_inb (c : Core) (i : Nat) (ws : List W32) : (c.setV i ws).inb = c.inb := rfl
@[simp] theorem Core.setV_prior (c : Core) (i : Nat) (ws : List W32) : (c.setV i ws).prior = c.prior := rfl
@[simp] theorem Core.setV_alloc (c : Core) (i : Nat) (ws : List W32) : (c.setV i ws).alloc = c.alloc := rfl
@[simp] theorem Core.setV_fencing (c : Core) (i : Nat) (ws : List W32) : (c.setV i ws).fencing = c.fencing := rfl
@[simp] theorem Core.setV_cause (c : Core) (i : Nat) (ws : List W32) : (c.setV i ws).cause = c.cause := rfl
@[simp] theorem Core.setV_persist (c : Core) (i : Nat) (ws : List W32) : (c.setV i ws).persist = c.persist := rfl
@[simp] theorem Core.setV_testOk (c : Core) (i : Nat) (ws : List W32) : (c.setV i ws).testOk = c.testOk := rfl
@[simp] theorem Core.setV_job (c : Core) (i : Nat) (ws : List W32) : (c.setV i ws).job = c.job := rfl
@[simp] theorem Core.setV_idx (c : Core) (i : Nat) (ws : List W32) : (c.setV i ws).idx = c.idx := rfl
@[simp] theorem Core.setV_run (c : Core) (i : Nat) (ws : List W32) : (c.setV i ws).run = c.run := rfl
@[simp] theorem Core.setV_rows (c : Core) (i : Nat) (ws : List W32) : (c.setV i ws).rows = c.rows := rfl
@[simp] theorem Core.setV_spec (c : Core) (i : Nat) (ws : List W32) : (c.setV i ws).spec = c.spec := rfl
@[simp] theorem Core.setV_tok (c : Core) (i : Nat) (ws : List W32) : (c.setV i ws).tok = c.tok := rfl
@[simp] theorem Core.setV_haz (c : Core) (i : Nat) (ws : List W32) : (c.setV i ws).haz = c.haz := rfl
@[simp] theorem Core.setV_dbg (c : Core) (i : Nat) (ws : List W32) : (c.setV i ws).dbg = c.dbg := rfl
@[simp] theorem Core.setV_ops (c : Core) (i : Nat) (ws : List W32) : (c.setV i ws).ops = c.ops := rfl
@[simp] theorem Core.setV_nextSeq (c : Core) (i : Nat) (ws : List W32) : (c.setV i ws).nextSeq = c.nextSeq := rfl
@[simp] theorem Core.setV_wait (c : Core) (i : Nat) (ws : List W32) : (c.setV i ws).wait = c.wait := rfl
@[simp] theorem Core.setV_dmaq (c : Core) (i : Nat) (ws : List W32) : (c.setV i ws).dmaq = c.dmaq := rfl
@[simp] theorem Core.setV_rq (c : Core) (i : Nat) (ws : List W32) : (c.setV i ws).rq = c.rq := rfl
@[simp] theorem Core.setV_sp (c : Core) (i : Nat) (ws : List W32) : (c.setV i ws).sp = c.sp := rfl
@[simp] theorem Core.setV_estore (c : Core) (i : Nat) (ws : List W32) : (c.setV i ws).estore = c.estore := rfl
@[simp] theorem Core.setV_ember (c : Core) (i : Nat) (ws : List W32) : (c.setV i ws).ember = c.ember := rfl
@[simp] theorem Core.setV_gv (c : Core) (i : Nat) (ws : List W32) : (c.setV i ws).gv = c.gv := rfl
@[simp] theorem Core.setV_gd (c : Core) (i : Nat) (ws : List W32) : (c.setV i ws).gd = c.gd := rfl
@[simp] theorem Core.setV_gdNext (c : Core) (i : Nat) (ws : List W32) : (c.setV i ws).gdNext = c.gdNext := rfl
@[simp] theorem Core.setV_banks (c : Core) (i : Nat) (ws : List W32) : (c.setV i ws).banks = c.banks := rfl
@[simp] theorem Core.setV_remaps (c : Core) (i : Nat) (ws : List W32) : (c.setV i ws).remaps = c.remaps := rfl
@[simp] theorem Core.setV_spares (c : Core) (i : Nat) (ws : List W32) : (c.setV i ws).spares = c.spares := rfl
@[simp] theorem Core.setV_evt (c : Core) (i : Nat) (ws : List W32) : (c.setV i ws).evt = c.evt := rfl
@[simp] theorem Core.setV_fault (c : Core) (i : Nat) (ws : List W32) : (c.setV i ws).fault = c.fault := rfl
@[simp] theorem Core.setV_sperr (c : Core) (i : Nat) (ws : List W32) : (c.setV i ws).sperr = c.sperr := rfl
@[simp] theorem Core.setV_tag (c : Core) (i : Nat) (ws : List W32) : (c.setV i ws).tag = c.tag := rfl
@[simp] theorem Core.setV_held (c : Core) (i : Nat) (ws : List W32) : (c.setV i ws).held = c.held := rfl
@[simp] theorem Core.setV_dmaIss (c : Core) (i : Nat) (ws : List W32) : (c.setV i ws).dmaIss = c.dmaIss := rfl
@[simp] theorem Core.setV_dmaDone (c : Core) (i : Nat) (ws : List W32) : (c.setV i ws).dmaDone = c.dmaDone := rfl
@[simp] theorem Core.setV_dmaLastWr (c : Core) (i : Nat) (ws : List W32) : (c.setV i ws).dmaLastWr = c.dmaLastWr := rfl
@[simp] theorem Core.setV_remIss (c : Core) (i : Nat) (ws : List W32) : (c.setV i ws).remIss = c.remIss := rfl
@[simp] theorem Core.setV_remDone (c : Core) (i : Nat) (ws : List W32) : (c.setV i ws).remDone = c.remDone := rfl

@[simp] theorem Core.flag_st (c : Core) (f : CorEvt → CorEvt) : (c.flag f).st = c.st := rfl
@[simp] theorem Core.flag_ecc (c : Core) (f : CorEvt → CorEvt) : (c.flag f).ecc = c.ecc := rfl
@[simp] theorem Core.flag_ported (c : Core) (f : CorEvt → CorEvt) : (c.flag f).ported = c.ported := rfl
@[simp] theorem Core.flag_inb (c : Core) (f : CorEvt → CorEvt) : (c.flag f).inb = c.inb := rfl
@[simp] theorem Core.flag_prior (c : Core) (f : CorEvt → CorEvt) : (c.flag f).prior = c.prior := rfl
@[simp] theorem Core.flag_alloc (c : Core) (f : CorEvt → CorEvt) : (c.flag f).alloc = c.alloc := rfl
@[simp] theorem Core.flag_fencing (c : Core) (f : CorEvt → CorEvt) : (c.flag f).fencing = c.fencing := rfl
@[simp] theorem Core.flag_cause (c : Core) (f : CorEvt → CorEvt) : (c.flag f).cause = c.cause := rfl
@[simp] theorem Core.flag_persist (c : Core) (f : CorEvt → CorEvt) : (c.flag f).persist = c.persist := rfl
@[simp] theorem Core.flag_testOk (c : Core) (f : CorEvt → CorEvt) : (c.flag f).testOk = c.testOk := rfl
@[simp] theorem Core.flag_job (c : Core) (f : CorEvt → CorEvt) : (c.flag f).job = c.job := rfl
@[simp] theorem Core.flag_idx (c : Core) (f : CorEvt → CorEvt) : (c.flag f).idx = c.idx := rfl
@[simp] theorem Core.flag_run (c : Core) (f : CorEvt → CorEvt) : (c.flag f).run = c.run := rfl
@[simp] theorem Core.flag_regs (c : Core) (f : CorEvt → CorEvt) : (c.flag f).regs = c.regs := rfl
@[simp] theorem Core.flag_rows (c : Core) (f : CorEvt → CorEvt) : (c.flag f).rows = c.rows := rfl
@[simp] theorem Core.flag_spec (c : Core) (f : CorEvt → CorEvt) : (c.flag f).spec = c.spec := rfl
@[simp] theorem Core.flag_tok (c : Core) (f : CorEvt → CorEvt) : (c.flag f).tok = c.tok := rfl
@[simp] theorem Core.flag_haz (c : Core) (f : CorEvt → CorEvt) : (c.flag f).haz = c.haz := rfl
@[simp] theorem Core.flag_dbg (c : Core) (f : CorEvt → CorEvt) : (c.flag f).dbg = c.dbg := rfl
@[simp] theorem Core.flag_ops (c : Core) (f : CorEvt → CorEvt) : (c.flag f).ops = c.ops := rfl
@[simp] theorem Core.flag_nextSeq (c : Core) (f : CorEvt → CorEvt) : (c.flag f).nextSeq = c.nextSeq := rfl
@[simp] theorem Core.flag_wait (c : Core) (f : CorEvt → CorEvt) : (c.flag f).wait = c.wait := rfl
@[simp] theorem Core.flag_dmaq (c : Core) (f : CorEvt → CorEvt) : (c.flag f).dmaq = c.dmaq := rfl
@[simp] theorem Core.flag_rq (c : Core) (f : CorEvt → CorEvt) : (c.flag f).rq = c.rq := rfl
@[simp] theorem Core.flag_sp (c : Core) (f : CorEvt → CorEvt) : (c.flag f).sp = c.sp := rfl
@[simp] theorem Core.flag_estore (c : Core) (f : CorEvt → CorEvt) : (c.flag f).estore = c.estore := rfl
@[simp] theorem Core.flag_ember (c : Core) (f : CorEvt → CorEvt) : (c.flag f).ember = c.ember := rfl
@[simp] theorem Core.flag_gv (c : Core) (f : CorEvt → CorEvt) : (c.flag f).gv = c.gv := rfl
@[simp] theorem Core.flag_gd (c : Core) (f : CorEvt → CorEvt) : (c.flag f).gd = c.gd := rfl
@[simp] theorem Core.flag_gdNext (c : Core) (f : CorEvt → CorEvt) : (c.flag f).gdNext = c.gdNext := rfl
@[simp] theorem Core.flag_banks (c : Core) (f : CorEvt → CorEvt) : (c.flag f).banks = c.banks := rfl
@[simp] theorem Core.flag_remaps (c : Core) (f : CorEvt → CorEvt) : (c.flag f).remaps = c.remaps := rfl
@[simp] theorem Core.flag_spares (c : Core) (f : CorEvt → CorEvt) : (c.flag f).spares = c.spares := rfl
@[simp] theorem Core.flag_fault (c : Core) (f : CorEvt → CorEvt) : (c.flag f).fault = c.fault := rfl
@[simp] theorem Core.flag_sperr (c : Core) (f : CorEvt → CorEvt) : (c.flag f).sperr = c.sperr := rfl
@[simp] theorem Core.flag_tag (c : Core) (f : CorEvt → CorEvt) : (c.flag f).tag = c.tag := rfl
@[simp] theorem Core.flag_held (c : Core) (f : CorEvt → CorEvt) : (c.flag f).held = c.held := rfl
@[simp] theorem Core.flag_dmaIss (c : Core) (f : CorEvt → CorEvt) : (c.flag f).dmaIss = c.dmaIss := rfl
@[simp] theorem Core.flag_dmaDone (c : Core) (f : CorEvt → CorEvt) : (c.flag f).dmaDone = c.dmaDone := rfl
@[simp] theorem Core.flag_dmaLastWr (c : Core) (f : CorEvt → CorEvt) : (c.flag f).dmaLastWr = c.dmaLastWr := rfl
@[simp] theorem Core.flag_remIss (c : Core) (f : CorEvt → CorEvt) : (c.flag f).remIss = c.remIss := rfl
@[simp] theorem Core.flag_remDone (c : Core) (f : CorEvt → CorEvt) : (c.flag f).remDone = c.remDone := rfl

@[simp] theorem Core.pmcAdd_st (c : Core) (ev k : Nat) : (c.pmcAdd ev k).st = c.st := rfl
@[simp] theorem Core.pmcAdd_ecc (c : Core) (ev k : Nat) : (c.pmcAdd ev k).ecc = c.ecc := rfl
@[simp] theorem Core.pmcAdd_ported (c : Core) (ev k : Nat) : (c.pmcAdd ev k).ported = c.ported := rfl
@[simp] theorem Core.pmcAdd_inb (c : Core) (ev k : Nat) : (c.pmcAdd ev k).inb = c.inb := rfl
@[simp] theorem Core.pmcAdd_prior (c : Core) (ev k : Nat) : (c.pmcAdd ev k).prior = c.prior := rfl
@[simp] theorem Core.pmcAdd_alloc (c : Core) (ev k : Nat) : (c.pmcAdd ev k).alloc = c.alloc := rfl
@[simp] theorem Core.pmcAdd_fencing (c : Core) (ev k : Nat) : (c.pmcAdd ev k).fencing = c.fencing := rfl
@[simp] theorem Core.pmcAdd_cause (c : Core) (ev k : Nat) : (c.pmcAdd ev k).cause = c.cause := rfl
@[simp] theorem Core.pmcAdd_persist (c : Core) (ev k : Nat) : (c.pmcAdd ev k).persist = c.persist := rfl
@[simp] theorem Core.pmcAdd_testOk (c : Core) (ev k : Nat) : (c.pmcAdd ev k).testOk = c.testOk := rfl
@[simp] theorem Core.pmcAdd_job (c : Core) (ev k : Nat) : (c.pmcAdd ev k).job = c.job := rfl
@[simp] theorem Core.pmcAdd_idx (c : Core) (ev k : Nat) : (c.pmcAdd ev k).idx = c.idx := rfl
@[simp] theorem Core.pmcAdd_run (c : Core) (ev k : Nat) : (c.pmcAdd ev k).run = c.run := rfl
@[simp] theorem Core.pmcAdd_regs (c : Core) (ev k : Nat) : (c.pmcAdd ev k).regs = c.regs := rfl
@[simp] theorem Core.pmcAdd_rows (c : Core) (ev k : Nat) : (c.pmcAdd ev k).rows = c.rows := rfl
@[simp] theorem Core.pmcAdd_spec (c : Core) (ev k : Nat) : (c.pmcAdd ev k).spec = c.spec := rfl
@[simp] theorem Core.pmcAdd_tok (c : Core) (ev k : Nat) : (c.pmcAdd ev k).tok = c.tok := rfl
@[simp] theorem Core.pmcAdd_haz (c : Core) (ev k : Nat) : (c.pmcAdd ev k).haz = c.haz := rfl
@[simp] theorem Core.pmcAdd_ops (c : Core) (ev k : Nat) : (c.pmcAdd ev k).ops = c.ops := rfl
@[simp] theorem Core.pmcAdd_nextSeq (c : Core) (ev k : Nat) : (c.pmcAdd ev k).nextSeq = c.nextSeq := rfl
@[simp] theorem Core.pmcAdd_wait (c : Core) (ev k : Nat) : (c.pmcAdd ev k).wait = c.wait := rfl
@[simp] theorem Core.pmcAdd_dmaq (c : Core) (ev k : Nat) : (c.pmcAdd ev k).dmaq = c.dmaq := rfl
@[simp] theorem Core.pmcAdd_rq (c : Core) (ev k : Nat) : (c.pmcAdd ev k).rq = c.rq := rfl
@[simp] theorem Core.pmcAdd_sp (c : Core) (ev k : Nat) : (c.pmcAdd ev k).sp = c.sp := rfl
@[simp] theorem Core.pmcAdd_estore (c : Core) (ev k : Nat) : (c.pmcAdd ev k).estore = c.estore := rfl
@[simp] theorem Core.pmcAdd_ember (c : Core) (ev k : Nat) : (c.pmcAdd ev k).ember = c.ember := rfl
@[simp] theorem Core.pmcAdd_gv (c : Core) (ev k : Nat) : (c.pmcAdd ev k).gv = c.gv := rfl
@[simp] theorem Core.pmcAdd_gd (c : Core) (ev k : Nat) : (c.pmcAdd ev k).gd = c.gd := rfl
@[simp] theorem Core.pmcAdd_gdNext (c : Core) (ev k : Nat) : (c.pmcAdd ev k).gdNext = c.gdNext := rfl
@[simp] theorem Core.pmcAdd_banks (c : Core) (ev k : Nat) : (c.pmcAdd ev k).banks = c.banks := rfl
@[simp] theorem Core.pmcAdd_remaps (c : Core) (ev k : Nat) : (c.pmcAdd ev k).remaps = c.remaps := rfl
@[simp] theorem Core.pmcAdd_spares (c : Core) (ev k : Nat) : (c.pmcAdd ev k).spares = c.spares := rfl
@[simp] theorem Core.pmcAdd_evt (c : Core) (ev k : Nat) : (c.pmcAdd ev k).evt = c.evt := rfl
@[simp] theorem Core.pmcAdd_fault (c : Core) (ev k : Nat) : (c.pmcAdd ev k).fault = c.fault := rfl
@[simp] theorem Core.pmcAdd_sperr (c : Core) (ev k : Nat) : (c.pmcAdd ev k).sperr = c.sperr := rfl
@[simp] theorem Core.pmcAdd_tag (c : Core) (ev k : Nat) : (c.pmcAdd ev k).tag = c.tag := rfl
@[simp] theorem Core.pmcAdd_held (c : Core) (ev k : Nat) : (c.pmcAdd ev k).held = c.held := rfl
@[simp] theorem Core.pmcAdd_dmaIss (c : Core) (ev k : Nat) : (c.pmcAdd ev k).dmaIss = c.dmaIss := rfl
@[simp] theorem Core.pmcAdd_dmaDone (c : Core) (ev k : Nat) : (c.pmcAdd ev k).dmaDone = c.dmaDone := rfl
@[simp] theorem Core.pmcAdd_dmaLastWr (c : Core) (ev k : Nat) : (c.pmcAdd ev k).dmaLastWr = c.dmaLastWr := rfl
@[simp] theorem Core.pmcAdd_remIss (c : Core) (ev k : Nat) : (c.pmcAdd ev k).remIss = c.remIss := rfl
@[simp] theorem Core.pmcAdd_remDone (c : Core) (ev k : Nat) : (c.pmcAdd ev k).remDone = c.remDone := rfl

@[simp] theorem Core.addOp_st (c : Core) (o : Op) : (c.addOp o).st = c.st := rfl
@[simp] theorem Core.addOp_ecc (c : Core) (o : Op) : (c.addOp o).ecc = c.ecc := rfl
@[simp] theorem Core.addOp_ported (c : Core) (o : Op) : (c.addOp o).ported = c.ported := rfl
@[simp] theorem Core.addOp_inb (c : Core) (o : Op) : (c.addOp o).inb = c.inb := rfl
@[simp] theorem Core.addOp_prior (c : Core) (o : Op) : (c.addOp o).prior = c.prior := rfl
@[simp] theorem Core.addOp_alloc (c : Core) (o : Op) : (c.addOp o).alloc = c.alloc := rfl
@[simp] theorem Core.addOp_fencing (c : Core) (o : Op) : (c.addOp o).fencing = c.fencing := rfl
@[simp] theorem Core.addOp_cause (c : Core) (o : Op) : (c.addOp o).cause = c.cause := rfl
@[simp] theorem Core.addOp_persist (c : Core) (o : Op) : (c.addOp o).persist = c.persist := rfl
@[simp] theorem Core.addOp_testOk (c : Core) (o : Op) : (c.addOp o).testOk = c.testOk := rfl
@[simp] theorem Core.addOp_job (c : Core) (o : Op) : (c.addOp o).job = c.job := rfl
@[simp] theorem Core.addOp_idx (c : Core) (o : Op) : (c.addOp o).idx = c.idx := rfl
@[simp] theorem Core.addOp_run (c : Core) (o : Op) : (c.addOp o).run = c.run := rfl
@[simp] theorem Core.addOp_regs (c : Core) (o : Op) : (c.addOp o).regs = c.regs := rfl
@[simp] theorem Core.addOp_rows (c : Core) (o : Op) : (c.addOp o).rows = c.rows := rfl
@[simp] theorem Core.addOp_spec (c : Core) (o : Op) : (c.addOp o).spec = c.spec := rfl
@[simp] theorem Core.addOp_tok (c : Core) (o : Op) : (c.addOp o).tok = c.tok := rfl
@[simp] theorem Core.addOp_haz (c : Core) (o : Op) : (c.addOp o).haz = c.haz := rfl
@[simp] theorem Core.addOp_dbg (c : Core) (o : Op) : (c.addOp o).dbg = c.dbg := rfl
@[simp] theorem Core.addOp_wait (c : Core) (o : Op) : (c.addOp o).wait = c.wait := rfl
@[simp] theorem Core.addOp_dmaq (c : Core) (o : Op) : (c.addOp o).dmaq = c.dmaq := rfl
@[simp] theorem Core.addOp_rq (c : Core) (o : Op) : (c.addOp o).rq = c.rq := rfl
@[simp] theorem Core.addOp_sp (c : Core) (o : Op) : (c.addOp o).sp = c.sp := rfl
@[simp] theorem Core.addOp_estore (c : Core) (o : Op) : (c.addOp o).estore = c.estore := rfl
@[simp] theorem Core.addOp_ember (c : Core) (o : Op) : (c.addOp o).ember = c.ember := rfl
@[simp] theorem Core.addOp_gv (c : Core) (o : Op) : (c.addOp o).gv = c.gv := rfl
@[simp] theorem Core.addOp_gd (c : Core) (o : Op) : (c.addOp o).gd = c.gd := rfl
@[simp] theorem Core.addOp_gdNext (c : Core) (o : Op) : (c.addOp o).gdNext = c.gdNext := rfl
@[simp] theorem Core.addOp_banks (c : Core) (o : Op) : (c.addOp o).banks = c.banks := rfl
@[simp] theorem Core.addOp_remaps (c : Core) (o : Op) : (c.addOp o).remaps = c.remaps := rfl
@[simp] theorem Core.addOp_spares (c : Core) (o : Op) : (c.addOp o).spares = c.spares := rfl
@[simp] theorem Core.addOp_evt (c : Core) (o : Op) : (c.addOp o).evt = c.evt := rfl
@[simp] theorem Core.addOp_fault (c : Core) (o : Op) : (c.addOp o).fault = c.fault := rfl
@[simp] theorem Core.addOp_sperr (c : Core) (o : Op) : (c.addOp o).sperr = c.sperr := rfl
@[simp] theorem Core.addOp_tag (c : Core) (o : Op) : (c.addOp o).tag = c.tag := rfl
@[simp] theorem Core.addOp_held (c : Core) (o : Op) : (c.addOp o).held = c.held := rfl
@[simp] theorem Core.addOp_dmaIss (c : Core) (o : Op) : (c.addOp o).dmaIss = c.dmaIss := rfl
@[simp] theorem Core.addOp_dmaDone (c : Core) (o : Op) : (c.addOp o).dmaDone = c.dmaDone := rfl
@[simp] theorem Core.addOp_dmaLastWr (c : Core) (o : Op) : (c.addOp o).dmaLastWr = c.dmaLastWr := rfl
@[simp] theorem Core.addOp_remIss (c : Core) (o : Op) : (c.addOp o).remIss = c.remIss := rfl
@[simp] theorem Core.addOp_remDone (c : Core) (o : Op) : (c.addOp o).remDone = c.remDone := rfl

@[simp] theorem Core.spWrite_st (c : Core) (mem row off : Nat) (bs : List Byte) : (c.spWrite mem row off bs).st = c.st := rfl
@[simp] theorem Core.spWrite_ecc (c : Core) (mem row off : Nat) (bs : List Byte) : (c.spWrite mem row off bs).ecc = c.ecc := rfl
@[simp] theorem Core.spWrite_ported (c : Core) (mem row off : Nat) (bs : List Byte) : (c.spWrite mem row off bs).ported = c.ported := rfl
@[simp] theorem Core.spWrite_inb (c : Core) (mem row off : Nat) (bs : List Byte) : (c.spWrite mem row off bs).inb = c.inb := rfl
@[simp] theorem Core.spWrite_prior (c : Core) (mem row off : Nat) (bs : List Byte) : (c.spWrite mem row off bs).prior = c.prior := rfl
@[simp] theorem Core.spWrite_alloc (c : Core) (mem row off : Nat) (bs : List Byte) : (c.spWrite mem row off bs).alloc = c.alloc := rfl
@[simp] theorem Core.spWrite_fencing (c : Core) (mem row off : Nat) (bs : List Byte) : (c.spWrite mem row off bs).fencing = c.fencing := rfl
@[simp] theorem Core.spWrite_cause (c : Core) (mem row off : Nat) (bs : List Byte) : (c.spWrite mem row off bs).cause = c.cause := rfl
@[simp] theorem Core.spWrite_persist (c : Core) (mem row off : Nat) (bs : List Byte) : (c.spWrite mem row off bs).persist = c.persist := rfl
@[simp] theorem Core.spWrite_testOk (c : Core) (mem row off : Nat) (bs : List Byte) : (c.spWrite mem row off bs).testOk = c.testOk := rfl
@[simp] theorem Core.spWrite_job (c : Core) (mem row off : Nat) (bs : List Byte) : (c.spWrite mem row off bs).job = c.job := rfl
@[simp] theorem Core.spWrite_idx (c : Core) (mem row off : Nat) (bs : List Byte) : (c.spWrite mem row off bs).idx = c.idx := rfl
@[simp] theorem Core.spWrite_run (c : Core) (mem row off : Nat) (bs : List Byte) : (c.spWrite mem row off bs).run = c.run := rfl
@[simp] theorem Core.spWrite_regs (c : Core) (mem row off : Nat) (bs : List Byte) : (c.spWrite mem row off bs).regs = c.regs := rfl
@[simp] theorem Core.spWrite_rows (c : Core) (mem row off : Nat) (bs : List Byte) : (c.spWrite mem row off bs).rows = c.rows := rfl
@[simp] theorem Core.spWrite_spec (c : Core) (mem row off : Nat) (bs : List Byte) : (c.spWrite mem row off bs).spec = c.spec := rfl
@[simp] theorem Core.spWrite_tok (c : Core) (mem row off : Nat) (bs : List Byte) : (c.spWrite mem row off bs).tok = c.tok := rfl
@[simp] theorem Core.spWrite_haz (c : Core) (mem row off : Nat) (bs : List Byte) : (c.spWrite mem row off bs).haz = c.haz := rfl
@[simp] theorem Core.spWrite_dbg (c : Core) (mem row off : Nat) (bs : List Byte) : (c.spWrite mem row off bs).dbg = c.dbg := rfl
@[simp] theorem Core.spWrite_ops (c : Core) (mem row off : Nat) (bs : List Byte) : (c.spWrite mem row off bs).ops = c.ops := rfl
@[simp] theorem Core.spWrite_nextSeq (c : Core) (mem row off : Nat) (bs : List Byte) : (c.spWrite mem row off bs).nextSeq = c.nextSeq := rfl
@[simp] theorem Core.spWrite_wait (c : Core) (mem row off : Nat) (bs : List Byte) : (c.spWrite mem row off bs).wait = c.wait := rfl
@[simp] theorem Core.spWrite_dmaq (c : Core) (mem row off : Nat) (bs : List Byte) : (c.spWrite mem row off bs).dmaq = c.dmaq := rfl
@[simp] theorem Core.spWrite_rq (c : Core) (mem row off : Nat) (bs : List Byte) : (c.spWrite mem row off bs).rq = c.rq := rfl
@[simp] theorem Core.spWrite_estore (c : Core) (mem row off : Nat) (bs : List Byte) : (c.spWrite mem row off bs).estore = c.estore := rfl
@[simp] theorem Core.spWrite_ember (c : Core) (mem row off : Nat) (bs : List Byte) : (c.spWrite mem row off bs).ember = c.ember := rfl
@[simp] theorem Core.spWrite_gv (c : Core) (mem row off : Nat) (bs : List Byte) : (c.spWrite mem row off bs).gv = c.gv := rfl
@[simp] theorem Core.spWrite_gd (c : Core) (mem row off : Nat) (bs : List Byte) : (c.spWrite mem row off bs).gd = c.gd := rfl
@[simp] theorem Core.spWrite_gdNext (c : Core) (mem row off : Nat) (bs : List Byte) : (c.spWrite mem row off bs).gdNext = c.gdNext := rfl
@[simp] theorem Core.spWrite_banks (c : Core) (mem row off : Nat) (bs : List Byte) : (c.spWrite mem row off bs).banks = c.banks := rfl
@[simp] theorem Core.spWrite_remaps (c : Core) (mem row off : Nat) (bs : List Byte) : (c.spWrite mem row off bs).remaps = c.remaps := rfl
@[simp] theorem Core.spWrite_spares (c : Core) (mem row off : Nat) (bs : List Byte) : (c.spWrite mem row off bs).spares = c.spares := rfl
@[simp] theorem Core.spWrite_evt (c : Core) (mem row off : Nat) (bs : List Byte) : (c.spWrite mem row off bs).evt = c.evt := rfl
@[simp] theorem Core.spWrite_fault (c : Core) (mem row off : Nat) (bs : List Byte) : (c.spWrite mem row off bs).fault = c.fault := rfl
@[simp] theorem Core.spWrite_sperr (c : Core) (mem row off : Nat) (bs : List Byte) : (c.spWrite mem row off bs).sperr = c.sperr := rfl
@[simp] theorem Core.spWrite_tag (c : Core) (mem row off : Nat) (bs : List Byte) : (c.spWrite mem row off bs).tag = c.tag := rfl
@[simp] theorem Core.spWrite_held (c : Core) (mem row off : Nat) (bs : List Byte) : (c.spWrite mem row off bs).held = c.held := rfl
@[simp] theorem Core.spWrite_dmaIss (c : Core) (mem row off : Nat) (bs : List Byte) : (c.spWrite mem row off bs).dmaIss = c.dmaIss := rfl
@[simp] theorem Core.spWrite_dmaDone (c : Core) (mem row off : Nat) (bs : List Byte) : (c.spWrite mem row off bs).dmaDone = c.dmaDone := rfl
@[simp] theorem Core.spWrite_dmaLastWr (c : Core) (mem row off : Nat) (bs : List Byte) : (c.spWrite mem row off bs).dmaLastWr = c.dmaLastWr := rfl
@[simp] theorem Core.spWrite_remIss (c : Core) (mem row off : Nat) (bs : List Byte) : (c.spWrite mem row off bs).remIss = c.remIss := rfl
@[simp] theorem Core.spWrite_remDone (c : Core) (mem row off : Nat) (bs : List Byte) : (c.spWrite mem row off bs).remDone = c.remDone := rfl

@[simp] theorem Core.committed_st (c : Core) : c.committed.st = c.st := rfl
@[simp] theorem Core.committed_ecc (c : Core) : c.committed.ecc = c.ecc := rfl
@[simp] theorem Core.committed_ported (c : Core) : c.committed.ported = c.ported := rfl
@[simp] theorem Core.committed_inb (c : Core) : c.committed.inb = c.inb := rfl
@[simp] theorem Core.committed_prior (c : Core) : c.committed.prior = c.prior := rfl
@[simp] theorem Core.committed_alloc (c : Core) : c.committed.alloc = c.alloc := rfl
@[simp] theorem Core.committed_fencing (c : Core) : c.committed.fencing = c.fencing := rfl
@[simp] theorem Core.committed_cause (c : Core) : c.committed.cause = c.cause := rfl
@[simp] theorem Core.committed_persist (c : Core) : c.committed.persist = c.persist := rfl
@[simp] theorem Core.committed_testOk (c : Core) : c.committed.testOk = c.testOk := rfl
@[simp] theorem Core.committed_job (c : Core) : c.committed.job = c.job := rfl
@[simp] theorem Core.committed_idx (c : Core) : c.committed.idx = c.idx := rfl
@[simp] theorem Core.committed_run (c : Core) : c.committed.run = c.run := rfl
@[simp] theorem Core.committed_regs (c : Core) : c.committed.regs = c.regs := rfl
@[simp] theorem Core.committed_rows (c : Core) : c.committed.rows = c.rows := rfl
@[simp] theorem Core.committed_spec (c : Core) : c.committed.spec = c.spec := rfl
@[simp] theorem Core.committed_haz (c : Core) : c.committed.haz = c.haz := rfl
@[simp] theorem Core.committed_ops (c : Core) : c.committed.ops = c.ops := rfl
@[simp] theorem Core.committed_nextSeq (c : Core) : c.committed.nextSeq = c.nextSeq := rfl
@[simp] theorem Core.committed_wait (c : Core) : c.committed.wait = c.wait := rfl
@[simp] theorem Core.committed_dmaq (c : Core) : c.committed.dmaq = c.dmaq := rfl
@[simp] theorem Core.committed_rq (c : Core) : c.committed.rq = c.rq := rfl
@[simp] theorem Core.committed_sp (c : Core) : c.committed.sp = c.sp := rfl
@[simp] theorem Core.committed_estore (c : Core) : c.committed.estore = c.estore := rfl
@[simp] theorem Core.committed_ember (c : Core) : c.committed.ember = c.ember := rfl
@[simp] theorem Core.committed_gv (c : Core) : c.committed.gv = c.gv := rfl
@[simp] theorem Core.committed_gd (c : Core) : c.committed.gd = c.gd := rfl
@[simp] theorem Core.committed_gdNext (c : Core) : c.committed.gdNext = c.gdNext := rfl
@[simp] theorem Core.committed_banks (c : Core) : c.committed.banks = c.banks := rfl
@[simp] theorem Core.committed_remaps (c : Core) : c.committed.remaps = c.remaps := rfl
@[simp] theorem Core.committed_spares (c : Core) : c.committed.spares = c.spares := rfl
@[simp] theorem Core.committed_evt (c : Core) : c.committed.evt = c.evt := rfl
@[simp] theorem Core.committed_fault (c : Core) : c.committed.fault = c.fault := rfl
@[simp] theorem Core.committed_sperr (c : Core) : c.committed.sperr = c.sperr := rfl
@[simp] theorem Core.committed_tag (c : Core) : c.committed.tag = c.tag := rfl
@[simp] theorem Core.committed_held (c : Core) : c.committed.held = c.held := rfl
@[simp] theorem Core.committed_dmaIss (c : Core) : c.committed.dmaIss = c.dmaIss := rfl
@[simp] theorem Core.committed_dmaDone (c : Core) : c.committed.dmaDone = c.dmaDone := rfl
@[simp] theorem Core.committed_dmaLastWr (c : Core) : c.committed.dmaLastWr = c.dmaLastWr := rfl
@[simp] theorem Core.committed_remIss (c : Core) : c.committed.remIss = c.remIss := rfl
@[simp] theorem Core.committed_remDone (c : Core) : c.committed.remDone = c.remDone := rfl

@[simp] theorem Core.mispredict_st (c : Core) (m : Bool) (w : W64) : (c.mispredict m w).st = c.st := by unfold Core.mispredict; split <;> rfl
@[simp] theorem Core.mispredict_ecc (c : Core) (m : Bool) (w : W64) : (c.mispredict m w).ecc = c.ecc := by unfold Core.mispredict; split <;> rfl
@[simp] theorem Core.mispredict_ported (c : Core) (m : Bool) (w : W64) : (c.mispredict m w).ported = c.ported := by unfold Core.mispredict; split <;> rfl
@[simp] theorem Core.mispredict_inb (c : Core) (m : Bool) (w : W64) : (c.mispredict m w).inb = c.inb := by unfold Core.mispredict; split <;> rfl
@[simp] theorem Core.mispredict_prior (c : Core) (m : Bool) (w : W64) : (c.mispredict m w).prior = c.prior := by unfold Core.mispredict; split <;> rfl
@[simp] theorem Core.mispredict_alloc (c : Core) (m : Bool) (w : W64) : (c.mispredict m w).alloc = c.alloc := by unfold Core.mispredict; split <;> rfl
@[simp] theorem Core.mispredict_fencing (c : Core) (m : Bool) (w : W64) : (c.mispredict m w).fencing = c.fencing := by unfold Core.mispredict; split <;> rfl
@[simp] theorem Core.mispredict_cause (c : Core) (m : Bool) (w : W64) : (c.mispredict m w).cause = c.cause := by unfold Core.mispredict; split <;> rfl
@[simp] theorem Core.mispredict_persist (c : Core) (m : Bool) (w : W64) : (c.mispredict m w).persist = c.persist := by unfold Core.mispredict; split <;> rfl
@[simp] theorem Core.mispredict_testOk (c : Core) (m : Bool) (w : W64) : (c.mispredict m w).testOk = c.testOk := by unfold Core.mispredict; split <;> rfl
@[simp] theorem Core.mispredict_job (c : Core) (m : Bool) (w : W64) : (c.mispredict m w).job = c.job := by unfold Core.mispredict; split <;> rfl
@[simp] theorem Core.mispredict_idx (c : Core) (m : Bool) (w : W64) : (c.mispredict m w).idx = c.idx := by unfold Core.mispredict; split <;> rfl
@[simp] theorem Core.mispredict_run (c : Core) (m : Bool) (w : W64) : (c.mispredict m w).run = c.run := by unfold Core.mispredict; split <;> rfl
@[simp] theorem Core.mispredict_regs (c : Core) (m : Bool) (w : W64) : (c.mispredict m w).regs = c.regs := by unfold Core.mispredict; split <;> rfl
@[simp] theorem Core.mispredict_rows (c : Core) (m : Bool) (w : W64) : (c.mispredict m w).rows = c.rows := by unfold Core.mispredict; split <;> rfl
@[simp] theorem Core.mispredict_tok (c : Core) (m : Bool) (w : W64) : (c.mispredict m w).tok = c.tok := by unfold Core.mispredict; split <;> rfl
@[simp] theorem Core.mispredict_haz (c : Core) (m : Bool) (w : W64) : (c.mispredict m w).haz = c.haz := by unfold Core.mispredict; split <;> rfl
@[simp] theorem Core.mispredict_dbg (c : Core) (m : Bool) (w : W64) : (c.mispredict m w).dbg = c.dbg := by unfold Core.mispredict; split <;> rfl
@[simp] theorem Core.mispredict_ops (c : Core) (m : Bool) (w : W64) : (c.mispredict m w).ops = c.ops := by unfold Core.mispredict; split <;> rfl
@[simp] theorem Core.mispredict_nextSeq (c : Core) (m : Bool) (w : W64) : (c.mispredict m w).nextSeq = c.nextSeq := by unfold Core.mispredict; split <;> rfl
@[simp] theorem Core.mispredict_wait (c : Core) (m : Bool) (w : W64) : (c.mispredict m w).wait = c.wait := by unfold Core.mispredict; split <;> rfl
@[simp] theorem Core.mispredict_dmaq (c : Core) (m : Bool) (w : W64) : (c.mispredict m w).dmaq = c.dmaq := by unfold Core.mispredict; split <;> rfl
@[simp] theorem Core.mispredict_rq (c : Core) (m : Bool) (w : W64) : (c.mispredict m w).rq = c.rq := by unfold Core.mispredict; split <;> rfl
@[simp] theorem Core.mispredict_sp (c : Core) (m : Bool) (w : W64) : (c.mispredict m w).sp = c.sp := by unfold Core.mispredict; split <;> rfl
@[simp] theorem Core.mispredict_estore (c : Core) (m : Bool) (w : W64) : (c.mispredict m w).estore = c.estore := by unfold Core.mispredict; split <;> rfl
@[simp] theorem Core.mispredict_ember (c : Core) (m : Bool) (w : W64) : (c.mispredict m w).ember = c.ember := by unfold Core.mispredict; split <;> rfl
@[simp] theorem Core.mispredict_gv (c : Core) (m : Bool) (w : W64) : (c.mispredict m w).gv = c.gv := by unfold Core.mispredict; split <;> rfl
@[simp] theorem Core.mispredict_gd (c : Core) (m : Bool) (w : W64) : (c.mispredict m w).gd = c.gd := by unfold Core.mispredict; split <;> rfl
@[simp] theorem Core.mispredict_gdNext (c : Core) (m : Bool) (w : W64) : (c.mispredict m w).gdNext = c.gdNext := by unfold Core.mispredict; split <;> rfl
@[simp] theorem Core.mispredict_banks (c : Core) (m : Bool) (w : W64) : (c.mispredict m w).banks = c.banks := by unfold Core.mispredict; split <;> rfl
@[simp] theorem Core.mispredict_remaps (c : Core) (m : Bool) (w : W64) : (c.mispredict m w).remaps = c.remaps := by unfold Core.mispredict; split <;> rfl
@[simp] theorem Core.mispredict_spares (c : Core) (m : Bool) (w : W64) : (c.mispredict m w).spares = c.spares := by unfold Core.mispredict; split <;> rfl
@[simp] theorem Core.mispredict_evt (c : Core) (m : Bool) (w : W64) : (c.mispredict m w).evt = c.evt := by unfold Core.mispredict; split <;> rfl
@[simp] theorem Core.mispredict_fault (c : Core) (m : Bool) (w : W64) : (c.mispredict m w).fault = c.fault := by unfold Core.mispredict; split <;> rfl
@[simp] theorem Core.mispredict_sperr (c : Core) (m : Bool) (w : W64) : (c.mispredict m w).sperr = c.sperr := by unfold Core.mispredict; split <;> rfl
@[simp] theorem Core.mispredict_tag (c : Core) (m : Bool) (w : W64) : (c.mispredict m w).tag = c.tag := by unfold Core.mispredict; split <;> rfl
@[simp] theorem Core.mispredict_held (c : Core) (m : Bool) (w : W64) : (c.mispredict m w).held = c.held := by unfold Core.mispredict; split <;> rfl
@[simp] theorem Core.mispredict_dmaIss (c : Core) (m : Bool) (w : W64) : (c.mispredict m w).dmaIss = c.dmaIss := by unfold Core.mispredict; split <;> rfl
@[simp] theorem Core.mispredict_dmaDone (c : Core) (m : Bool) (w : W64) : (c.mispredict m w).dmaDone = c.dmaDone := by unfold Core.mispredict; split <;> rfl
@[simp] theorem Core.mispredict_dmaLastWr (c : Core) (m : Bool) (w : W64) : (c.mispredict m w).dmaLastWr = c.dmaLastWr := by unfold Core.mispredict; split <;> rfl
@[simp] theorem Core.mispredict_remIss (c : Core) (m : Bool) (w : W64) : (c.mispredict m w).remIss = c.remIss := by unfold Core.mispredict; split <;> rfl
@[simp] theorem Core.mispredict_remDone (c : Core) (m : Bool) (w : W64) : (c.mispredict m w).remDone = c.remDone := by unfold Core.mispredict; split <;> rfl

/-! ### Registers after an update -/

@[simp] theorem Core.setPc_pc (c : Core) (a : W64) : (c.setPc a).regs.pc = a := rfl
@[simp] theorem Core.setPc_regs_x (c : Core) (a : W64) : (c.setPc a).regs.x = c.regs.x := rfl
@[simp] theorem Core.setPc_regs_f (c : Core) (a : W64) : (c.setPc a).regs.f = c.regs.f := rfl
@[simp] theorem Core.setPc_regs_p (c : Core) (a : W64) : (c.setPc a).regs.p = c.regs.p := rfl
@[simp] theorem Core.setPc_regs_v (c : Core) (a : W64) : (c.setPc a).regs.v = c.regs.v := rfl
@[simp] theorem Core.setPc_regs_fpc (c : Core) (a : W64) : (c.setPc a).regs.fpc = c.regs.fpc := rfl
@[simp] theorem Core.setPc_regs_phase (c : Core) (a : W64) : (c.setPc a).regs.phase = c.regs.phase := rfl
@[simp] theorem Core.setPc_regs_budget (c : Core) (a : W64) : (c.setPc a).regs.budget = c.regs.budget := rfl
@[simp] theorem Core.setPc_regs_budgOn (c : Core) (a : W64) : (c.setPc a).regs.budgOn = c.regs.budgOn := rfl
@[simp] theorem Core.setPc_regs_budgDue (c : Core) (a : W64) : (c.setPc a).regs.budgDue = c.regs.budgDue := rfl
@[simp] theorem Core.setX_regs_pc (c : Core) (i : Nat) (w : W64) : (c.setX i w).regs.pc = c.regs.pc := by unfold Core.setX; split <;> rfl
@[simp] theorem Core.setX_regs_f (c : Core) (i : Nat) (w : W64) : (c.setX i w).regs.f = c.regs.f := by unfold Core.setX; split <;> rfl
@[simp] theorem Core.setX_regs_p (c : Core) (i : Nat) (w : W64) : (c.setX i w).regs.p = c.regs.p := by unfold Core.setX; split <;> rfl
@[simp] theorem Core.setX_regs_v (c : Core) (i : Nat) (w : W64) : (c.setX i w).regs.v = c.regs.v := by unfold Core.setX; split <;> rfl
@[simp] theorem Core.setX_regs_fpc (c : Core) (i : Nat) (w : W64) : (c.setX i w).regs.fpc = c.regs.fpc := by unfold Core.setX; split <;> rfl
@[simp] theorem Core.setX_regs_phase (c : Core) (i : Nat) (w : W64) : (c.setX i w).regs.phase = c.regs.phase := by unfold Core.setX; split <;> rfl
@[simp] theorem Core.setX_regs_budget (c : Core) (i : Nat) (w : W64) : (c.setX i w).regs.budget = c.regs.budget := by unfold Core.setX; split <;> rfl
@[simp] theorem Core.setX_regs_budgOn (c : Core) (i : Nat) (w : W64) : (c.setX i w).regs.budgOn = c.regs.budgOn := by unfold Core.setX; split <;> rfl
@[simp] theorem Core.setX_regs_budgDue (c : Core) (i : Nat) (w : W64) : (c.setX i w).regs.budgDue = c.regs.budgDue := by unfold Core.setX; split <;> rfl
@[simp] theorem Core.setF_regs_pc (c : Core) (i : Nat) (w : W32) : (c.setF i w).regs.pc = c.regs.pc := rfl
@[simp] theorem Core.setF_regs_x (c : Core) (i : Nat) (w : W32) : (c.setF i w).regs.x = c.regs.x := rfl
@[simp] theorem Core.setF_regs_p (c : Core) (i : Nat) (w : W32) : (c.setF i w).regs.p = c.regs.p := rfl
@[simp] theorem Core.setF_regs_v (c : Core) (i : Nat) (w : W32) : (c.setF i w).regs.v = c.regs.v := rfl
@[simp] theorem Core.setF_regs_fpc (c : Core) (i : Nat) (w : W32) : (c.setF i w).regs.fpc = c.regs.fpc := rfl
@[simp] theorem Core.setF_regs_phase (c : Core) (i : Nat) (w : W32) : (c.setF i w).regs.phase = c.regs.phase := rfl
@[simp] theorem Core.setF_regs_budget (c : Core) (i : Nat) (w : W32) : (c.setF i w).regs.budget = c.regs.budget := rfl
@[simp] theorem Core.setF_regs_budgOn (c : Core) (i : Nat) (w : W32) : (c.setF i w).regs.budgOn = c.regs.budgOn := rfl
@[simp] theorem Core.setF_regs_budgDue (c : Core) (i : Nat) (w : W32) : (c.setF i w).regs.budgDue = c.regs.budgDue := rfl
@[simp] theorem Core.setP_regs_pc (c : Core) (i : Nat) (b : Bool) : (c.setP i b).regs.pc = c.regs.pc := by unfold Core.setP; split <;> rfl
@[simp] theorem Core.setP_regs_x (c : Core) (i : Nat) (b : Bool) : (c.setP i b).regs.x = c.regs.x := by unfold Core.setP; split <;> rfl
@[simp] theorem Core.setP_regs_f (c : Core) (i : Nat) (b : Bool) : (c.setP i b).regs.f = c.regs.f := by unfold Core.setP; split <;> rfl
@[simp] theorem Core.setP_regs_v (c : Core) (i : Nat) (b : Bool) : (c.setP i b).regs.v = c.regs.v := by unfold Core.setP; split <;> rfl
@[simp] theorem Core.setP_regs_fpc (c : Core) (i : Nat) (b : Bool) : (c.setP i b).regs.fpc = c.regs.fpc := by unfold Core.setP; split <;> rfl
@[simp] theorem Core.setP_regs_phase (c : Core) (i : Nat) (b : Bool) : (c.setP i b).regs.phase = c.regs.phase := by unfold Core.setP; split <;> rfl
@[simp] theorem Core.setP_regs_budget (c : Core) (i : Nat) (b : Bool) : (c.setP i b).regs.budget = c.regs.budget := by unfold Core.setP; split <;> rfl
@[simp] theorem Core.setP_regs_budgOn (c : Core) (i : Nat) (b : Bool) : (c.setP i b).regs.budgOn = c.regs.budgOn := by unfold Core.setP; split <;> rfl
@[simp] theorem Core.setP_regs_budgDue (c : Core) (i : Nat) (b : Bool) : (c.setP i b).regs.budgDue = c.regs.budgDue := by unfold Core.setP; split <;> rfl
@[simp] theorem Core.getX_zero (c : Core) : c.getX 0 = 0 := rfl
@[simp] theorem Core.getP_zero (c : Core) : c.getP 0 = true := rfl

theorem Core.getX_setX (c : Core) (i : Nat) (w : W64) (r : Nat) :
    (c.setX i w).getX r = if r = i ∧ r ≠ 0 then w else c.getX r := by
  unfold Core.setX Core.getX
  by_cases hr : r = 0
  · simp [hr]
  · by_cases hi : i = 0
    · subst hi; simp [hr]
    · simp [hr, hi, SMap.get_set]

theorem Core.getF_setF (c : Core) (i : Nat) (w : W32) (r : Nat) :
    (c.setF i w).getF r = if r = i then w else c.getF r := SMap.get_set _ _ _ _ _

theorem Core.getP_setP (c : Core) (i : Nat) (b : Bool) (r : Nat) :
    (c.setP i b).getP r = if r = i ∧ r ≠ 0 then b else c.getP r := by
  unfold Core.setP Core.getP
  by_cases hr : r = 0
  · simp [hr]
  · by_cases hi : i = 0
    · subst hi; simp [hr]
    · simp [hr, hi, SMap.get_set]

@[simp] theorem Core.getF_setX (c : Core) (i : Nat) (w : W64) (r : Nat) : (c.setX i w).getF r = c.getF r := by
  unfold Core.setX; split <;> rfl
@[simp] theorem Core.getP_setX (c : Core) (i : Nat) (w : W64) (r : Nat) : (c.setX i w).getP r = c.getP r := by
  unfold Core.setX; split <;> rfl
@[simp] theorem Core.getL_setX (c : Core) (i : Nat) (w : W64) (r l : Nat) : (c.setX i w).getL r l = c.getL r l := by
  unfold Core.setX; split <;> rfl
@[simp] theorem Core.getX_setF (c : Core) (i : Nat) (w : W32) (r : Nat) : (c.setF i w).getX r = c.getX r := rfl
@[simp] theorem Core.getP_setF (c : Core) (i : Nat) (w : W32) (r : Nat) : (c.setF i w).getP r = c.getP r := rfl
@[simp] theorem Core.getL_setF (c : Core) (i : Nat) (w : W32) (r l : Nat) : (c.setF i w).getL r l = c.getL r l := rfl
@[simp] theorem Core.getX_setP (c : Core) (i : Nat) (b : Bool) (r : Nat) : (c.setP i b).getX r = c.getX r := by
  unfold Core.setP; split <;> rfl
@[simp] theorem Core.getF_setP (c : Core) (i : Nat) (b : Bool) (r : Nat) : (c.setP i b).getF r = c.getF r := by
  unfold Core.setP; split <;> rfl
@[simp] theorem Core.getL_setP (c : Core) (i : Nat) (b : Bool) (r l : Nat) : (c.setP i b).getL r l = c.getL r l := by
  unfold Core.setP; split <;> rfl

end Sys2Proof.Machine
end

