-- ==== Sys2Proof/Laws/Issue.lean ====
section
/-!
SUPPORT. Laws/Issue.lean: what the issue rule does, once for every core instruction: an instruction that can issue and meets no interlock
takes the effect of its plan; what the passing of a CCLK and the first issue of a run leave unchanged.
-/
namespace Sys2Proof.Machine

/-- An instruction that can issue, has no reserved field and a free unit takes its effect where its interlocks let it go. -/
theorem issueWith_commits {plan : Nat → Core → Job → Prog → Dev → Plan} {n : Nat} {q : Pred} {op : CoreOp} {d : Dev} {j : Job} {p : Prog}
    (h : CanIssue d n q (op.srcs ++ op.dsts) j p) (hr : op.reserved = false)
    (hu : ∀ u, op.unit? = some u → (d.core n).unitFree u)
    (hg : ((d.fetched n p).core n).gate (d.fetched n p).fno (decide (j.st = .presolving)) op.cost
      (plan n ((d.fetched n p).core n) j p (d.fetched n p)) = .go) :
    issueWith plan n q op d =
      (((d.fetched n p).commit n op.cost (plan n ((d.fetched n p).core n) j p (d.fetched n p))).cycle n).peakUp := by
  obtain ⟨k, hj⟩ := h.job
  have hrun : (d.core n).run = true ∧ (d.core n).dbg.halted = false := by
    have := h.ready
    simp only [Core.ready, Bool.and_eq_true, Bool.not_eq_true'] at this
    exact ⟨this.1.1.1.1.1.1, this.1.1.1.1.1.2⟩
  have hc : ((d.fetched n p).core n).ops = (d.core n).ops := by simp [Dev.fetched]
  have hx : ((d.fetched n p).core n).regs = (d.core n).regs := by simp [Dev.fetched]
  have hfree : ((d.fetched n p).core n).pendingAny (.p q.idx.toNat :: op.srcs ++ op.dsts) = false := by
    have := h.free
    simp only [Core.pendingAny, hc] at this ⊢
    simpa using this
  have hill : (op.reserved || predReserved q) = false := by simp [hr, h.field]
  have hunit : (op.unit?.map (fun u => ((d.fetched n p).core n).ops.any
      (fun o => decide (o.unit = u) && decide (0 < o.occ)))).getD false = false := by
    cases hop : op.unit? with
    | none => rfl
    | some u =>
      have hu := hu u hop
      simp only [Option.map_some, Option.getD_some, hc, List.any_eq_false, Bool.and_eq_true, decide_eq_true_eq, not_and]
      intro o ho hou
      have := hu o ho hou
      omega
  have hon : ((d.fetched n p).core n).predOn q = true := by
    have := h.on
    simp only [Core.predOn, Core.getP, hx] at this ⊢
    exact this
  have hearly : ((d.fetched n p).core n).early q op = .on := by
    unfold Core.early
    rw [if_neg (by rw [hfree]; decide), if_neg (by rw [hunit]; decide), if_neg (by rw [hill]; decide), if_pos hon]
  unfold issueWith
  simp only [hj, h.prog, hrun.1, hrun.2, h.noBreak, h.ready, hearly, h.live, Bool.not_true, Bool.or_self, Bool.false_eq_true,
    Option.isSome_none, if_false]
  simp only [Dev.tryIssue, hg]

/-! ### The passing of a CCLK -/

/-- A halted core only frees its banks (R866). -/
theorem Core.cycle_halted (c : Core) (h : c.dbg.halted = true) : c.cycle = c.rowCycle := by simp [Core.cycle, h]

theorem Core.cycle_going (c : Core) (h : c.dbg.halted = false) (hd : c.rows.drop = false) : c.cycle =
    { c with
      banks := SMap.mapV {} (fun _ b => b.cycle) c.banks
      ported := []
      haz := c.haz.cycle
      ops := c.ops.map Op.ticked
      regs := c.regs.budgetCycle c.run
      dbg := c.dbg.countAll c.cycleEvents
      spec := { c.spec with
        ra := if c.waitOver then none else c.spec.ra
        redirect := c.spec.redirect - 1
        waitCyc := if c.wait.raWait then c.spec.waitCyc + 1 else 0 } } := by
  simp [Core.cycle, h, Core.rowCycle, hd]

/-- The core after its ended instruction leases are settled. -/
def Core.settled (c : Core) : Core :=
  { c.endLeases with
    tok := { c.endLeases.tok with iend := c.endLeases.tok.iend - min c.endLeases.tok.iend (c.endLeases.cover - c.endLeases.demand) } }

theorem Dev.core_cycle (d : Dev) (n : Nat) : (d.cycle n).core n = (d.core n).cycle.settled := by
  simp [Dev.cycle, Dev.settleLeases, Core.settled, Dev.core, Dev.updCore]

/-! ### What issue leaves unchanged outside the core -/

theorem Outside.refl (d : Dev) (n : Nat) : Outside d d n := by constructor <;> simp

theorem Outside.trans {d t u : Dev} {n : Nat} (h : Outside d t n) (g : Outside t u n) : Outside d u n where
  cclk := g.cclk.trans h.cclk
  fno := g.fno.trans h.fno
  cores m hm := (g.cores m hm).trans (h.cores m hm)
  fuse := g.fuse.trans h.fuse
  glb := g.glb.trans h.glb
  kiln := g.kiln.trans h.kiln
  mbx := g.mbx.trans h.mbx
  ten := g.ten.trans h.ten
  progs := g.progs.trans h.progs
  queues := g.queues.trans h.queues
  syn := g.syn.trans h.syn
  sle := g.sle.trans h.sle
  mio := g.mio.trans h.mio
  cams := g.cams.trans h.cams
  eths := g.eths.trans h.eths
  net := g.net.trans h.net
  pcie := g.pcie.trans h.pcie
  mem := g.mem.trans h.mem
  err := g.err.trans h.err
  dbg := g.dbg.trans h.dbg
  pins := g.pins.trans h.pins
  free := g.free.trans h.free
  out := g.out.trans h.out

theorem Outside.updCore (d : Dev) (n : Nat) (f : Core → Core) : Outside d (d.updCore n f) n := by
  constructor <;> first | rfl | exact fun m hm => Dev.core_updCore_ne d n f hm

theorem Outside.blw (d : Dev) (n : Nat) (b : Blw) : Outside d { d with blw := b } n := by constructor <;> intros <;> rfl

theorem Outside.cycle (d : Dev) (n : Nat) : Outside d (d.cycle n) n := by
  refine (Outside.updCore d n Core.cycle).trans ((Outside.updCore _ n Core.endLeases).trans ?_)
  exact (Outside.updCore _ n (fun c => { c with tok := { c.tok with iend := c.tok.iend - _ } })).trans (.blw ..)

theorem Outside.peakUp (d : Dev) (n : Nat) : Outside d d.peakUp n := by constructor <;> intros <;> rfl

theorem Outside.updJob (d : Dev) (n k : Nat) (f : Job → Job) : Outside d (d.updJob k f) n := by constructor <;> intros <;> rfl

theorem Outside.markStart (d : Dev) (n m : Nat) : Outside d (d.markStart m) n := by
  unfold Dev.markStart
  split
  · split
    · exact .refl ..
    · exact .updJob ..
  · exact .refl ..

@[simp] theorem Dev.core_markStart (d : Dev) (n m : Nat) : (d.markStart n).core m = d.core m := by
  unfold Dev.markStart
  split
  · split <;> rfl
  · rfl

/-- The core after its instruction has issued, before the effect of the plan. -/
def Core.issued (c : Core) (w : Nat) (next : W64) : Core :=
  let c := (c.setPc next).committed
  let c := { c with haz := { c.haz with regAt := none } }
  if w = 0 then c else { c with tok := { c.tok with ireq := none, ilease := 0 } }

/-- The device after an instruction without a hazard has issued, before the effect of the plan. -/
theorem Dev.commit_eq (d : Dev) (n w : Nat) (p : Plan) (h : p.haz = []) :
    d.commit n w p = p.act (d.core n).tok.ilease ((d.markStart n).updCore n (·.issued w p.next)) := by
  simp only [Dev.commit, h, Core.issued, Core.hazards, List.foldl_nil, ite_self]

theorem Outside.commit (d : Dev) (n w : Nat) (p : Plan) (h : p.haz = [])
    (ha : ∀ il e, Outside e (p.act il e) n) : Outside d (d.commit n w p) n := by
  rw [Dev.commit_eq d n w p h]
  exact ((Outside.markStart d n n).trans (.updCore ..)).trans (ha ..)

/-! ### Instructions that write registers at once -/

/-- The core after an instruction that writes the results `ws` at once. -/
def Core.afterRegs (c : Core) (p : Prog) (ws : List RegWrite) : Core :=
  ((({ c with spec := c.spec.touch (p.line c.regs.pc) } : Core).issued 0 (c.regs.pc + 1)).writeRegs ws).cycle.settled

/-- A plan without interlocks goes. -/
theorem Core.gate_regs (c : Core) (fno : Nat) (pres : Bool) (n : Nat) (ws : List RegWrite) :
    c.gate fno pres 0 (Plan.regs n c ws) = .go := by
  simp [Core.gate, Plan.regs, Core.tokensOk, Core.rangeBlocked, lowest]

/-- An instruction whose results are formed at once: the device outside its core, and the core. -/
theorem issueWith_regs {plan : Nat → Core → Job → Prog → Dev → Plan} {n : Nat} {q : Pred} {op : CoreOp} {d : Dev} {j : Job} {p : Prog}
    {ws : List RegWrite} (h : CanIssue d n q (op.srcs ++ op.dsts) j p) (hr : op.reserved = false) (hu : op.unit? = none)
    (hc : op.cost = 0)
    (hp : plan n ((d.fetched n p).core n) j p (d.fetched n p) = Plan.regs n ((d.fetched n p).core n) ws) :
    Outside d (issueWith plan n q op d) n ∧ (issueWith plan n q op d).core n = (d.core n).afterRegs p ws := by
  rw [issueWith_commits h hr (by simp [hu]) (by rw [hp, hc]; exact Core.gate_regs ..), hp, hc]
  constructor
  · refine ((Outside.trans (.updCore d n _) (.commit _ n 0 _ rfl ?_)).trans (.cycle ..)).trans (.peakUp ..)
    exact fun _ e => .updCore e n _
  · rw [Dev.commit_eq _ _ _ _ rfl]
    simp only [Plan.regs, Dev.fetched, Dev.core_peakUp, Dev.core_cycle, Dev.core_updCore_self, Dev.core_markStart, Core.afterRegs]

/-! ### The core after its results are written -/

theorem Core.ready_going {c : Core} {p : Prog} (h : c.ready p = true) : c.dbg.halted = false := by
  simp only [Core.ready, Bool.and_eq_true, Bool.not_eq_true'] at h
  exact h.1.1.1.1.1.2

/-- What an instruction leaves of a core beside its registers, its operations and its pc. -/
structure Kept (c c' : Core) : Prop where
  store : SameStore c c'
  halted : c'.dbg.halted = c.dbg.halted
  ops : c'.ops = c.ops

theorem Core.passed_of_kept {c m : Core} (k : Kept c m) (h : c.dbg.halted = false) (hd : c.rows.drop = false) :
    SameStore c m.cycle.settled ∧ m.cycle.settled.ops = c.ops.map Op.passed ∧ SameX m m.cycle.settled ∧ SameF m m.cycle.settled ∧
    SameP m m.cycle.settled ∧ SameV m m.cycle.settled ∧ m.cycle.settled.regs.pc = m.regs.pc := by
  have hm : m.dbg.halted = false := by rw [k.halted, h]
  have hr : m.rows.drop = false := by rw [k.store.rows, hd]
  rw [Core.cycle_going m hm hr]
  obtain ⟨s, _, ho⟩ := k
  refine ⟨?_, ?_, ?_, ?_, ?_, ?_, rfl⟩
  · obtain ⟨⟩ := s
    constructor <;> simp only [Core.settled, Core.endLeases, CoreRegs.budgetCycle] <;> assumption
  · simp only [Core.settled, Core.endLeases, ho, List.map_map]
    rfl
  all_goals intros; intro; intros; rfl

/-- An instruction has issued: what it leaves of its core, and where the pc is. -/
theorem Core.issued_spec (c : Core) (p : Prog) : ∃ m, ({ c with spec := c.spec.touch (p.line c.regs.pc) } : Core).issued 0 (c.regs.pc + 1) = m ∧
    Kept c m ∧ SameX c m ∧ SameF c m ∧ SameP c m ∧ SameV c m ∧ m.regs.pc = c.regs.pc + 1 := by
  refine ⟨_, rfl, ⟨?_, ?_, ?_⟩, fun r => ?_, fun r => ?_, fun r => ?_, fun r l => ?_, ?_⟩
  · constructor <;> simp [Core.issued]
  all_goals simp [Core.issued, Core.committed, Core.pmcAdd, Core.setPc, Core.getX, Core.getF, Core.getP, Core.getL]

/-- One x register written. -/
theorem Core.afterRegs_x (c : Core) (p : Prog) (d : Nat) (w : W64) (h : c.dbg.halted = false) (hd : c.rows.drop = false) :
    let c' := c.afterRegs p [.x d w]
    SameStore c c' ∧ c'.ops = c.ops.map Op.passed ∧ (∀ r, c'.getX r = if r = d ∧ r ≠ 0 then w else c.getX r) ∧
    SameF c c' ∧ SameP c c' ∧ SameV c c' ∧ c'.regs.pc = c.regs.pc + 1 := by
  obtain ⟨m, e, ⟨⟨⟩, mh, mo⟩, mx, mf, mq, mv, mpc⟩ := Core.issued_spec c p
  have k : Kept c (m.setX d w) := by
    refine ⟨?_, by simpa using mh, by simpa using mo⟩
    constructor <;> simpa
  obtain ⟨s, o, x, f, q, v, pc⟩ := Core.passed_of_kept k h hd
  simp only [Core.afterRegs, e, Core.writeRegs, Core.writeReg, List.foldl_cons, List.foldl_nil]
  refine ⟨s, o, ?_, ?_, ?_, ?_, pc.trans (by simpa using mpc)⟩
  · intro r; rw [x, Core.getX_setX, mx]
  · intro r; rw [f, Core.getF_setX, mf]
  · intro r; rw [q, Core.getP_setX, mq]
  · intro r l; rw [v, Core.getL_setX, mv]

/-- One f register written. -/
theorem Core.afterRegs_f (c : Core) (p : Prog) (d : Nat) (w : W32) (h : c.dbg.halted = false) (hd : c.rows.drop = false) :
    let c' := c.afterRegs p [.f d w]
    SameStore c c' ∧ c'.ops = c.ops.map Op.passed ∧ (∀ r, c'.getF r = if r = d then w else c.getF r) ∧
    SameX c c' ∧ SameP c c' ∧ SameV c c' ∧ c'.regs.pc = c.regs.pc + 1 := by
  obtain ⟨m, e, ⟨⟨⟩, mh, mo⟩, mx, mf, mq, mv, mpc⟩ := Core.issued_spec c p
  have k : Kept c (m.setF d w) := by
    refine ⟨?_, by simpa using mh, by simpa using mo⟩
    constructor <;> simpa
  obtain ⟨s, o, x, f, q, v, pc⟩ := Core.passed_of_kept k h hd
  simp only [Core.afterRegs, e, Core.writeRegs, Core.writeReg, List.foldl_cons, List.foldl_nil]
  refine ⟨s, o, ?_, ?_, ?_, ?_, pc.trans (by simpa using mpc)⟩
  · intro r; rw [f, Core.getF_setF, mf]
  · intro r; rw [x, Core.getX_setF, mx]
  · intro r; rw [q, Core.getP_setF, mq]
  · intro r l; rw [v, Core.getL_setF, mv]

/-- One p register written. -/
theorem Core.afterRegs_p (c : Core) (p : Prog) (d : Nat) (b : Bool) (h : c.dbg.halted = false) (hd : c.rows.drop = false) :
    let c' := c.afterRegs p [.p d b]
    SameStore c c' ∧ c'.ops = c.ops.map Op.passed ∧ (∀ r, c'.getP r = if r = d ∧ r ≠ 0 then b else c.getP r) ∧
    SameX c c' ∧ SameF c c' ∧ SameV c c' ∧ c'.regs.pc = c.regs.pc + 1 := by
  obtain ⟨m, e, ⟨⟨⟩, mh, mo⟩, mx, mf, mq, mv, mpc⟩ := Core.issued_spec c p
  have k : Kept c (m.setP d b) := by
    refine ⟨?_, by simpa using mh, by simpa using mo⟩
    constructor <;> simpa
  obtain ⟨s, o, x, f, q, v, pc⟩ := Core.passed_of_kept k h hd
  simp only [Core.afterRegs, e, Core.writeRegs, Core.writeReg, List.foldl_cons, List.foldl_nil]
  refine ⟨s, o, ?_, ?_, ?_, ?_, pc.trans (by simpa using mpc)⟩
  · intro r; rw [q, Core.getP_setP, mq]
  · intro r; rw [x, Core.getX_setP, mx]
  · intro r; rw [f, Core.getF_setP, mf]
  · intro r l; rw [v, Core.getL_setP, mv]

end Sys2Proof.Machine
end

