-- ==== Sys2Proof/Tests/Slice0.lean ====
section
/-!
SUPPORT. Tests/Slice0.lean: small checks of the model against the spec's tables and examples, and for each statement about states or
operands that meet conditions a concrete case that meets them.
-/
namespace Sys2Proof.Tests
open Sys2Proof Sys2Proof.Machine
-- One theorem after another: a check in the kernel holds a whole thread, and many at once use up the memory for stacks.
set_option Elab.async false

/-! ### Ill-formed commands (WellFormed.lean) -/

/-- A memory request carries at least one byte. -/
theorem test_wf_empty_write : (Instr.bar4Write 0 0 [] false).wf = false := by decide
/-- A memory request does not cross a 4 KiB boundary. -/
theorem test_wf_crossing_write : (Instr.bar4Write 0 4095 [1, 2] false).wf = false := by decide
theorem test_wf_empty_read : (Instr.bar4Read 0 0 { val := 0 }).wf = false := by decide
theorem test_wf_crossing_read : (Instr.bar4Read 0 4090 { val := 7 }).wf = false := by decide
theorem test_wf_last_bytes : (Instr.bar4Read 0 4090 { val := 6 }).wf = true := by decide
/-- A command that cannot be sent is refused. -/
theorem test_refused : exec (.bar4Write 0 0 [] false) State.reset = .refused .illFormed := rfl

/-! ### Core instruction words (Tables 7-3, 7-5, 9-1) -/

/-- A word from its fields: value and lowest bit. -/
def word (l : List (Nat × Nat)) : BitVec 128 := BitVec.ofNat 128 (l.map (fun x => x.1 * 2 ^ x.2)).sum

/-- The predicate that is always on. -/
def p0 : Pred := { inv := false, idx := 0 }

theorem test_word_add : decodeCore (word [(1, 127), (5, 124), (3, 103), (1, 98), (2, 93)]) =
    some ({ inv := true, idx := 5 }, .alu .add 3 1 (.reg 2)) := by decide
theorem test_word_shl_imm : decodeCore (word [(0x01, 116), (0x05, 108), (4, 103), (1, 98), (7, 0)]) = some (p0, .alu .shl 4 1 (.imm 7)) := by
  decide
theorem test_word_mulh : decodeCore (word [(0x02, 116), (0x02, 108), (4, 103), (1, 98), (7, 93)]) = some (p0, .md .mulhU 4 1 7) := by decide
theorem test_word_st : decodeCore (word [(0x03, 116), (0x01, 108), (2, 98), (5, 93), (9, 64), (16, 0)]) = some (p0, .st false 2 5 9 16) := by
  decide
theorem test_word_fmadd : decodeCore (word [(0x20, 116), (0x03, 108), (1, 103), (2, 98), (3, 93), (4, 88), (2, 64)]) =
    some (p0, .fma 1 2 3 4 .rtz) := by decide
theorem test_word_loop : decodeCore (word [(0x30, 116), (0x03, 108), (1, 103), (2, 98), (2 ^ 64 - 1, 0)]) =
    some (p0, .loop 1 2 0xFFFFFFFFFFFFFFFF) := by decide
theorem test_word_sr_read : decodeCore (word [(0x40, 116), (1, 103), (4, 64)]) = some (p0, .srRead 1 4) := by decide
theorem test_word_job_done : decodeCore (word [(0x43, 116), (0x01, 108), (1, 98), (2, 93), (3, 88), (5 + 2 * 64 + 0x80 * 1024, 64), (7, 0)]) =
    some (p0, .jobDone 1 2 3 5 2 0x80 7) := by decide
theorem test_word_vadd : decodeCore (word [(0x51, 116), (1, 103), (2, 98), (3, 93), (1, 64)]) = some (p0, .vbin .add 1 2 3 .rne) := by decide
theorem test_word_dma_rd : decodeCore (word [(0xA0, 116), (3, 102), (4, 92), (1, 82), (7, 78), (7, 47), (1, 20), (2, 15), (0, 10), (1, 0)]) =
    some (p0, .dmaRd { h := 3, o := 4, n := 1, f := 7, b := false } 7 false 1 2 0 true) := by decide
theorem test_word_ring_pop : decodeCore (word [(0xA2, 116), (0x02, 108), (6, 98), (3, 64)]) = some (p0, .ringPop 6 3) := by decide
/-- A field that the instruction does not use is reserved (R287). -/
theorem test_word_unused_field : decodeCore (word [(3, 103), (1, 98), (2, 93), (1, 88)]) = none := by decide
/-- A pair of opcodes that no table lists (R312). -/
theorem test_word_unlisted : decodeCore (word [(0x0D, 108)]) = none := by decide
/-- The reserved predicate: PINV = 1 with PIDX = 0 (R284). -/
theorem test_word_reserved_predicate : decodeCore (word [(1, 127), (3, 103), (1, 98), (2, 93)]) = none := by decide
/-- A v register field with bit 4 set (R288). -/
theorem test_word_v_register : decodeCore (word [(0x51, 116), (16, 103), (2, 98), (3, 93)]) = none := by decide

/-! ### A device on which core 0 runs a job -/

/-- Handle 1: eight rows of ASP from row 0. -/
def hword : W64 := BitVec.ofNat 64 0x8000000000200000

/-- A program of 100 instructions and two phases. -/
def prog : Prog := { codeLen := 1600, nPhase := 2, claims := [0, 2], handles := [hword], paramH := 0, base := 0x10000, ttfe := 100 }

/-- A submission with a deadline at time 2^40. -/
def entry : BitVec 512 := BitVec.ofNat 512 (2 ^ 40 * 2 ^ 64)

/-- A job that runs on core 0. -/
def job : Job := { queue := 0, tenant := 0, entry := entry, st := .running, seq := 0, ovf := none, code := 0, watchSat := false, measSat := false, prog := 0, n := 1, epoch := 0, cores := [0], predicted := false, loading := false, squashing := false, stopped := false, again := false, delivered := false, accepted := false, start := some 1, emberFrom := none, fired := false, squashed := false, retried := false, overrun := false, emberLate := false, outRsv := false, detached := false, fin := none, pst := none, desc := {}, halt := none }


/-- Core 0, about to issue the first instruction of the program. -/
def core : Core := { st := .active, alloc := some 0, job := some 0, run := true, spec := { icache := [(0, [1024])] }, rows := { handles := [(1, hword)] } }

/-- A queue with entries of 64 and 32 bytes in DRAM. -/
def queue : Queue := { desc := { sqBase := 0x1000, cqBase := 0x2000, headWb := 0x3000, sqLog := 4, cqLog := 4, maxInfl := 4 }, bind := some { prog := 0, nreq := 1, n := 1 } }

/-- The device with core 0 and its job as given. -/
def dev (c : Core) (j : Job) : Dev := { Dev.reset with
  glb := { phase := .ready, time := 1000 }, kiln := { fw := .fw, booted := true }, cores := [(0, c)], progs := [(0, some prog)],
  stk := { jobs := [(0, some j)], queues := [(0, some queue)] }, mem := { usable := 2 ^ 33 }, pins := { rstLow := false, lost := false },
  syn := { owner := [(0, 1)] } }

/-- That device, with no command waiting. -/
def st (d : Dev) : State := { pending := [], dev := d }

/-- Every core instruction can issue on it. -/
theorem can_issue (rs : List RegId) : CanIssue (dev core job) 0 p0 rs job prog where
  job := ⟨0, by decide +kernel⟩
  prog := by decide +kernel
  noBreak := by decide +kernel
  ready := by decide +kernel
  field := by decide +kernel
  free := by simp [Core.pendingAny, dev, core, Dev.core, SMap.get]
  on := by decide +kernel
  live := rfl
  settled := by decide +kernel

/-- The device after a command; the device before where it stops. -/
def after (i : Instr) (d : Dev) : Dev := match exec i (st d) with
  | .next t => t.dev
  | _ => d

/-- Core 0 after a command sent to the device with that core. -/
def run (i : Instr) (c : Core) : Core := (after i (dev c job)).core 0

/-- The core with x1 and x2. -/
def withX (a b : W64) : Core := { core with regs := { x := (if a = 0 then [] else [(1, a)]) ++ (if b = 0 then [] else [(2, b)]) } }

/-! ### Results of instructions (Tables 8-1 to 8-7) -/

theorem test_add_wraps : (run (.add 0 p0 3 1 2) (withX 0xFFFFFFFFFFFFFFFF 2)).getX 3 = 1 := by decide +kernel
theorem test_add_pc : (run (.add 0 p0 3 1 2) (withX 1 2)).regs.pc = 1 := by decide +kernel
theorem test_write_of_x0_is_ignored : (run (.add 0 p0 0 1 2) (withX 1 2)).getX 0 = 0 := by decide +kernel
theorem test_sra : (run (.sra 0 p0 3 1 2) (withX 0x8000000000000000 127)).getX 3 = 0xFFFFFFFFFFFFFFFF := by decide +kernel
theorem test_min_is_signed : (run (.min 0 p0 3 1 2) (withX 0xFFFFFFFFFFFFFFFF 1)).getX 3 = 0xFFFFFFFFFFFFFFFF := by decide +kernel
theorem test_min_u : (run (.minU 0 p0 3 1 2) (withX 0xFFFFFFFFFFFFFFFF 1)).getX 3 = 1 := by decide +kernel
theorem test_cmp_lt : (run (.cmpLt 0 p0 1 1 2) (withX 0xFFFFFFFFFFFFFFFF 1)).getP 1 = true := by decide +kernel
theorem test_call : (run (.call 0 p0 5 10) core).getX 5 = 1 ∧ (run (.call 0 p0 5 10) core).regs.pc = 10 := by decide +kernel
theorem test_loop_ends : (run (.loop 0 p0 1 1 5) (withX 1 0)).regs.pc = 1 := by decide +kernel
theorem test_fli : (run (.fli 0 p0 1 0x3F800000) core).getF 1 = 0x3F800000 := by decide +kernel
/-- 1.0 + 2^-24 rounds to even. -/
theorem test_fadd_rounds_to_even :
    (run (.fadd 0 p0 3 1 2 .rne) { core with regs := { f := [(1, 0x3F800000), (2, 0x33800000)] } }).getF 3 = 0x3F800000 := by decide +kernel
/-- fcvt.l.s of a NaN gives 0 (R328). -/
theorem test_fcvt_nan : (run (.fcvtLS 0 p0 3 1 .rne) { core with regs := { f := [(1, 0x7FC00000)] } }).getX 3 = 0 := by decide +kernel
/-- rem.u by 0 leaves the dividend in flight for 4 CCLK (R319). -/
theorem test_rem_by_zero : (run (.remU 0 p0 3 1 2) (withX 7 0)).ops.map (fun o => (o.kind, o.left)) = [(.regs [.x 3 7], 3)] := by decide +kernel
/-- div.s of the most negative number by -1 returns it (R320). -/
theorem test_div_overflow : (run (.divS 0 p0 3 1 2) (withX 0x8000000000000000 0xFFFFFFFFFFFFFFFF)).ops.map Op.kind =
    [.regs [.x 3 0x8000000000000000]] := by decide +kernel
/-- A misaligned ld ends the job FAULT with syndrome 0x03 (R323). -/
theorem test_misaligned_load : ((after (.ld 0 p0 3 1 1 4) (dev core job)).job 0).map (fun j => (j.fin.map JobEnd.detail)) =
    some (some 0x00000003) := by decide +kernel

/-! ### Cases that meet the conditions of the statements

Each theorem names the statement, and shows a state and operands that meet its conditions. -/

theorem case_EmptyQueueLetsACclkPass : (dev core job).clocked = true ∧ Dev.reset.clocked = false := by decide +kernel
theorem case_CommandsKeepTheQueueAndGoOn : (∃ t, exec .tclkTick State.reset = .next t) ∧ (Instr.tclkTick).wf = true ∧
    (Instr.bar4Write 0 0 [] false).wf = false := ⟨⟨_, rfl⟩, rfl, by decide⟩
/-- The conditions of IntegerInstructions, ComparesAndPredicates and Binary32Instructions on registers. -/
theorem case_IntegerInstructions : CanIssue (dev core job) (0 : CoreN).val p0 [.x (1 : Reg).toNat, .x (2 : Reg).toNat, .x (31 : Reg).toNat] job prog ∧
    CanIssue (dev core job) (0 : CoreN).val p0 [.x (1 : Reg).toNat, .x (0 : Reg).toNat] job prog ∧
    CanIssue (dev core job) (0 : CoreN).val p0 [.x (1 : Reg).toNat, .x (2 : Reg).toNat, .p (7 : PReg).toNat, .x (3 : Reg).toNat] job prog :=
  ⟨can_issue _, can_issue _, can_issue _⟩

/-- A finished operation that writes x3. -/
def doneOp : Op := { seq := 0, unit := .mul, kind := .regs [.x 3 9], dst := [.x 3], left := 0, occ := 0, cost := 0, ilease := 0, fp := false, versioned := false, holds := [] }

theorem case_MultiplyAndDivide : CanIssue (dev core job) (0 : CoreN).val p0 [.x (1 : Reg).toNat, .x (2 : Reg).toNat, .x (3 : Reg).toNat] job prog ∧
    core.unitFree .mul ∧ core.unitFree .div ∧ core.getX 2 = 0 ∧
    (({ core with ops := [doneOp] } : Core).ops.find? (fun o => decide (o.left = 0) && o.results.isSome)) = some doneOp ∧
    doneOp.results = some [.x 3 9] :=
  ⟨can_issue _, (by intro o h; cases h), (by intro o h; cases h), by decide, by decide, by decide⟩

theorem case_ComparesAndPredicates : CanIssue (dev core job) (0 : CoreN).val p0 [.f (1 : Reg).toNat, .f (2 : Reg).toNat, .p (7 : PReg).toNat] job prog ∧
    CanIssue (dev core job) (0 : CoreN).val p0 [.p (1 : PReg).toNat, .p (2 : PReg).toNat, .p (0 : PReg).toNat] job prog ∧
    rd32 0 0x7F800001 = .nan ∧ rd32 0 0x3F800000 ≠ .nan := ⟨can_issue _, can_issue _, by decide +kernel, by decide +kernel⟩

theorem case_Binary32Instructions : CanIssue (dev core job) (0 : CoreN).val p0 [.f (1 : Reg).toNat, .f (2 : Reg).toNat, .f (3 : Reg).toNat, .f (4 : Reg).toNat] job prog ∧
    CanIssue (dev core job) (0 : CoreN).val p0 [.f (1 : Reg).toNat, .x (3 : Reg).toNat] job prog ∧ core.unitFree .fdiv :=
  ⟨can_issue _, can_issue _, (by intro o h; cases h)⟩

/-- The last instruction of the code is a legal target, and the one after it is none. -/
theorem case_BranchesAndMisprediction : CanIssue (dev core job) (0 : CoreN).val p0 [] job prog ∧ prog.inCode (core.regs.pc + 99) = true ∧
    prog.inCode (core.regs.pc + 100) = false ∧ ({ core with spec := { core.spec with wrong := true } } : Core).spec.redirect = 0 :=
  ⟨can_issue _, by decide, by decide, rfl⟩

/-- x1 waits for a long operation. -/
def waiting : Core := { core with ops := [{ doneOp with dst := [.x 1], left := 3 }] }
/-- Core 0 past the end of its code. -/
def atEnd : Core := { core with regs := { pc := 100 } }

theorem case_IssueHoldsAndUndefinedWords :
    (Instr.add 0 { inv := true, idx := 1 } 3 1 2).core? = some (0, { inv := true, idx := 1 }, .alu .add 3 1 (.reg 2)) ∧
    ({ core with regs := { p := [(1, true)] } } : Core).predOn { inv := true, idx := 1 } = false ∧
    waiting.pendingAny [.p 0, .x 1, .x 2, .x 3] = true ∧ waiting.ready prog = true ∧
    (dev core job).coreJob 0 = some (0, job) ∧ (dev core job).prog job.prog = some prog ∧ (dev core job).expired job = false ∧
    decodeCore (word [(0x0D, 108)]) = none ∧
    (CoreOp.vld 0 0 0 7 false 0 0).reserved = true ∧ predReserved { inv := true, idx := 0 } = true ∧
    prog.inCode atEnd.regs.pc = false := by and_intros <;> decide +kernel

/-- x1 holds an offset, x2 a value; handle 1 is bound to eight rows. -/
theorem case_NarrowLoadsAndStores :
    CanIssue (dev core job) (0 : CoreN).val p0 [.x (1 : Reg).toNat, .x (3 : Reg).toNat] job prog ∧
    handleSynd (core.handle 1) [0, 1, 2] 7 = [] ∧ (core.handle 1).count ≤ 8 ∧ (core.handle 1).valid = true ∧ (core.handle 2).valid = false ∧
    core.rangeBlocked (mkHold false 0 [7]) = false ∧ core.rangeBlocked (mkHold true 0 [7]) = false ∧ core.narrowPortBusy 0 = false ∧
    core.haz.mode = 0 := ⟨can_issue _, by decide +kernel⟩
theorem case_NarrowStores : core.writable false (core.handle 1) := ⟨fun _ => rfl, rfl⟩

/-- A load and a store that stand at bank 0 of ASP. -/
def loadOp : Op := { doneOp with unit := .narrow, kind := .load 3 0 0 8 8 }
def storeOp : Op := { doneOp with unit := .narrow, kind := .store 0 0 8 [1, 2, 3, 4] }
theorem case_GrantPerformsTheNarrowAccess :
    ({ core with ops := [loadOp] } : Core).askAt 4 0 0 = some (.op loadOp, 0) ∧
    ({ core with ops := [storeOp] } : Core).askAt 4 0 0 = some (.op storeOp, 0) ∧
    (∀ port < 4, ({ core with ops := [loadOp] } : Core).askAt port 0 0 = none ∧ ({ core with ops := [storeOp] } : Core).askAt port 0 0 = none) ∧
    (SMap.get ({} : Bank) core.banks 0).used = false := by
  decide +kernel
theorem case_Sound (mem row : Nat) (ws : List Nat) : core.sound mem row ws := by simp [Core.sound, core, SMap.get]
/-- A granted store writes its bytes and leaves the core. -/
theorem test_grant_store : let c := run (.scratchpadGrant 0 0 0 false 0 0 false) { core with ops := [storeOp] }
    Memory.readN 0 c.sp 8 4 = [1, 2, 3, 4] ∧ c.ops = [] := by decide +kernel

theorem case_SpecialRegistersAndPhases : CanIssue (dev core job) (0 : CoreN).val p0 [.x (3 : Reg).toNat] job prog ∧
    core.ops.any Op.fp = false ∧ (1 : BitVec 6).toNat < prog.nPhase ∧
    ({ core with regs := { budgDue := true } } : Core).regs.budgDue = true := ⟨can_issue _, rfl, by decide, rfl⟩

theorem case_CoreSyncInstructions : CanIssue (dev core job) (0 : CoreN).val p0 [.x (1 : Reg).toNat, .x (2 : Reg).toNat] job prog ∧
    (dev core job).ownsCtr 0 255 = true ∧ (dev core job).ownsCtr 0 256 = false ∧ job.st ≠ .presolving ∧ core.rows.flip = false :=
  ⟨can_issue _, by decide +kernel, by decide +kernel, by decide, rfl⟩

/-- An ember save whose rows are copied. -/
def saveOp : Op := { doneOp with unit := .ember, kind := .ember [] (List.replicate 512 0) 0x3F800000 7 }
theorem case_EmberSaveAndJobDone : CanIssue (dev core job) (0 : CoreN).val p0 [.x (1 : Reg).toNat, .f (2 : Reg).toNat, .x (3 : Reg).toNat] job prog ∧
    core.idx = 0 ∧ resultSynds (decodeHandle (hword + 1)) 8 0 = [] ∧ resultSynds (core.handle 0) 0 0 = [] ∧
    core.rangeBlocked (mkHold false 0 (List.range 8)) = false ∧
    saveOp.kind = .ember [] (List.replicate 512 0) 0x3F800000 7 ∧ saveOp.left = 0 ∧
    (0 : CoreN).val ∈ job.cores ∧ core.haz.mode ≠ 2 := ⟨can_issue _, rfl, by decide +kernel, by decide +kernel, by decide +kernel, rfl, rfl, by decide, by decide⟩
/-- job.done retires: the end is fixed, and the core runs on to the next FCLK cycle, in which it stops. -/
theorem test_job_done : let d := after (.jobDoneRetire 0) (dev { core with wait := .done 0 1 2 3 0 0 0 [] } job)
    (d.job 0).map (fun j => (j.fin.map JobEnd.final, j.stopped)) = some (some 0, false) ∧ (d.core 0).run = true ∧
    ((d.stopJob 0).core 0).run = false := by decide +kernel

/-- The job while it is pre-solving, its measurement delivered. -/
def presolving : Job := { job with st := .presolving, delivered := true }
theorem case_SpecAccept : CanIssue (dev core job) (0 : CoreN).val p0 [.p (1 : PReg).toNat] job prog ∧
    (dev core presolving).coreJob 0 = some (0, presolving) ∧ (dev core presolving).expired presolving = false ∧
    ({ core with regs := { p := [(1, true)] } } : Core).getP 1 = true ∧ core.getP 1 = false :=
  ⟨can_issue _, by decide +kernel, by decide +kernel, by decide, by decide⟩

/-- A core with a claim of two half-tokens and two reserved, and one without. -/
def covered : Core := { core with tok := { rho := 2, claim := 2 } }
theorem case_VectorInstructions : CanIssue (dev core job) (0 : CoreN).val p0 [.v (1 : VReg).toNat, .v (2 : VReg).toNat, .v (3 : VReg).toNat] job prog ∧
    covered.tokensOk 1 = true ∧ core.tokensOk 1 = false ∧ core.vuPortBusy 0 = false ∧
    (CoreOp.vld 0 1 1 2 false 0 0).reserved = false ∧ (CoreOp.vst 1 0 0 1 2 false 0 false 0).reserved = false ∧
    (CoreOp.rcount 0 1 2 1 8 0 6 0).reserved = false ∧
    handleSynd (core.handle 1) [0, 1, 2] 7 = [] := by refine ⟨can_issue _, ?_⟩; and_intros <;> decide +kernel

/-- Tile of handle 1, row 0, one row, binary32. -/
def tile : Tile := { h := 1, o := 0, n := 0, f := 0, b := false }
/-- The covered core with handle 3 bound to RSP for the result, remote. -/
def mmaCore : Core := { covered with rows := { handles := [(1, hword), (3, hword ||| 0x800000002)] } }
theorem case_MatrixProduct : CanIssue (dev mmaCore job) (0 : CoreN).val p0 [.x (0 : Reg).toNat, .x (0 : Reg).toNat, .x (0 : Reg).toNat] job prog →
    mmaCore.unitFree .mxe ∧ (CoreOp.mma (.of tile) (.of tile) 3 0 0 0 0 false 0 0).reserved = false ∧
    mmaCore.gate 0 false 2 (planMma (.of tile) (.of tile) 3 0 0 0 0 false 0 0 0 mmaCore false) = .go := fun _ =>
  ⟨(by intro o h; cases h), by decide +kernel, by decide +kernel⟩

/-- A product whose rows are read, before its last result row. -/
def mmaOp : Op := { doneOp with unit := .mxe, kind := .mma { fmtA := 0, fmtB := 0, bs := 0, k := 32, q := 0, acc := false, aRows := [(0, 0, none, 0)], bRows := [(0, 1, none, 0)], cRows := [5], cSrc := [], fpc := 0 } [] [] [] 0 }
theorem case_ResultRows : let c := { core with ops := [mmaOp] }
    c.ops = [mmaOp] ∧ (SMap.get ({} : Bank) c.banks (2 * 8 + bankOf 5)).used = false ∧ c.ported = [] ∧ mmaOp.left ≤ 1 := by decide +kernel
/-- The granted result row is written, and the product is done. -/
theorem test_result_row : let c := run (.scratchpadGrant 0 2 5 false 0 0 false) { core with ops := [mmaOp] }
    c.ops.map (fun o => match o.kind with | .mma _ _ _ _ w => w | _ => 9) = [1] := by decide +kernel

/-- A transfer of one row between address 0x4000 and row 0 of ASP. -/
def xfer : Dma := { rd := true, async := true, mem := 0, f0 := 2, f1 := 2, bs := 0, rows := [(0, none, 0)], moved := 0, data := none, addr := 0x4000, stride := 512, rowLen := 512, actr := some 3, fpc := 0, reseed := none, versioned := false, holds := [] }
theorem case_LocalTransfers : dmaReserved true (.of tile) 0 false 0 = false ∧ dmaReserved false (.of tile) 0 false 0 = false ∧
    core.gate 0 false 0 (planDma true false (.of tile) 0 0 0 0 0 core job false (dev core job)) = .go ∧
    (dev { core with dmaq := [xfer] } job).coreJob 0 = some (0, job) ∧ xfer.addr + 512 ≤ (dev core job).usable ∧
    (dev core job).mem.poison = [] ∧ job.fin = none ∧ (dev core job).expired job = false ∧ (dev core job).dbg.on = false := by
  and_intros <;> decide +kernel
theorem case_Uncontended : Uncontended { core with dmaq := [xfer] } 2 0 0 ∧ Uncontended core 3 0 0 := by
  refine ⟨⟨fun p hp => ?_, by decide +kernel, by decide +kernel⟩, ⟨fun p hp => ?_, by decide +kernel, by decide +kernel⟩⟩ <;>
    rcases p with _ | _ | _ | _ | _ | p <;> first
      | exact absurd rfl hp
      | decide +kernel
      | (simp [Core.askAt, Core.ask])
/-- The row at address 0x4000 arrives in row 0. -/
theorem test_dma_row : let d := dev { core with dmaq := [xfer] } job
    (((after (.dmaRowResident 0 []) { d with mem := { d.mem with dram := [(0x4000, 7)] } }).core 0).spRow 0 0).head? = some 7 := by
  decide +kernel

/-- Core 0 with a ring on handle 2 and a push to it. -/
def ringCore : Core := { core with
  rows := { handles := [(1, hword), (2, hword ||| 0x400000000)] }, rq := [{ ring := true, mem := 0, rows := [0], sent := [], dst := 0, handle := 2, row := 0, holds := [] }] }
theorem case_RemoteTransfersAndRings : (ringCore.handle 2).ring = true ∧ (ringCore.handle 2).valid = true ∧
    (dev ringCore job).coreJob 0 = some (0, job) ∧ (ringCore.rq.map Remote.rows) = [[0]] ∧ ringCore.ringFree 0 2 = 8 ∧
    ringCore.gate 0 false 0 (planRingPush 1 0 0 2 0 0 ringCore job false (dev ringCore job)) = .go ∧
    mmaCore.gate 0 false 0 (planRwPut 1 0 0 3 0 0 0 0 mmaCore job false) = .go ∧
    8 ≤ ringCore.ringFree 0 2 ∧ ringCore.rq.length < 8 := by
  and_intros <;> decide +kernel

/-- The row of a push travels, and is written with the end of the FCLK cycle. -/
theorem test_remote_row : let d := after (.remoteRowArrive 0 .clean) (dev { ringCore with sp := [(0, 7)] } job)
    ((d.core 0).inb.map (fun r => (r.ring, r.handle, r.bytes.length, r.bytes.head?))) = [(true, 2, 512, some 7)] ∧
    ((d.writeInbound 0).core 0).inb = [] ∧ SMap.get 0 ((d.writeInbound 0).core 0).rows.tc 2 = 1 := by decide +kernel

/-- A window on the core, and the ports and banks that its load meets. -/
def window : RunAhead := { x := [], f := [], p := [], bad := [], pc := 0, issued := 0, fills := 0, hints := 0, stopped := false, dirty := [], dirtyAll := false }
def shadowed (f : Option Nat) : Core := { core with wait := .sync 0 1 false, spec := { core.spec with ra := some window, raFill := f } }
theorem case_RunAhead (m row : Nat) : ((shadowed none).shadow window).raGrants m row = true := by
  simp [Core.raGrants, Core.shadow, shadowed, window, core, SMap.get, Core.narrowPortBusy, Core.askAt, Core.ask, Core.rangeBlocked, Core.holds, Wait.holds, mkHold]
theorem case_CacheAndRunAhead : (({ core with spec := {} } : Core).spec.hit (prog.line core.regs.pc)) = false ∧
    (0 : BitVec 26).toNat = core.regs.pc.toNat / 4 ∧ prog.inCode core.regs.pc = true ∧
    (Wait.sync 0 1 false).raWait = true ∧ ({ core.spec with eff := 1, waitCyc := 16 } : CoreSpec).eff.getLsbD 0 = true ∧
    core.spec.hit (prog.line 0) = true ∧ (shadowed (some 1025)).waitOver = false ∧ (shadowed (some 1025)).rows.drop = false ∧
    (prog.base + prog.codeOfs) / 64 + (1 : BitVec 26).toNat = 1025 ∧ (dev core job).mem.poison = [] := by and_intros <;> decide +kernel

/-- The device with a request of one half-token by core 0. -/
def leaseDev : Dev := { dev { core with tok := { rho := 1, preq := some (1, 0) } } job with fno := 1 }
theorem case_LeasesAndReservations : leaseDev.firstReq = some (0, 0, false, 1) ∧ (0 : Nat) < leaseDev.fno ∧ leaseDev.raisePending = none ∧ leaseDev.poolStop = false ∧
    1 ≤ leaseDev.float ∧ leaseDev.leased + 1 ≤ leaseDev.leaseCap ∧
    (dev { core with tok := { rho := 1, raise := some 2 } } job).raisePending = some 0 ∧
    2 - 1 ≤ (dev { core with tok := { rho := 1, raise := some 2 } } job).float ∧ (0 : BitVec 6).toNat ≤ leaseDev.blw.returning := by
  and_intros <;> decide +kernel

/-- A device with two entries to fetch from queue 0. -/
def fetchDev : Dev := let d := dev core job; { d with stk := { d.stk with queues := [(0, some { queue with tail := 2 })] } }
theorem case_Doorbells : fetchDev.queue 0 = some { queue with tail := 2 } ∧ queue.tenant = (0 : Fn).val ∧
    (15 : Nat) < queue.desc.sqSize ∧ queue.desc.sqSize ≤ 16 ∧ (15 * 2 ^ 32 : W64).toNat = 0 + 15 * 2 ^ 32 + 0 * 2 ^ 61 ∧
    ((15 : Nat) < queue.desc.cqSize) ∧ queue.cqWritten - queue.cqFreed ≤ queue.desc.cqSize ∧ fetchDev.queue 7 = none ∧
    fetchDev.queueAt 0 8 = none := by and_intros <;> decide +kernel
theorem case_StokerFetch : fetchDev.fetchPick = some (0 : QId).toNat ∧ inHost (queue.desc.sqBase + 64 * queue.head) 64 = false ∧
    fetchDev.poisoned queue.desc.sqBase 64 = false := by and_intros <;> decide +kernel
/-- A doorbell of tail 15 moves the tail; one of tail 16 is counted. -/
theorem test_doorbell : (((after (.doorbellSqTail 0 0 (15 * 2 ^ 32)) fetchDev).queue 0).map Queue.tail) = some 15 ∧
    (after (.doorbellSqTail 0 0 (16 * 2 ^ 32)) fetchDev).stk.dbErr = 1 := by and_intros <;> decide +kernel

/-- Jobs that wait, are ready, and are past their deadline. -/
def waitingJob : Job := { job with st := .waiting, cores := [], watchSat := true }
def readyJob : Job := { job with st := .ready, cores := [], start := none }
def late (j : Job) : Job := { j with entry := BitVec.ofNat 512 (1000 * 2 ^ 64) }
theorem case_WatchesAndDeadlines : (dev core waitingJob).now < waitingJob.deadline ∧ (late waitingJob).deadline ≤ (dev core (late waitingJob)).now ∧
    (late readyJob).deadline ≤ (dev core (late readyJob)).now ∧ (late job).deadline ≤ (dev core (late job)).now ∧ job.halt = none ∧
    job.fin = none ∧ (1 : W64).toNat + prog.ttfe ≤ (dev core { job with emberFrom := some 1 }).now ∧ job.stopped = false ∧ job.cores ≠ [] := by
  and_intros <;> decide +kernel
/-- A job past its deadline: the FCLK cycle fires its comparator, and the next one stops its core. -/
theorem test_quench : let d := (dev core (late job)).fclk
    (d.job 0).map (fun j => (j.fired, j.fin.map JobEnd.final, j.stopped)) = some (true, some 2, false) ∧ (d.core 0).run = true ∧
    (d.fclk.job 0).map Job.stopped = some true ∧ (d.fclk.core 0).run = false := by decide +kernel

/-- A ready job beside an idle core 0. -/
def idleDev : Dev := dev { core with job := none, run := false } readyJob
theorem case_DispatchTakesTheHighestRanked : idleDev.best 0 = some 0 := by decide +kernel
theorem case_Dispatch : idleDev.firstFailed (0 : Fn).val = none ∧ idleDev.best (0 : Fn).val = some 0 ∧ idleDev.stk.fatal = false ∧
    (1 : Nat) ≤ (idleDev.freeCores 0).length ∧ idleDev.dispatchCheck queue.boundary.desc readyJob prog = 0 ∧
    (dev { core with job := none, run := false } { readyJob with code := 0x10 }).firstFailed 0 = some 0 := by and_intros <;> decide +kernel
theorem case_JobLoads : job.cores.Nodup ∧ (dev core { job with loading := true }).loadPoison { job with loading := true } = none ∧ job.loadsHost = false ∧
    ({ core.rows with flip := true } : CoreRows).flip = true ∧ core.ops.any Op.versioned = false ∧
    core.dmaq.any Dma.versioned = false := by and_intros <;> decide +kernel

/-- A job that has ended CONVERGED, its rows written or not. -/
def ended (w : Bool) : JobEnd := { final := 0, detail := 0, time := 900, resid := 0, iter := 5, ember := 0, rows := [(0, 0)], written := w, retry := false, emberTime := none, fclk := 0, idx := 0 }
/-- The device with the ended job. -/
def endDev (w : Bool) : Dev := dev { core with run := false } { job with st := .ending, stopped := true, fin := some (ended w) }
theorem case_ResultsAndCompletions : (endDev false).drained { job with st := .ending, stopped := true, fin := some (ended false) } = true ∧
    (endDev true).drained { job with st := .ending, stopped := true, fin := some (ended true) } = true ∧
    (endDev true).endsBehind { job with st := .ending, stopped := true, fin := some (ended true) } (ended true) = false ∧
    (endDev true).waitsOut { job with st := .ending, stopped := true, fin := some (ended true) } = false ∧
    ((job.start.map (fun x => ((ended true).time - x).toInt)).getD 0) = 899 ∧ job.n < 32 := by and_intros <;> decide +kernel

theorem case_ErrorsEndJobs : (dev core job).coreJob 0 = some (0, job) ∧ (dev core job).job 0 = some job ∧ job.fin = none ∧
    (dev core job).expired job = false ∧ (dev core job).dbg.on = false ∧ (1023 : BitVec 10).toNat < memRows 0 ∧
    inHost ({ xfer with addr := 2 ^ 63 }).addr 1 = true ∧ (2 ^ 27 - 1 : BitVec 29).toNat * 64 < (dev core job).usable := by
  and_intros <;> decide +kernel

/-- A device with a drain-switch change to a pool of 20 half-tokens. -/
def drainDev : Dev := let d := idleDev
  { d with stk := {}, kiln := { d.kiln with drain := some { change := .pool 20, opcode := 0x11, seq := 1, fn := some 0, persist := false, queues := [], applying := false } } }
theorem case_FencesChangesAndTests : core.st = .active ∧ core.fencing = false ∧
    (idleDev.core 0).job = none ∧ (dev core job).coreJob 0 = some (0, job) ∧ job.fired = false ∧ (dev core job).now < job.deadline ∧
    (idleDev.lowestBanked) = some 1 ∧ idleDev.countSt .active < idleDev.kiln.target ∧
    (drainDev.kiln.drain.map (fun c => (drainDev.drainBusy c, drainDev.canApply c.change))) = some (false, true) ∧ drainDev.leased = 0 ∧
    idleDev.spareCore = some 1 ∧ drainDev.affected (.pool 20) = [] ∧ core.freeSpare 0 (bankOf 0) = some 0 := by and_intros <;> decide +kernel

/-! ### Mailbox requests -/

/-- The bytes of a request with opcode and payload (Table 4-1). -/
def reqBytes (op : Nat) (pay : List Byte) : List Byte := toBytes op 2 ++ [0, 0] ++ toBytes 7 4 ++ toBytes pay.length 2 ++ List.replicate 6 0 ++ pay

/-- The device with that request in the mailbox of the PF, accepted by RING. -/
def asks (d : Dev) (op : Nat) (pay : List Byte) : Dev :=
  { d with mbx := [(0, { ready := true, busy := true, req := Memory.writeL 0 [] 0 (reqBytes op pay) })] }

/-- `Accepts`, evaluated, and with room to defer. -/
def accepts (i : Instr) (d : Dev) : Bool :=
  match i.mail? with
  | some c =>
    let r := d.reqOf 0
    c.fn == 0 && (d.mbox 0).busy && r.op == c.op && d.answers c.op && d.implemented c.op && c.sel r && !r.dry &&
      decide (r.verdict (c.h r d).form (c.h r d).check = none) && !r.noDefer && decide (d.defCount r.fn + (d.mbox r.fn).queue.length < 4)
  | none => false

theorem accepts_of {i : Instr} {d : Dev} (h : accepts i d = true) : Accepts i d 0 ∧ Room d (d.reqOf 0) := by
  unfold accepts at h
  split at h
  · rename_i c hc
    simp only [Bool.and_eq_true, beq_iff_eq, decide_eq_true_eq, Bool.not_eq_true'] at h
    obtain ⟨⟨⟨⟨⟨⟨⟨⟨⟨h1, h2⟩, h3⟩, h4⟩, h5⟩, h6⟩, h7⟩, h8⟩, h9⟩, h10⟩ := h
    refine ⟨⟨c, hc, h1, ⟨?_, ?_, h4, h5, ?_⟩, h7, h8⟩, h9, h10⟩ <;> rw [h1] <;> assumption
  · cases h

/-- Fields of two, four and eight bytes. -/
def h2 (n : Nat) : List Byte := toBytes n 2
def h4 (n : Nat) : List Byte := toBytes n 4
def h8 (n : Nat) : List Byte := toBytes n 8
def zeros (n : Nat) : List Byte := List.replicate n 0

/-- A queue descriptor for a new queue (Table 5-1). -/
def descBytes : List Byte := h8 0x8000 ++ h8 0x9000 ++ h8 0xA000 ++ h8 0 ++ [4, 4, 0, 0] ++ h2 16 ++ h2 4 ++ zeros 24

/-- The device with its own queue idle: no job, queue 0 empty. -/
def quiet : Dev := let d := dev { core with job := none, run := false } readyJob; { d with stk := { d.stk with jobs := [] } }

/-- The conditions of QueueAndProgramCommands. -/
def queueAsks : List (Instr × Dev) := [
  (.createQueue 0, asks quiet 0x10 (h4 0xFFFFFFFF ++ [0, 0, 0, 0] ++ descBytes)), (.destroyQueue 0, asks quiet 0x11 (h4 0)),
  (.destroyQueue 0, asks (dev core job) 0x11 (h4 0)), (.loadProgram 0, asks quiet 0x20 (h8 0x4000 ++ h4 512 ++ [0, 0, 0, 0])),
  (.bindProgram 0, asks quiet 0x21 (h4 0 ++ h4 0 ++ [1, 0, 0, 0])), (.unbind 0, asks quiet 0x22 (h4 0)),
  (.setConfigQueueParams 0, asks quiet 0x40 (h2 0x20 ++ h2 0 ++ h2 68 ++ h2 0 ++ h4 0 ++ descBytes))]
theorem case_QueueAndProgramCommands : queueAsks.all (fun x => accepts x.1 x.2) = true ∧
    (asks quiet 0x11 (h4 0)).dispatchedIn [0] = false ∧ (asks (dev core job) 0x11 (h4 0)).dispatchedIn [0] = true := by
  and_intros <;> decide +kernel

/-- A device with tenant 3, without cores, and one with 16 active cores. -/
def tenanted : Dev := { quiet with ten := [(0, Tenant.zero 36), (3, { exist := true })] }
/-- Tenant 3 with core 1 while a job of tenant 0 runs, and without cores while a job of its own does. -/
def moving : Dev := let d := dev core job; { d with cores := d.cores ++ [(1, { st := .active, alloc := some 3 })], ten := tenanted.ten }
def holding : Dev := { dev core { job with tenant := 3, detached := true } with ten := tenanted.ten }
def tenantPay (cores : Nat) : List Byte := [5, BitVec.ofNat 8 cores, 2, 0] ++ h4 1 ++ h2 1 ++ h2 1 ++ h4 0 ++ h8 0 ++ h8 0 ++ h8 0 ++ h8 0
def tenantAsks : List (Instr × Dev) := [
  (.tenantCreate 0, asks quiet 0x30 (tenantPay 0)), (.tenantCreate 0, asks quiet 0x30 (tenantPay 1)),
  (.tenantCreate 0, asks (dev core job) 0x30 (tenantPay 1)), (.tenantDestroy 0 true, asks tenanted 0x31 [3, 0, 0, 0]),
  (.tenantDestroy 0 true, asks moving 0x31 [3, 0, 0, 0]), (.tenantDestroy 0 true, asks holding 0x31 [3, 0, 0, 0]),
  (.syncAllocAlloc 0, asks quiet 0x38 ([0, 0] ++ h2 1)), (.syncAllocFree 0, asks quiet 0x38 ([1, 0] ++ h2 1 ++ h4 0))]
theorem case_TenantAndBlockCommands : tenantAsks.all (fun x => accepts x.1 x.2) = true ∧
    (asks (dev core job) 0x30 (tenantPay 1)).dispatchedIn ((asks (dev core job) 0x30 (tenantPay 1)).queuesOf 0) = true ∧
    ((asks tenanted 0x31 [3, 0, 0, 0]).tenantStop 3).tenantBusy 3 = false ∧ tenanted.coresOf 3 = [] ∧ moving.coresOf 3 = [1] ∧
    moving.dispatchedIn (moving.queuesOf 3 ++ moving.queuesOf 0) = true ∧ ((asks holding 0x31 [3, 0, 0, 0]).tenantStop 3).tenantBusy 3 = true := by and_intros <;> decide +kernel

/-- A SET_CONFIG request of four bytes. -/
def setPay (item v : Nat) : List Byte := h2 item ++ h2 0 ++ h2 4 ++ h2 0 ++ h4 v
def settingAsks : List (Instr × Dev) := [
  (.getInfo 0, asks quiet 0x01 []), (.configEpochStatus 0, asks quiet 0x41 []), (.setConfigTimeSrc 0 true, asks quiet 0x40 (setPay 1 2)),
  (.setConfigBackstepEn 0 true, asks quiet 0x40 (setPay 2 1)), (.setConfigPerstScope 0 true, asks quiet 0x40 (setPay 3 1)),
  (.setConfigBellowsPool 0, asks quiet 0x40 (setPay 0x10 20)), (.setConfigActiveCores 0, asks quiet 0x40 (setPay 0x11 1)),
  (.setConfigMemEcc 0, asks { quiet with stk := {}, progs := [] } 0x40 (setPay 0x12 0))]
theorem case_SettingCommands : settingAsks.all (fun x => accepts x.1 x.2) = true := by decide +kernel

def coreAsks : List (Instr × Dev) := [
  (.fenceCore 0 true, asks quiet 0x50 [0, 0, 0, 0]), (.fenceCore 0 true, asks (dev core job) 0x50 [0, 0, 0, 0]),
  (.fenceCore 0 true, asks quiet 0x50 [17, 0, 0, 0]), (.coreMaint 0, asks quiet 0x51 [17, 2, 0, 0]),
  (.coreReturnActive 0, asks quiet 0x52 [17, 0, 0, 0]),
  (.coreReturnBanked 0 true, asks { quiet with cores := [(1, { st := .fenced, cause := 1, testOk := true })] } 0x52 [1, 1, 0, 0]),
  (.fenceCore 0 true, asks { quiet with cores := [(1, { st := .fenced, cause := 1 })] } 0x50 [1, 0, 0, 0]),
  (.rowRemap 0, asks quiet 0x58 ([0, 0] ++ h2 1023 ++ [0, 0, 0, 0]))]
theorem case_CoreCommands : coreAsks.all (fun x => accepts x.1 x.2) = true ∧ (quiet.core 17).st = .banked ∧ (quiet.core 0).st = .active := by
  and_intros <;> decide +kernel

/-! ### Requests of the loop, cameras, ports and sessions -/

/-- A parameter set of the loop that passes APPLY: a period of 1 000 000 LCLK, one element and one output. -/
def loopCfg : SleCfg := { loop := true, period := 1000000, inwin := 100, outinst := 1000, nx := 1, nu := 1, missLim := 3, sampDiv := 1 }
/-- The quiet device with that set in shadow and in force, and an encoder in axis 0 for the element. -/
def loopDev : Dev := { quiet with
  sle := { shadow := loopCfg, cfg := { loopCfg with nx := 2, inmap := [(0, { src := 1 }), (1, { src := 2 })] }, applied := true }
  mio := { encs := [(0, { mode := 1 })] } }
/-- That device while the loop runs. -/
def running : Dev := { loopDev with sle := { loopDev.sle with st := .running } }
def one : Nat := 0x3F800000
def sleAsks : List (Instr × Dev) := [
  (.sleConfigLoop 0, asks quiet 0x60 (h2 0 ++ h2 0 ++ zeros 24)), (.sleConfigLinks 0, asks quiet 0x60 (h2 1 ++ h2 0 ++ zeros 28)),
  (.sleConfigInmap 0, asks quiet 0x60 (h2 2 ++ h2 0 ++ [31, 1, 0, 0] ++ zeros 12)),
  (.sleConfigOutmap 0, asks quiet 0x60 (h2 3 ++ h2 0 ++ [15, 1, 0, 0] ++ zeros 16)),
  (.sleConfigLimits 0, asks quiet 0x60 (h2 4 ++ h2 0 ++ [0, 0, 0, 0])), (.sleConfigInteg 0, asks quiet 0x60 (h2 5 ++ h2 0 ++ [0, 0, 0, 0])),
  (.sleConfigGain 0, asks quiet 0x60 (h2 0x10F ++ h2 0 ++ zeros 128)), (.sleConfigApply 0 true, asks loopDev 0x60 (h2 0xFFFF ++ h2 0)),
  (.sleConfigApply 0 true, asks running 0x60 (h2 0xFFFF ++ h2 0)), (.sleStart 0, asks loopDev 0x61 []), (.sleStart 0, asks quiet 0x61 []),
  (.sleStop 0, asks running 0x62 []),
  (.homeAxis 0, asks running 0x63 ([0, 0, 0, 0, 0, 1, 7, 0] ++ h4 one ++ h4 one ++ h4 one ++ h4 one))]
theorem case_LoopRequests : sleAsks.all (fun x => accepts x.1 x.2) = true ∧ (asks loopDev 0x61 []).startResult = 0 ∧
    (asks quiet 0x61 []).startResult ≠ 0 ∧ quiet.sle.st = .stopped := by and_intros <;> decide +kernel

/-- A camera set that passes APPLY: 64 by 64 pixels of RAW10. -/
def camCfg : CamCfg := { lanes := 1, dt := 0x2B, rate := 80, width := 64, height := 64, lcrop := [0, 0, 64, 64], tcrop := [0, 0, 64, 64], sx := 1, sy := 1, tfmt := 3, tplanes := 1, tpitch := 64, nbuf := 1, outBase := 0x100000, bufSize := 0x10000 }
def camDev (on : Bool) : Dev := { quiet with cams := [(1, { shadow := { camCfg with enable := on } })] }
/-- A port set that passes APPLY. -/
def ethDev : Dev := { quiet with eths := [(0, { shadow := { speed := 2 }, link := true })] }
def portAsks : List (Instr × Dev) := [
  (.camConfigInput 0, asks quiet 0x70 ([1, 0] ++ h2 0 ++ zeros 12)), (.camConfigNr 0, asks quiet 0x70 ([0, 0] ++ h2 1 ++ zeros 28)),
  (.camConfigColour 0, asks quiet 0x70 ([0, 0] ++ h2 2 ++ zeros 40)), (.camConfigTables 0, asks quiet 0x70 ([0, 0] ++ h2 3 ++ zeros 24)),
  (.camConfigOutput 0, asks quiet 0x70 ([0, 0] ++ h2 4 ++ zeros 56)), (.camConfigLinks 0, asks quiet 0x70 ([0, 0] ++ h2 5 ++ zeros 4)),
  (.camConfigApply 0, asks (camDev true) 0x70 ([1, 0] ++ h2 0xFFFF)), (.camConfigApply 0, asks (camDev false) 0x70 ([1, 0] ++ h2 0xFFFF)),
  (.ethConfigPort 0, asks quiet 0x78 ([1, 0] ++ h2 0 ++ zeros 20)), (.ethConfigIp 0, asks quiet 0x78 ([0, 0] ++ h2 1 ++ zeros 24)),
  (.ethConfigQos 0, asks quiet 0x78 ([0, 0] ++ h2 2 ++ zeros 12)), (.ethConfigGcl 0, asks quiet 0x78 ([0, 0] ++ h2 3 ++ zeros 20)),
  (.ethConfigGclent 0, asks quiet 0x78 ([0, 0] ++ h2 4 ++ h2 255 ++ [1, 0] ++ zeros 8)),
  (.ethConfigCycin 0, asks quiet 0x78 ([0, 0] ++ h2 0x17 ++ zeros 12)), (.ethConfigCycout 0, asks quiet 0x78 ([0, 0] ++ h2 0x1F ++ zeros 16)),
  (.ethConfigApply 0 true, asks ethDev 0x78 ([0, 0] ++ h2 0xFFFF)),
  (.ethConfigApply 0 true, asks { ethDev with eths := [(0, { shadow := { speed := 1, nent := 1, ents := [(0, some (1, 1000))] } })] } 0x78 ([0, 0] ++ h2 0xFFFF))]
theorem case_PortRequests : portAsks.all (fun x => accepts x.1 x.2) = true := by decide +kernel

/-- DATA of a session on port 0 with queue 0, one slot of one row. -/
def sessBytes : List Byte := [1, 0, 0, 0] ++ h4 0 ++ h2 1 ++ h2 1 ++ [1, 1] ++ h2 0 ++ zeros 8 ++ zeros 16 ++ h8 0x200000 ++ h4 0 ++ h4 0
/-- The device with session 5 open. -/
def sessDev : Dev := { quiet with net := { sessions := [(5, some (sessionOf 0 sessBytes false))] } }
def sessAsks : List (Instr × Dev) := [
  (.pstSessionOpen 0 true, asks quiet 0x79 ([0, 0] ++ h2 4095 ++ [0, 0, 0, 0] ++ sessBytes)),
  (.pstSessionClose 0 true, asks sessDev 0x79 ([1, 0] ++ h2 5 ++ [0, 0, 0, 0])),
  (.pstSessionQuery 0, asks sessDev 0x79 ([2, 0] ++ h2 5 ++ [0, 0, 0, 0]))]
theorem case_SessionCommands : sessAsks.all (fun x => accepts x.1 x.2) = true ∧ (sessDev.session 5).isSome = true := by
  and_intros <;> decide +kernel

/-- The quiet device on trial, with a staged image, and in the boot ROM. -/
def trial : Dev := { quiet with glb := { quiet.glb with trial := true } }
def stagedDev (m : FwMode) : Dev := { quiet with kiln := { quiet.kiln with fw := m, staged := some {} } }
def fwAsks : List (Instr × Dev) := [
  (.fwStage 0, asks quiet 0x80 (h8 0x4000 ++ h4 4096 ++ h4 0)), (.cfgstoreWrite 0, asks quiet 0x90 (h2 0x8000 ++ h2 0 ++ h2 2 ++ h2 0 ++ [1, 2])),
  (.fwActivate 0, asks (stagedDev .rom) 0x81 [0, 0, 0, 0]), (.fwActivate 0, asks (stagedDev .fw) 0x81 [0, 0, 0, 0]),
  (.fwActivate 0, asks (stagedDev .fw) 0x81 [1, 0, 0, 0]), (.fwCommit 0 true, asks trial 0x82 [1, 0, 0, 0]),
  (.fwCommit 0 false, asks trial 0x82 [0, 0, 0, 0]), (.fwRollback 0 true, asks trial 0x83 []), (.fwRollback 0 true, asks (stagedDev .fw) 0x83 []),
  (.cfgstoreRead 0, asks quiet 0x91 (h2 0x8000 ++ h2 0 ++ h4 0)), (.debugUnlockChallenge 0 5, asks quiet 0xA0 [0, 0, 0, 0])]
theorem case_FirmwareAndStoreCommands : fwAsks.all (fun x => accepts x.1 x.2) = true := by decide +kernel

/-- A signature over the nonce [9] with the private key 1, computed by hand from FIPS 186-4. -/
def signature : List Byte :=
  toBytesBE 0x8d999057ba3d2d969260045c55b97f089025959a6f434d651d207d19fb96e9e4fe0e86ebe0e64f85b96a9c75295df61 48 ++
  toBytesBE 0x13ef22c23788ac95cfb13b0a16b619cf3e45a1b04caecefd9e89a35df3887c8fa17597a6ba99f162a00724a29dc269ce 48
def challenged : Dev := asks { quiet with kiln := { quiet.kiln with nonce := some [9] } } 0xA0 ([1, 0, 0, 0] ++ signature)
theorem case_DebugUnlockAnswer : accepts (.debugUnlockAnswer 0) challenged = true := by decide +kernel
theorem test_unlock : (after (.debugUnlockAnswer 0) challenged).dbg.on = true := by decide +kernel

/-- A mailbox with a request of GET_INFO, one of an unknown opcode, one of SYNC_ALLOC with a reserved selector, not yet rung. -/
def unrung (d : Dev) (op : Nat) (pay : List Byte) : Dev := (asks d op pay).updMbox 0 (fun m => { m with busy := false })
theorem case_MailboxHandshake : ((unrung quiet 1 []).mbox 0).ready = true ∧ ((unrung quiet 1 []).mbox 0).busy = false ∧
    ((unrung quiet 1 []).mbox 0).valid = false ∧ quiet.answers 1 = true ∧ quiet.implemented 1 = true ∧ (unrung quiet 1 []).selector ((unrung quiet 1 []).reqOf 0) = none ∧
    quiet.implemented 0x02 = false ∧ (unrung quiet 0x38 [2, 0, 1, 0]).answers 0x38 = true ∧
    ((unrung quiet 0x38 [2, 0, 1, 0]).reqOf 0).get 0 1 = 2 ∧ (dev core job).mbox 1 = {} ∧ ({ quiet with stk := { quiet.stk with hold := true } }).answers 2 = false := by
  and_intros <;> decide +kernel
/-- RING of an unknown opcode is answered UNSUPPORTED. -/
theorem test_unknown_opcode : (Memory.readN 0 ((after (.mbxRing 0) (unrung quiet 2 [])).mbox 0).resp 2 1) = [BitVec.ofNat 8 stUnsupported] := by
  decide +kernel

/-- A request that its checks refuse, a dry run, and one that may not defer. -/
theorem case_MailboxCommandsAnswer :
    let d := asks quiet 0x11 (h4 9)
    (d.reqOf 0).verdict (Dev.destroyCmd (d.reqOf 0) d).form (Dev.destroyCmd (d.reqOf 0) d).check = some (stInvalid, 16) ∧
    Serving d { fn := 0, op := 0x11, sel := fun _ => true, h := Dev.destroyCmd } ∧ ¬ Serving quiet { fn := 0, op := 0x11, sel := fun _ => true, h := Dev.destroyCmd } ∧
    ({ d.reqOf 0 with flags := 1 } : Req).dry = true ∧ ({ d.reqOf 0 with flags := 2 } : Req).noDefer = true := by
  simp only [Serving]; and_intros <;> decide +kernel

/-- Deferred commands of each kind, for the PF with number 7. -/
def deferred (op : DefOp) : Dev :=
  { quiet with kiln := { quiet.kiln with deferred := [{ fn := 0, opcode := 0x20, seq := 7, op := op }] } }
/-- A program image of 512 bytes that is legal (Table 14-2) is not built here: the flag of a bad one is shown. -/
theorem case_DeferredCommandsFinish : (deferred (.loadProgram 0x4000 512 0)).kiln.fw ≠ .none ∧
    (deferred (.loadProgram 0x4000 512 0)).poisoned 0x4000 512 = false ∧ imageBad 512 ((deferred (.loadProgram 0x4000 512 0)).peek 0x4000 512) = true ∧
    (deferred (.fwStage 0x4000 256)).inReach 0 0x4000 256 = true ∧ inHost 0x4000 256 = false ∧
    (deferred (.tenantDestroy 3)).tenantBusy 3 = false := by and_intros <;> decide +kernel
/-- The end of a LOAD_PROGRAM of a bad image is INVALID, and points at ADDR. -/
theorem test_load_invalid : ((after (.deferredCommandFinish 0 0x20 7 [] true) (deferred (.loadProgram 0x4000 512 0))).mbox 0).queue =
    [response 0x20 stInvalid 1 7 [] 16 0] := by decide +kernel

/-- The device with the link of its host up. -/
def linked : Dev := { quiet with pcie := { quiet.pcie with perst := false, dlup := true, crs := false } }

theorem case_StoreWritesAreAtomic : (0x8000 : Nat) < 65536 ∧ ([1, 2, 3] : List Byte).length < 65536 ∧
    ((putRecord Dev.reset.records 0x8000 (some [1, 2, 3])).flatMap recordBytes).length ≤ 65520 := by and_intros <;> decide +kernel
/-- A record written to the erased store is read back. -/
theorem test_store_write : recordData (Dev.reset.storeRecord 0x8000 (some [1, 2, 3]) true).2.records 0x8000 = some [1, 2, 3] := by decide +kernel

/-- The device while it runs, with its clocks. -/
theorem case_Resets : quiet.pins.lost = false ∧ quiet.glb.phase ≠ .held ∧ quiet.pins.rstLow = false ∧
    bits (0x1234C0DE : W32).toNat 0 16 = 0xC0DE ∧ linked.pcie.perst = false ∧ linked.kiln.perstScope = false ∧
    ({ quiet with stk := { quiet.stk with fatalAt := some 0 }, glb := { quiet.glb with ticks := 1000000 } } : Dev).fatalDue = true ∧ quiet.err.hold = false ∧ quiet.clocked = true := by decide +kernel
/-- A warm reset keeps device time and waits for the release of the domains. -/
theorem test_warm_reset : let d := after (.warmReset .perst) quiet
    d.glb.phase = .warm ∧ d.glb.time = 1000 ∧ d.glb.last = 2 ∧ (after .tclkTick d).glb.time = 1001 := by decide +kernel

/-- The device once power is good, and while the Kiln starts its firmware for the first time. -/
def powered : Dev := (after .powerOnReset Dev.reset)
def starting : Dev := { quiet with cores := [], kiln := { quiet.kiln with fw := .none, next := .fw, booted := false } }
theorem case_BootSequence : powered.pins.lost = false ∧ powered.pins.rstLow = true ∧ (after (.rstNRise 0 false) powered).glb.phase = .pll ∧
    (after (.rstNRise 0 false) powered).pins.thermHold = false ∧ starting.clocked = true ∧ starting.kiln.facts.trainFail = 0 ∧
    starting.fuse.remaps = [] ∧ (List.range 18).all (fun n => decide ((starting.core n).st = .banked)) = true := by decide +kernel
/-- In recovery the store is not used, and the image slots of an erased flash hold nothing. -/
theorem case_BootSequence_flash : ({ starting with glb := { starting.glb with recovery := true } } : Dev).storeUsed = false ∧
    powered.pickImage = none := by decide +kernel
theorem case_ErrorsTemperatureAndSupply : quiet.clocked = true ∧ running.sle.st = .running ∧ quiet.sle.st ≠ .running ∧
    quiet.err.stat.getLsbD 5 = false ∧ quiet.kiln.fw = .fw ∧ quiet.fuse.limits.2.2 ≤ (460 : Int) ∧ (quiet.glb.phase ≠ .held ∧ quiet.glb.phase ≠ .pll) ∧
    (quiet.pins.tjAt = none ∧ quiet.pins.vidAt = none ∧ quiet.pins.coolAt = none ∧ quiet.stk.fatalAt = none) ∧
    (after (.thermalReading 0) quiet).pins.coolAt = some 0 ∧
    (40 : Nat) ≤ (40 : BitVec 6).toNat ∧ quiet.fuse.vid.toNat - 4 < 1 := by decide +kernel

/-! ### Time, registers, counters and the host -/

/-- The device with a step of `x` pending. -/
def stepped (x : W64) : Dev := { quiet with glb := { quiet.glb with step := some x } }
theorem case_DeviceTime : quiet.glb.phase ≠ .held ∧ quiet.glb.phase ≠ .pll ∧ Dev.reset.glb.phase = .held ∧ quiet.glb.step = none ∧
    (stepped (BitVec.ofInt 64 (-1))).glb.backstep = false ∧ (BitVec.ofInt 32 (-2147484)).toInt = -2147484 ∧ (2147484 : W32).toInt = 2147484 ∧
    (quiet.glb.low true) = none ∧ ({ quiet.glb with src := 2 } : Glb).src = 2 ∧ quiet.glb.src ≠ 2 := by decide +kernel
/-- A tick with a pending step moves the time by the step alone. -/
theorem test_step : (after .tclkTick (stepped 500)).glb.time = 1500 ∧ (after .tclkTick quiet).glb.time = 1001 := by decide +kernel

theorem case_RegisterAndSyncAccesses : quiet.syn.reads = [] ∧ quiet.syn.pend = [] ∧ quiet.fuse.grade.convtMax < bits (0x3D000000 : W64).toNat 24 6 ∧ quiet.blw.peak < 2 ^ 32 ∧
    regAt (0x0FFFF0 / 4 * 4) = none ∧ (viewer (.fn 0)).fn = 0 ∧ (1 : Fn) ≠ 0 ∧ (regAt 0x100020).isSome = true ∧ vfReach 1 (.tntAlloc 2) = false ∧
    quiet.blockOpen 0 (255 / 256) = true ∧ quiet.blockOpen 1 (256 / 256) = false ∧ quiet.armBad 0 255 1 = false ∧
    quiet.armBad 0 65536 0 = true := by decide +kernel
/-- An ADD to a counter of a free block is refused and counted. -/
theorem test_foreign_block : (after (.synAddWrite 1 256 1) quiet).syn.accErr = 1 ∧ (after (.synAddWrite 0 255 1) quiet).syn.pend.length = 1 := by
  decide +kernel

/-- An ADD of 2 by core 0 to counter 3 at 2^64 − 1, and an armed slot on it that is due. -/
def addPend (o : SynOp) : SynPend := { ctr := 3, op := o, src := 0, needDma := 0, needRem := 0, fn := 0 }
def synDev (o : SynOp) : Dev := { quiet with syn := { ctr := [(3, 0xFFFFFFFFFFFFFFFF)], pend := [addPend o], owner := [(0, 1)], rel := [(1, 0)], irq := [(2, 0, 5)], arms := [(0, { armed := true, due := true, ctr := 3 })] } }
theorem case_CountersAndFires : takePend 3 0 (synDev (.add 2)).syn.pend = some (addPend (.add 2), []) ∧ (synDev (.add 2)).synReady (addPend (.add 2)) = true ∧
    takePend 3 1 (synDev (.add 2)).syn.pend = none ∧ (synDev (.add 2)).armSat ((synDev (.add 2)).arm 0) = true ∧ ((synDev (.add 2)).arm 0).firedAt ≠ (synDev (.add 2)).fno + 1 ∧
    takeSlot 1 (synDev (.add 2)).syn.rel = some (0, []) ∧ takeSlot 2 (synDev (.add 2)).syn.irq = some ((0, 5), []) ∧
    ((synDev (.add 2)).queue 0).isSome = true ∧ SMap.get false (synDev (.add 2)).syn.bad 3 = false := by decide +kernel
/-- A read behind the function's SET waits, and is answered with the value when the SET is applied. -/
def readBehind (i : Instr) : Dev := after i { synDev (.set 5) with syn := { (synDev (.set 5)).syn with nextId := 1 } }
theorem test_held_read : let d := readBehind (.rcFieldRead (.fn 0) 0x200018 true)
    d.out = [] ∧ d.syn.reads = [{ fn := 0, off := 0x200018, wide := true, upto := 1 }] ∧ d.syn.pend = [addPend (.set 5)] ∧
    (after (.counterApply 3 1) d).out = [.read 0 5] ∧ (after (.counterApply 3 1) d).syn.reads = [] := by decide +kernel
/-- A slot fires once in an FCLK cycle. -/
theorem test_fires_once : let d := after (.armSlotFire 0) (synDev (.add 2))
    (d.arm 0).firedAt = d.fno + 1 ∧ (after (.armSlotFire 0) d).syn.irq = d.syn.irq := by decide +kernel
theorem test_add_modulo : let d := after (.counterApply 3 1) (synDev (.add 2)); d.ctrVal 3 = 1 ∧ d.syn.wrap = true := by decide +kernel

theorem case_HostAccesses : (2047 : Nat) < vectors 0 ∧ linked.fnExists 0 = true ∧ linked.pcie.perst = false ∧ (5 : BitVec 4).toNat ∈ [1, 2, 3, 4, 5] ∧
    wfRequest 0x1000 64 = true ∧ wfRequest 4095 2 = false ∧ (quiet.bar4Addr 0 0x1000 64).isSome = true ∧
    (quiet.bar4Addr 0 0x7FFFFF000 64) = none ∧ quiet.poisoned 0x1000 64 = false := by decide +kernel
theorem case_FunctionResets : ({ linked with pcie := { linked.pcie with vfEn := true, numVfs := 3 }, ten := tenanted.ten } : Dev).fnExists 3 = true ∧
    linked.fnExists 3 = false ∧ linked.pcie.perst = false ∧ linked.pcie.dlup = true ∧ linked.pcie.crs = false ∧
    SMap.get false linked.pcie.flr 0 = false ∧ quiet.pins.rstLow = false ∧
    ({ linked with pcie := { linked.pcie with flr := [(3, true)] } } : Dev).pcie.flr = [(3, true)] := by decide +kernel
theorem case_MemoryController : ({ quiet with mem := { quiet.mem with ecc := true } } : Dev).mem.ecc = true ∧
    0 < quiet.usable / 64 ∧ (2 ^ 27 - 1 : BitVec 29).toNat * 64 < quiet.usable ∧
    ({ flit := 2 ^ 27 - 1, corrected := true } : FlitError).corrected = true ∧ quiet.mem.ecc = false := by decide +kernel
/-- A patrol that finds an uncorrectable flit poisons it. -/
theorem test_scrub : let d := after (.patrolScrub .uncorrectable) { quiet with mem := { quiet.mem with ecc := true } }
    SMap.get false d.mem.poison 0 = true ∧ d.mem.scrub = 1 ∧ d.mem.ue = 1 := by decide +kernel

/-- Two agents trace in one FCLK: the entries stand in ascending order of AGENT (R873). -/
theorem test_trace_order : let d := (({ quiet with dbg := { quiet.dbg with trcEn := true, evMask := 0x100 } } : Dev).trace 5 9 1).trace 2 9 1
    (SMap.get none d.dbg.trace 0).map (·.agent) = some 2 ∧ (SMap.get none d.dbg.trace 1).map (·.agent) = some 5 ∧ d.dbg.wptr = 2 := by
  decide +kernel

/-- Debug mode with a breakpoint at instruction 0 on core 0. -/
def debugging (h : Option Bool) : Dev :=
  let d := dev core { job with halt := h }
  { d with dbg := { d.dbg with on := true, brk := [(0, 0x80000000)] } }
theorem case_DebugAccess : (debugging none).atBreak 0 = true ∧ (debugging none).dbg.on = true ∧ quiet.dbg.on = false ∧
    (0 : Nat) ∈ job.cores ∧ (debugging (some false)).now < job.deadline ∧ core.spec.wrong = false ∧ core.spec.redirect = 0 ∧
    regAt (0x0FFFF0 / 4 * 4) = none ∧ quiet.kiln.fw ≠ .none ∧ quiet.pins.lost = false ∧ Dev.reset.kiln.fw = .none ∧ Dev.reset.pins.rstLow = true := by
  decide +kernel

/-! ### Loop, motion, cameras, Ethernet -/

/-- The running loop in a phase, a period after its boundary. -/
def inPhase (p : SlePhase) : Dev := { running with cclk := 4000000, sle := { running.sle with phase := p, first := false, counts := [(0, 100)] } }
theorem case_BoundariesAndTrajectories : (inPhase .idle).sle.st = .running ∧ (inPhase .idle).sle.phase = .idle ∧
    (inPhase .idle).sle.lbound + (inPhase .idle).sle.cfg.period ≤ (inPhase .idle).lclk ∧ (inPhase .idle).sle.nextAt < (inPhase .idle).lclk ∧
    cdiv loopCfg.period 1333 ≤ loopCfg.period ∧ ({ (inPhase .idle).sle with sampDue := [4] } : Sle).sampDue = 4 :: [] ∧
    (let d : Dev := { running with sle := { running.sle with cfg := { loopCfg with cmt := some 4, stageBase := 0x100000 }, commits := [1] } }
     d.sle.commits = 1 :: [] ∧ d.sle.lastCmt = 0 ∧ d.sle.load = none ∧ d.poisoned (d.sle.slot 1) 512 = false) ∧
    ({ running.sle with load := some (1, 0) } : Sle).load = some (1, 0) := by decide +kernel
theorem case_SamplesAndMisses : (inPhase .latched).sle.catching = false ∧
    (inPhase .latched).sle.cfg.outinst ≤ (inPhase .latched).lclk - (inPhase .latched).sle.lbound ∧ loopCfg.inwin ≤ loopCfg.outinst ∧
    (∀ i < (inPhase .latched).sle.cfg.nx, ((inPhase .latched).xIn i).isSome = true) ∧
    (inPhase .checked).sle.missNow = false ∧ (0 : Nat) + 1 < loopCfg.missLim ∧ loopCfg.missLim ≤ 2 + 1 ∧
    (List.range loopCfg.nu).all (fun i => sFinite (SMap.get 0 ({ (inPhase .latched) with sle := { (inPhase .latched).sle with x := [] } } : Dev).law.2.1 i)) = true ∧
    ¬ (({ (inPhase .latched) with sle := { (inPhase .latched).sle with cfg := { loopCfg with inmap := [(0, { src := 3 })] } } } : Dev).xIn 0).isSome = true := by
  decide +kernel
theorem case_MotionEvents : (loopDev.enc 0).mode = 1 ∧ ({ mode := 2, ssi := some 0 } : Enc).ssi = some 0 ∧
    ({ active := true, idx := true } : Home).idx = true ∧ ({ running.sle with dacDue := some 1004 } : Sle).dacDue = some 1004 ∧
    1004 ≤ (inPhase .idle).lclk ∧ (inPhase .idle).mio.convt.toNat + 68 ≤ (inPhase .idle).lclk - (inPhase .idle).sle.lbound ∧
    quiet.mio.pwmPer.toNat + 1 ≤ ({ quiet with cclk := 262144 } : Dev).lclk - quiet.mio.pwmAt ∧
    (let l := ({ (inPhase .idle).sle with lbound := (inPhase .idle).lclk } : Sle); l.first = false ∧ (inPhase .idle).lclk = l.lbound) ∧
    quiet.net.safeAt + 100000 ≤ ({ quiet.glb with ticks := 100000 } : Glb).ticks ∧
    (let d : Dev := { running with mio := { stepMask := 1, steps := [(0, { owed := true })] } }
     d.mio.stepMask.getLsbD 0 = true ∧ (SMap.get {} d.mio.steps 0).owed = true ∧ (SMap.get {} d.mio.steps 0).turned = none) ∧
    (let d : Dev := { quiet with cclk := 4, mio := { ins := [(24, { raw := true })] } }
     (d.inp 24).edgeL < d.lclk ∧ (d.inp 24).deb = 0 ∧ (d.inp 24).eff ≠ (d.inp 24).lvl ∧ (d.inp 3).eff = (d.inp 3).lvl) ∧ quiet.sle.st ≠ .running := by decide +kernel
/-- A quadrature edge on A counts by one; two at once count nothing and set ENCERR. -/
theorem test_quadrature : let d := after (.quadratureEdge 0 true false) loopDev; let e := after (.quadratureEdge 0 true true) loopDev
    d.mio.encErr = 0 ∧ e.mio.encErr = 1 ∧ (e.enc 0).count = 0 := by decide +kernel

/-- Camera 0 with an open frame of 64 by 64 pixels. -/
def camOn : CamCfg := { camCfg with enable := true }
def frame (n : Nat) : Frame := { cfg := camOn, seq := 0, fsTime := 900, feTime := 0, commit := 0, tnrReset := false, drop := 0, wrote := false, num := 7, lines := List.replicate n (List.replicate 64 0) }
def camera (f : Option Frame) : Dev := { quiet with cams := [(0, { active := camOn, frame := f })] }
theorem case_CameraFrames : (((camera none).cam 0).selects 1).enable = true ∧ ({ ecc := 0, vc := 0 } : CsiHdr).vc.toNat = (((camera none).cam 0).selects 1).vc ∧ ({ pend := some (camOn, 1) } : Cam).pendAt < 1 ∧
    ((camera (some (frame 63))).cam 0).frame = some (frame 63) ∧ (frame 63).drop = 0 ∧ (frame 64).lines.length = camOn.height ∧
    (frame 64).cfg.tnrEn = false ∧ camOn.dt < 64 ∧ ({ tail := [frame 64] } : Cam).tail = [frame 64] := by decide +kernel

/-- Port 0 linked at its reset parameters. -/
def linkUp : Dev := { quiet with eths := [(0, { cfg := { speed := 2, mac := 2, v4En := true }, link := true })] }
def bytesTo (type : List Byte) : List Byte := toBytes 2 6 ++ toBytes 4 6 ++ type ++ zeros 50
theorem case_EthernetPorts : (linkUp.eth 0).link = true ∧ (quiet.eth 0).link = false ∧ (linkUp.eth 0).cfg.takes (parseFrame (bytesTo [0x88, 0xF7])).dst = true ∧
    (parseFrame (bytesTo [0x88, 0xF7])).type = 0x88F7 ∧ ¬ (bytesTo [0x88, 0xF7]).length + 4 < 64 ∧
    forKiln (linkUp.eth 0).cfg (parseFrame (toBytes 2 6 ++ toBytes 4 6 ++ [8, 6] ++ zeros 7 ++ [1] ++ zeros 42)) = true ∧
    (pstIn (linkUp.eth 0).cfg (parseFrame (bytesTo [0x88, 0xB5]))).isSome = true := by decide +kernel
/-- A gPTP message of a general type waits for the Kiln, one of another address is counted. -/
theorem test_gptp : ((after (.ethFrameReceive 0 true (bytesTo [0x88, 0xF7, 8])) linkUp).eth 0).gptp.length = 1 ∧
    ((after (.ethFrameReceive 0 false (bytesTo [0x88, 0xF7])) linkUp).eth 0).bad = 1 := by decide +kernel
/-- An event message has a timestamp; a peer-delay request is kept for its answer. -/
theorem test_gptp_event : let e := (after (.ethFrameReceive 0 true (bytesTo [0x88, 0xF7, 2])) linkUp).eth 0
    e.gptp.map (fun g => g.stamp.isSome) = [true] ∧ e.delayReq.isSome = true ∧ gptpType (parseFrame (bytesTo [0x88, 0xF7, 2])).body = 2 := by
  decide +kernel

/-- A request of session 5, queue index 0, without rows, in a frame with an all-zero address. -/
def reqMsg : List Byte := pstHeader 1 5 1 64 0 ++ zeros 64
theorem case_SolveRequests : pstHeadBad reqMsg = false ∧ fieldAt reqMsg 1 1 = 1 ∧ fieldAt reqMsg 2 2 = 5 ∧
    ((sessionOf 0 sessBytes false).lastSeq) = none ∧ (sessionOf 0 sessBytes false).freeSlot = some 0 ∧ quiet.session 5 = none := by decide +kernel
theorem case_TimeSynchronisation : ({ quiet.glb with src := 1 } : Glb).src = 1 ∧ quiet.kiln.fw = .fw ∧ ({ ptpEn := true } : EthCfg).ptpEn = true ∧
    quiet.net.anchored = false ∧ (100 : W64).toInt.natAbs ≤ 100 ∧ 1000000 < (1000001 : W64).toInt.natAbs ∧ quiet.glb.src ≠ 1 ∧
    (quiet.eth 0).ptpState ≠ 2 ∧ (2147484 : W32).toInt.natAbs ≤ 2147484 := by decide +kernel

theorem case_MemoryStaysCanonical : State.reset.dev.memWf = true ∧ (∃ t, step State.reset = .next t) ∧ (st quiet).dev.memWf = true :=
  ⟨by decide +kernel, ⟨_, rfl⟩, by decide +kernel⟩
theorem case_CoreWordsDecodeOnce : (decodeCore (word [(5, 124), (3, 103), (1, 98), (2, 93)])).isSome = true := by decide

end Sys2Proof.Tests
end

section
/-!
SUPPORT. Watches and deadlines: what the watch, the queue deadlines, the comparator, the ember check and the stop of a set change (01, 05, 06), and
what of these an FCLK cycle does (R29, R30).
-/
namespace Sys2Proof.Machine

/-! ### Commands that run a function of the device -/

theorem Gives.of_run {i : Instr} {s : State} {f : Dev → Dev} {P : Dev → Prop} (h : exec i s = s.run f) (hp : P (f s.dev)) : Gives i s P :=
  ⟨_, h, rfl, hp⟩

/-! ### The trace, and changes of several cores -/

/-- A trace entry changes the debug unit only. -/
theorem Dev.trace_eq (d : Dev) (a e x : Nat) : d.trace a e x = { d with dbg := (d.trace a e x).dbg } := by
  simp only [Dev.trace]
  split <;> rfl

@[simp] theorem Dev.trace_glb (d : Dev) (a e x : Nat) : (d.trace a e x).glb = d.glb := by rw [Dev.trace_eq]
@[simp] theorem Dev.trace_mem (d : Dev) (a e x : Nat) : (d.trace a e x).mem = d.mem := by rw [Dev.trace_eq]
@[simp] theorem Dev.core_trace (d : Dev) (a e x m : Nat) : (d.trace a e x).core m = d.core m := by rw [Dev.trace_eq]; rfl
@[simp] theorem Dev.job_trace (d : Dev) (a e x k : Nat) : (d.trace a e x).job k = d.job k := by rw [Dev.trace_eq]; rfl

@[simp] theorem Dev.job_updCores (d : Dev) (ns : List Nat) (f : Core → Core) (k : Nat) : (d.updCores ns f).job k = d.job k := by
  rw [Dev.updCores_eq]; rfl

theorem Dev.updCores_cons (d : Dev) (n : Nat) (ns : List Nat) (f : Core → Core) :
    d.updCores (n :: ns) f = (d.updCore n f).updCores ns f := rfl

/-- Where the cores of two devices are the same, they are the same after a change. -/
theorem Dev.core_updCores_congr {d t : Dev} (h : ∀ m, t.core m = d.core m) (ns : List Nat) (f : Core → Core) (m : Nat) :
    (t.updCores ns f).core m = (d.updCores ns f).core m := by
  induction ns generalizing d t with
  | nil => exact h m
  | cons n ns ih =>
    rw [Dev.updCores_cons, Dev.updCores_cons]
    exact ih fun i => by rw [Dev.core_updCore, Dev.core_updCore, h, h]

theorem Dev.core_updCores_of_notMem (d : Dev) {ns : List Nat} (f : Core → Core) {m : Nat} (h : m ∉ ns) :
    (d.updCores ns f).core m = d.core m := by
  induction ns generalizing d with
  | nil => rfl
  | cons n ns ih =>
    rw [List.mem_cons, not_or] at h
    rw [Dev.updCores_cons, ih _ h.2, Dev.core_updCore_ne _ _ _ h.1]

/-- What each change of a core keeps, a change of several cores keeps. -/
theorem Dev.core_updCores_keeps {β : Type} (g : Core → β) {f : Core → Core} (h : ∀ c, g (f c) = g c) (d : Dev) (ns : List Nat) (m : Nat) :
    g ((d.updCores ns f).core m) = g (d.core m) := by
  induction ns generalizing d with
  | nil => rfl
  | cons n ns ih =>
    rw [Dev.updCores_cons, ih, Dev.core_updCore]
    split
    · next hm => rw [h, hm]
    · rfl

/-- What each change of a core brings about holds of every core that is changed. -/
theorem Dev.core_updCores_of_mem (P : Core → Prop) {f : Core → Core} (h : ∀ c, P (f c)) (d : Dev) {ns : List Nat} {m : Nat} (hm : m ∈ ns) :
    P ((d.updCores ns f).core m) := by
  induction ns generalizing d with
  | nil => exact absurd hm List.not_mem_nil
  | cons n ns ih =>
    rw [Dev.updCores_cons]
    by_cases hns : m ∈ ns
    · exact ih _ hns
    · obtain rfl : m = n := (List.mem_cons.mp hm).resolve_right hns
      rw [Dev.core_updCores_of_notMem _ _ hns, Dev.core_updCore_self]
      exact h _

/-! ### The job table -/

theorem SMap.mem_keys_of_get {α : Type} {d v : α} {m : SMap α} {k : Nat} (h : SMap.get d m k = v) (hv : v ≠ d) : k ∈ m.map Prod.fst := by
  induction m with
  | nil => exact absurd h.symm hv
  | cons e m ih =>
    obtain ⟨a, w⟩ := e
    rw [SMap.get_cons] at h
    rw [List.map_cons, List.mem_cons]
    split at h
    · next ha => exact .inl ha.symm
    · split at h
      · exact absurd h.symm hv
      · exact .inr (ih h)

theorem JobIs.of_job {d : Dev} {k : Nat} {j : Job} (h : d.job k = some j) : JobIs d d k (· = j) := ⟨⟨j, h, rfl⟩, fun _ _ => rfl⟩

theorem JobIs.updJob {d t : Dev} {k : Nat} {P Q : Job → Prop} {f : Job → Job} (h : JobIs d t k P) (hq : ∀ j, P j → Q (f j)) :
    JobIs d (t.updJob k f) k Q := by
  obtain ⟨⟨j, hj, hp⟩, hne⟩ := h
  refine ⟨⟨f j, by rw [Dev.job_updJob_self, hj, Option.map_some], hq j hp⟩, fun i hi => ?_⟩
  rw [Dev.job_updJob, if_neg hi, hne i hi]

theorem JobIs.imp {d t : Dev} {k : Nat} {P Q : Job → Prop} (h : JobIs d t k P) (hq : ∀ j, P j → Q j) : JobIs d t k Q := by
  obtain ⟨⟨j, hj, hp⟩, hne⟩ := h
  exact ⟨⟨j, hj, hq j hp⟩, hne⟩

theorem JobIs.congr {d t u : Dev} {k : Nat} {P : Job → Prop} (h : JobIs d t k P) (hu : ∀ i, u.job i = t.job i) : JobIs d u k P := by
  simpa only [JobIs, hu] using h

/-! ### Ends in the queue (R225, R231, R254, R269, R270) -/

theorem Dev.endCode_waiting {d : Dev} {j : Job} (hs : j.st = .waiting) (hd : j.deadline ≤ d.now) : d.endCode j = some 0x01 := by
  simp only [Dev.endCode, hs, hd, decide_true, if_true]

theorem Dev.endCode_ready {d : Dev} {j : Job} (hs : j.st = .ready) (hd : j.deadline ≤ d.now) :
    d.endCode j = some (if j.code = 0 then 0x02 else j.code) := by
  by_cases hc : j.code = 0
  · simp only [Dev.endCode, hs, hd, hc, ne_eq, not_true_eq_false, decide_true, if_true, if_false]
  · simp only [Dev.endCode, hs, hc, ne_eq, not_false_eq_true, if_true, if_false]

theorem Dev.expireDue_of_endCode {d : Dev} {k c : Nat} {j : Job} (hj : d.job k = some j) (hc : d.endCode j = some c) :
    d.expireDue k = d.expire k 0x04 c := by
  simp only [Dev.expireDue, hj, Option.bind_some, hc]

theorem Dev.expireAt_of_due {d : Dev} {k : Nat} {j : Job} (hj : d.job k = some j) (hd : j.deadline ≤ d.now) :
    d.expireAt k j.st = d.expireDue k := by
  simp only [Dev.expireAt, hj, hd, decide_true, Bool.and_self, if_true]

theorem Dev.watchReport_of_due {d : Dev} {k : Nat} {j : Job} (hj : d.job k = some j) (hs : j.st = .waiting) (hw : j.watchSat = true)
    (hd : j.deadline ≤ d.now) : d.watchReport k = d.expireDue k := by
  simp only [Dev.watchReport, hj, hs, hw, hd, ne_eq, not_true_eq_false, decide_false, Bool.not_true, Bool.or_self, Bool.false_eq_true,
    if_true, if_false]

theorem Dev.watchReport_of_early {d : Dev} {k : Nat} {j : Job} (hj : d.job k = some j) (hs : j.st = .waiting) (hw : j.watchSat = true)
    (hd : d.now < j.deadline) : d.watchReport k = d.updJob k (fun j => { j with st := .ready }) := by
  have hn : ¬ j.deadline ≤ d.now := Nat.not_le.mpr hd
  simp only [Dev.watchReport, hj, hs, hw, hn, ne_eq, not_true_eq_false, decide_false, Bool.not_true, Bool.or_self, Bool.false_eq_true,
    if_false]

theorem Dev.jobIs_expire {d : Dev} {k : Nat} {j : Job} (hj : d.job k = some j) (hf : j.fin = none) (final detail : Nat) :
    JobIs d (d.expire k final detail) k (Ends · final detail d.glb.time) := by
  refine (JobIs.of_job hj).updJob ?_
  rintro _ rfl
  rw [hf]
  exact ⟨rfl, _, rfl, rfl, rfl, rfl⟩

/-- A job with a reason to end in its queue ends with it, and nothing else changes. -/
theorem Dev.expireDue_ends {d : Dev} {k c : Nat} {j : Job} (hj : d.job k = some j) (hf : j.fin = none) (hc : d.endCode j = some c) :
    d.expireDue k = { d with stk := { d.stk with jobs := (d.expireDue k).stk.jobs } } ∧
      JobIs d (d.expireDue k) k (Ends · 0x04 c d.glb.time) := by
  rw [Dev.expireDue_of_endCode hj hc]
  exact ⟨rfl, Dev.jobIs_expire hj hf _ _⟩

/-! ### The comparator (R29, R42, R43) -/

/-- How a job ends whose comparator fires: with the ember of its lead core, at its deadline. -/
def Dev.quenchEnd (d : Dev) (j : Job) : JobEnd :=
  let e := d.emberOf j
  { final := if e.isSome then 0x01 else 0x02, detail := 0, time := BitVec.ofNat 64 j.deadline,
    resid := (e.map Ember.resid).getD 0x7FC00000, iter := (e.map Ember.iter).getD 0,
    ember := (e.map Ember.rows).getD 0, rows := [], written := false, retry := false,
    emberTime := e.map Ember.time, fclk := d.fno, idx := 0 }

/-- A job whose end has been fixed as `f`; its set has yet to stop. -/
def Job.ended (j : Job) (f : JobEnd) : Job :=
  { j with st := .ending, fin := some f, loading := false, squashing := false, stopped := false }

theorem Dev.quench_eq {d : Dev} {k : Nat} {j : Job} (hj : d.job k = some j) (hf : j.fin = none) :
    d.quench k = (((d.endJob k (d.quenchEnd j)).updJob k (fun j => { j with fired := true })).updCores j.cores
      (·.flag (fun v => { v with quench := true }))).trace j.lead 0x04 j.tag := by
  simp only [Dev.quench, hj, hf, Option.isSome_none, Bool.false_eq_true, if_false]
  rfl

/-- Of the job table a quench changes its job only, whose end it fixes. -/
theorem Dev.jobIs_quench {d : Dev} {k : Nat} {j : Job} (hj : d.job k = some j) (hf : j.fin = none) :
    JobIs d (d.quench k) k (· = { j.ended (d.quenchEnd j) with fired := true }) := by
  have ends : JobIs d (d.endJob k (d.quenchEnd j)) k (· = j.ended (d.quenchEnd j)) := by
    refine (JobIs.of_job hj).updJob ?_
    rintro _ rfl
    rw [hf]
    rfl
  rw [Dev.quench_eq hj hf]
  refine (ends.updJob (f := fun j => { j with fired := true }) ?_).congr (fun i => by rw [Dev.job_trace, Dev.job_updCores])
  rintro _ rfl
  rfl

theorem Dev.quench_mem {d : Dev} {k : Nat} {j : Job} (hj : d.job k = some j) (hf : j.fin = none) : (d.quench k).mem = d.mem := by
  rw [Dev.quench_eq hj hf]
  simp only [Dev.endJob, Dev.trace_mem, Dev.updCores_mem, Dev.updJob_mem]

theorem Dev.core_quench {d : Dev} {k : Nat} {j : Job} (hj : d.job k = some j) (hf : j.fin = none) (m : Nat) :
    (d.quench k).core m = (d.updCores j.cores (·.flag (fun v => { v with quench := true }))).core m := by
  rw [Dev.quench_eq hj hf, Dev.core_trace]
  refine Dev.core_updCores_congr ?_ ..
  exact fun _ => rfl

/-- A quenched job ends QUENCHED with its ember, or QUENCHED_EMPTY, at its deadline (R42, R43); its set has yet to stop. -/
theorem Dev.jobIs_quench_ends {d : Dev} {k : Nat} {j : Job} (hj : d.job k = some j) (hf : j.fin = none) (hc : j.cores ≠ []) :
    let e := (d.core j.lead).ember
    JobIs d (d.quench k) k fun j' => j'.fired = true ∧ Ends j' (if e.isSome then 0x01 else 0x02) 0 (BitVec.ofNat 64 j.deadline) ∧
      ∃ f, j'.fin = some f ∧ f.resid = (e.map Ember.resid).getD 0x7FC00000 ∧ f.iter = (e.map Ember.iter).getD 0 ∧
        f.ember = (e.map Ember.rows).getD 0 ∧ f.written = false ∧ f.fclk = d.fno ∧ j'.stopped = false := by
  intro e
  have he : d.emberOf j = e := by simp only [Dev.emberOf, Job.onCores, ne_eq, hc, not_false_eq_true, decide_true, if_true, e]
  refine (Dev.jobIs_quench hj hf).imp ?_
  rintro _ rfl
  have hfin : (d.quenchEnd j).final = BitVec.ofNat 8 (if e.isSome then 0x01 else 0x02) := by
    rw [Dev.quenchEnd, he]
    cases e <;> rfl
  refine ⟨rfl, ⟨rfl, _, rfl, hfin, rfl, rfl⟩, _, rfl, ?_, ?_, ?_, rfl, rfl, rfl⟩
  all_goals rw [Dev.quenchEnd, he]

theorem Dev.quench_of_mem {d : Dev} {k : Nat} {j : Job} (hj : d.job k = some j) (hf : j.fin = none) (m : Nat) (hm : m ∈ j.cores) :
    let c := (d.quench k).core m
    c.evt.quench = true ∧ c.sp = (d.core m).sp ∧ c.run = (d.core m).run ∧ c.estore = (d.core m).estore ∧ c.regs = (d.core m).regs := by
  intro c
  have hc : c = _ := Dev.core_quench hj hf m
  rw [hc]
  refine ⟨Dev.core_updCores_of_mem (fun c => c.evt.quench = true) (fun _ => rfl) d hm, ?_⟩
  have keeps := Dev.core_updCores_keeps (fun c => (c.sp, c.run, c.estore, c.regs))
    (f := (·.flag (fun v => { v with quench := true }))) (fun _ => rfl) d j.cores m
  simpa only [Prod.mk.injEq] using keeps

theorem Dev.quench_of_notMem {d : Dev} {k : Nat} {j : Job} (hj : d.job k = some j) (hf : j.fin = none) (m : Nat) (hm : m ∉ j.cores) :
    (d.quench k).core m = d.core m := by
  rw [Dev.core_quench hj hf, Dev.core_updCores_of_notMem d _ hm]

/-- The comparator of a dispatched job fires: what it changes depends on whether the job's end is fixed already (R42). -/
theorem Dev.comparator_of_expired {d : Dev} {k : Nat} {j : Job} (hj : d.job k = some j) (hc : j.cores ≠ []) (he : d.expired j = true) :
    d.comparator k = if j.fin.isSome then d.updJob k (fun j => { j with fired := true }) else d.quench k := by
  simp only [Dev.comparator, hj, Job.onCores, ne_eq, hc, not_false_eq_true, decide_true, he, Bool.not_true, Bool.or_self,
    Bool.false_eq_true, if_false]

theorem Dev.comparator_of_not_due {d : Dev} {k : Nat} {j : Job} (hj : d.job k = some j) (h : ¬ (j.cores ≠ [] ∧ d.expired j = true)) :
    d.comparator k = d := by
  have : (!j.onCores || !d.expired j) = true := by
    by_cases hc : j.cores ≠ []
    · rw [Bool.eq_false_iff.mpr fun he => h ⟨hc, he⟩, Bool.not_false, Bool.or_true]
    · rw [Job.onCores, decide_eq_false hc, Bool.not_false, Bool.true_or]
  simp only [Dev.comparator, hj, this, if_true]

theorem Dev.expired_iff_of_not_fired {d : Dev} {j : Job} (hf : j.fired = false) : d.expired j = true ↔ j.halt = none ∧ j.deadline ≤ d.now := by
  simp only [Dev.expired, hf, Bool.false_or, Bool.and_eq_true, Option.isNone_iff_eq_none, decide_eq_true_eq]

theorem Dev.expired_of_deadline {d : Dev} {j : Job} (hh : j.halt = none) (hd : j.deadline ≤ d.now) : d.expired j = true := by
  simp only [Dev.expired, hh, Option.isNone_none, hd, decide_true, Bool.or_true, Bool.and_self]

/-! ### The check of the first ember (R62) -/

theorem Dev.emberCheck_of_due {d : Dev} {k : Nat} {j : Job} {t : W64} {p : Prog} (hj : d.job k = some j) (ht : j.emberFrom = some t)
    (hp : d.prog j.prog = some p) (hs : j.st = .running) (hf : j.fin = none) (hd : t.toNat + p.ttfe ≤ d.now) :
    d.emberCheck k = if (d.core j.lead).ember.isSome then d.updJob k (fun j => { j with emberFrom := none })
      else (d.updJob k (fun j => { j with emberFrom := none, emberLate := true })).updCore j.lead
        (·.flag (fun e => { e with emberLate := true })) := by
  have hn : ¬ d.now < t.toNat + p.ttfe := Nat.not_lt.mpr hd
  simp only [Dev.emberCheck, hj, ht, hp, hs, hf, hn, ne_eq, not_true_eq_false, decide_false, Option.isSome_none, Bool.or_self,
    Bool.false_eq_true, if_false]

/-- A check that is due marks the run where there is no ember, and is over. -/
theorem Dev.emberCheck_marks {d : Dev} {k : Nat} {j : Job} {t : W64} {p : Prog} (hj : d.job k = some j) (ht : j.emberFrom = some t)
    (hp : d.prog j.prog = some p) (hs : j.st = .running) (hf : j.fin = none) (hd : t.toNat + p.ttfe ≤ d.now) :
    let e := (d.core j.lead).ember
    let u := d.emberCheck k
    JobIs d u k (· = { j with emberFrom := none, emberLate := j.emberLate || e.isNone }) ∧
      (u.core j.lead).evt.emberLate = ((d.core j.lead).evt.emberLate || e.isNone) ∧ (u.core j.lead).regs = (d.core j.lead).regs ∧
      (∀ m, m ≠ j.lead → u.core m = d.core m) ∧ u.mem = d.mem := by
  intro e u
  have hu : u = _ := Dev.emberCheck_of_due hj ht hp hs hf hd
  rw [hu]
  split
  · next he =>
    have hn : e.isNone = false := Option.isNone_eq_false_iff.mpr he
    rw [hn, Bool.or_false, Bool.or_false]
    exact ⟨(JobIs.of_job hj).updJob fun _ h => h ▸ rfl, rfl, rfl, fun _ _ => rfl, rfl⟩
  · next he =>
    have hn : e.isNone = true := Option.isNone_iff_eq_none.mpr (Option.not_isSome_iff_eq_none.mp he)
    rw [hn, Bool.or_true, Bool.or_true, Dev.core_updCore_self]
    exact ⟨.congr ((JobIs.of_job hj).updJob (f := fun j => { j with emberFrom := none, emberLate := true }) fun _ h => h ▸ rfl) fun _ => rfl,
      rfl, rfl, fun m hm => Dev.core_updCore_ne _ _ _ hm, rfl⟩

/-! ### An FCLK cycle: every comparator that is due has fired (R29, R30) -/

/-- A later state of a job: it holds its cores, and its comparator has not been taken back. -/
structure Job.Later (j j' : Job) : Prop where
  entry : j'.entry = j.entry
  cores : j'.cores = j.cores
  halt : j'.halt = j.halt
  fired : j.fired = true → j'.fired = true

/-- A later state of the device in the same tick: no job is new, and each is a later state of what it was. -/
structure Dev.Later (d t : Dev) : Prop where
  glb : t.glb = d.glb
  jobs : ∀ k j', t.job k = some j' → ∃ j, d.job k = some j ∧ j.Later j'

theorem Job.Later.refl (j : Job) : j.Later j := ⟨rfl, rfl, rfl, id⟩

theorem Job.Later.deadline {j j' : Job} (h : j.Later j') : j'.deadline = j.deadline := by
  simp only [Job.deadline, Job.bytes, h.entry]

theorem Job.Later.trans {a b c : Job} (h : a.Later b) (g : b.Later c) : a.Later c :=
  ⟨g.entry.trans h.entry, g.cores.trans h.cores, g.halt.trans h.halt, g.fired ∘ h.fired⟩

theorem Dev.Later.refl (d : Dev) : d.Later d := ⟨rfl, fun _ j hj => ⟨j, hj, .refl j⟩⟩

theorem Dev.Later.now {d t : Dev} (h : d.Later t) : t.now = d.now := by rw [Dev.now, h.glb]; rfl

theorem Dev.Later.trans {a b c : Dev} (h : a.Later b) (g : b.Later c) : a.Later c where
  glb := g.glb.trans h.glb
  jobs k j'' hj := by
    obtain ⟨j', hj', l'⟩ := g.jobs k j'' hj
    obtain ⟨j, hj, l⟩ := h.jobs k j' hj'
    exact ⟨j, hj, l.trans l'⟩

theorem Dev.Later.of_same {d t : Dev} (hg : t.glb = d.glb) (hj : ∀ k, t.job k = d.job k) : d.Later t :=
  ⟨hg, fun k j h => ⟨j, hj k ▸ h, .refl j⟩⟩

theorem Dev.Later.updJob (d : Dev) (i : Nat) {f : Job → Job} (h : ∀ j : Job, j.Later (f j)) : d.Later (d.updJob i f) where
  glb := rfl
  jobs k j' hj := by
    rw [Dev.job_updJob] at hj
    split at hj
    · next hk =>
      obtain ⟨j, hji, rfl⟩ := Option.map_eq_some_iff.mp hj
      exact ⟨j, hk ▸ hji, h j⟩
    · exact ⟨j', hj, .refl j'⟩

theorem Dev.Later.endJob (d : Dev) (k : Nat) (f : JobEnd) : d.Later (d.endJob k f) := by
  refine .updJob d k (fun j => ?_)
  split
  · exact .refl j
  · exact ⟨rfl, rfl, rfl, id⟩

theorem Dev.Later.expire (d : Dev) (k final detail : Nat) : d.Later (d.expire k final detail) := by
  refine .updJob d k (fun j => ?_)
  split
  · exact .refl j
  · exact ⟨rfl, rfl, rfl, id⟩

theorem Dev.Later.quench {d : Dev} {k : Nat} {j : Job} (hj : d.job k = some j) (hf : j.fin = none) : d.Later (d.quench k) := by
  rw [Dev.quench_eq hj hf]
  have fires : (d.endJob k (d.quenchEnd j)).Later ((d.endJob k (d.quenchEnd j)).updJob k (fun j => { j with fired := true })) :=
    .updJob _ k fun j => ⟨rfl, rfl, rfl, fun _ => rfl⟩
  refine ((Dev.Later.endJob d k _).trans fires).trans (.of_same ?_ ?_)
  · rw [Dev.trace_glb, Dev.updCores_glb]
  · intro i; rw [Dev.job_trace, Dev.job_updCores]

theorem Dev.Later.comparator (d : Dev) (k : Nat) : d.Later (d.comparator k) := by
  cases hj : d.job k with
  | none => simpa only [Dev.comparator, hj] using .refl d
  | some j =>
    by_cases h : j.cores ≠ [] ∧ d.expired j = true
    · rw [Dev.comparator_of_expired hj h.1 h.2]
      split
      · exact .updJob d k fun j => ⟨rfl, rfl, rfl, fun _ => rfl⟩
      · next hf => exact .quench hj (Option.not_isSome_iff_eq_none.mp hf)
    · rw [Dev.comparator_of_not_due hj h]
      exact .refl d

theorem Dev.Later.expireDue (d : Dev) (k : Nat) : d.Later (d.expireDue k) := by
  unfold Dev.expireDue
  split
  · exact .expire ..
  · exact .refl d

theorem Dev.Later.emberCheck (d : Dev) (k : Nat) : d.Later (d.emberCheck k) := by
  unfold Dev.emberCheck
  split
  · exact .refl d
  · split
    · split
      · exact .refl d
      · split
        · exact .updJob d k fun _ => ⟨rfl, rfl, rfl, id⟩
        · refine .trans (.updJob d k ?_) (.of_same rfl fun _ => rfl)
          exact fun _ => ⟨rfl, rfl, rfl, id⟩
    · exact .refl d

theorem Dev.Later.foldl {f : Dev → Nat → Dev} (h : ∀ (d : Dev) (k : Nat), d.Later (f d k)) (d : Dev) (ks : List Nat) : d.Later (ks.foldl f d) :=
  List.foldlRecOn ks f (.refl d) (fun t ht k _ => ht.trans (h t k))

/-- Where job `k` is dispatched and its comparator is due, it has fired. -/
def Dev.Fired (d : Dev) (k : Nat) : Prop := ∀ j, d.job k = some j → j.cores ≠ [] → d.expired j = true → j.fired = true

theorem Dev.Fired.later {d t : Dev} {k : Nat} (h : d.Fired k) (l : d.Later t) : t.Fired k := by
  intro j' hj' hc he
  obtain ⟨j, hj, lj⟩ := l.jobs k j' hj'
  cases hf : j.fired with
  | true => exact lj.fired hf
  | false =>
    cases hf' : j'.fired with
    | true => rfl
    | false =>
      rw [Dev.expired_iff_of_not_fired hf', lj.halt, lj.deadline, l.now] at he
      have := h j hj (lj.cores ▸ hc) ((Dev.expired_iff_of_not_fired hf).mpr he)
      exact hf.symm.trans this

theorem Dev.comparator_fired (d : Dev) (k : Nat) : (d.comparator k).Fired k := by
  intro j' hj' hc he
  obtain ⟨j, hj, l⟩ := (Dev.Later.comparator d k).jobs k j' hj'
  by_cases h : j.cores ≠ [] ∧ d.expired j = true
  · rw [Dev.comparator_of_expired hj h.1 h.2] at hj'
    split at hj'
    · rw [Dev.job_updJob_self, hj] at hj'
      cases hj'
      rfl
    · next hf =>
      obtain ⟨⟨i, hi, rfl⟩, -⟩ := Dev.jobIs_quench hj (Option.not_isSome_iff_eq_none.mp hf)
      rw [hi] at hj'
      cases hj'
      rfl
  · rw [Dev.comparator_of_not_due hj h] at hj' he
    cases hj.symm.trans hj'
    exact absurd ⟨hc, he⟩ h

theorem Dev.eachJob_comparator_fired (d : Dev) (k : Nat) : (d.eachJob Dev.comparator).Fired k := by
  by_cases hk : k ∈ d.stk.jobs.map Prod.fst
  · obtain ⟨l, r, hl⟩ := List.append_of_mem hk
    rw [Dev.eachJob, hl, List.foldl_append, List.foldl_cons]
    exact (Dev.comparator_fired _ k).later (.foldl Dev.Later.comparator _ r)
  · intro j' hj'
    obtain ⟨j, hj, -⟩ := (Dev.Later.foldl Dev.Later.comparator d _).jobs k j' hj'
    exact absurd (SMap.mem_keys_of_get hj (Option.some_ne_none j)) hk

theorem Dev.fclk_fired (d : Dev) (k : Nat) : d.fclk.Fired k :=
  ((Dev.eachJob_comparator_fired _ k).later (.foldl Dev.Later.expireDue _ _)).later (.foldl Dev.Later.emberCheck _ _)

/-! ### The stop of a set (Table 1-2, steps 2 and 3) -/

/-- What the stop of a set leaves of a core: its registers but for the budget check, its scratchpads and its ember. -/
def Core.data (c : Core) : CoreRegs × Memory × Memory × Option Ember :=
  ({ c.regs with budgOn := false, budgDue := false }, c.sp, c.estore, c.ember)

theorem Core.sameRegs_of_data {c c' : Core} (h : c'.data = c.data) :
    SameRegs c c' ∧ c'.sp = c.sp ∧ c'.estore = c.estore ∧ c'.ember = c.ember := by
  simp only [Core.data, Prod.mk.injEq, CoreRegs.mk.injEq] at h
  obtain ⟨⟨hx, hf, hp, hv, -, hfpc, hphase, -⟩, hsp, hest, hemb⟩ := h
  refine ⟨⟨fun r => ?_, fun r => ?_, fun r => ?_, fun r l => ?_, hfpc, hphase⟩, hsp, hest, hemb⟩
  · rw [Core.getX, hx]; rfl
  · rw [Core.getF, hf]; rfl
  · rw [Core.getP, hp]; rfl
  · rw [Core.getL, hv]; rfl

/-- The state and the end of a job. -/
def Job.outcome (j : Job) : JobState × Option JobEnd := (j.st, j.fin)

/-- Two states of the device between which runs are stopped only: device memory, the data of the cores and the ends of the jobs are the same. -/
structure Dev.SameData (d t : Dev) : Prop where
  mem : t.mem = d.mem
  data : ∀ m, (t.core m).data = (d.core m).data
  outcome : ∀ k, (t.job k).map Job.outcome = (d.job k).map Job.outcome

theorem Dev.SameData.refl (d : Dev) : d.SameData d := ⟨rfl, fun _ => rfl, fun _ => rfl⟩

theorem Dev.SameData.trans {a b c : Dev} (h : a.SameData b) (g : b.SameData c) : a.SameData c :=
  ⟨g.mem.trans h.mem, fun m => (g.data m).trans (h.data m), fun k => (g.outcome k).trans (h.outcome k)⟩

theorem Dev.SameData.updCores (d : Dev) (ns : List Nat) {f : Core → Core} (h : ∀ c, (f c).data = c.data) : d.SameData (d.updCores ns f) :=
  ⟨Dev.updCores_mem .., Dev.core_updCores_keeps Core.data h d ns, fun k => by rw [Dev.job_updCores]⟩

theorem Dev.SameData.updCore (d : Dev) (n : Nat) {f : Core → Core} (h : ∀ c, (f c).data = c.data) : d.SameData (d.updCore n f) :=
  .updCores d [n] h

theorem Dev.SameData.updJob (d : Dev) (i : Nat) {f : Job → Job} (h : ∀ j, (f j).outcome = j.outcome) : d.SameData (d.updJob i f) where
  mem := rfl
  data _ := rfl
  outcome k := by
    rw [Dev.job_updJob]
    split
    · next hk => rw [hk, Option.map_map, show Job.outcome ∘ f = Job.outcome from funext h]
    · rfl

theorem Dev.SameData.trace (d : Dev) (a e x : Nat) : d.SameData (d.trace a e x) :=
  ⟨Dev.trace_mem .., fun m => by rw [Dev.core_trace], fun k => by rw [Dev.job_trace]⟩

theorem Dev.SameData.cancelReads (d : Dev) (j : Job) : d.SameData (d.cancelReads j) := ⟨rfl, fun _ => rfl, fun _ => rfl⟩

theorem Dev.SameData.budgetExpire (d : Dev) (n : Nat) : d.SameData (d.budgetExpire n) := by
  unfold Dev.budgetExpire
  dsimp only
  split
  · exact .refl d
  · refine .trans ?_ (.trace ..)
    split
    · refine .trans (.updCore d n ?_) (.updJob _ _ fun _ => rfl)
      exact fun _ => rfl
    · exact .updCore d n fun _ => rfl

theorem Dev.stopJob_eq {d : Dev} {k : Nat} {j : Job} (hj : d.job k = some j) (hf : j.fin.isSome = true) (hs : j.stopped = false) :
    d.stopJob k = (((j.cores.foldl Dev.budgetExpire d).stopSet j false).updCores j.cores (·.endRun j)).updJob k
      (fun j => { j with stopped := true }) := by
  have hn : (j.fin.isNone || j.stopped) = false := by rw [hs, Option.isNone_eq_false_iff.mpr hf]; rfl
  simp only [Dev.stopJob, hj, hn, Bool.false_eq_true, if_false]

theorem Dev.SameData.stopJob {d : Dev} {k : Nat} {j : Job} (hj : d.job k = some j) (hf : j.fin.isSome = true) (hs : j.stopped = false) :
    d.SameData (d.stopJob k) := by
  rw [Dev.stopJob_eq hj hf hs]
  have budget : d.SameData (j.cores.foldl Dev.budgetExpire d) :=
    List.foldlRecOn j.cores _ (.refl d) fun t ht n _ => ht.trans (.budgetExpire t n)
  have stops (t : Dev) : t.SameData (t.stopSet j false) := by
    refine .trans (.updCores t j.cores ?_) (.cancelReads _ j)
    exact fun _ => rfl
  have ends (t : Dev) : t.SameData (t.updCores j.cores (·.endRun j)) := .updCores t j.cores fun _ => rfl
  exact ((budget.trans (stops _)).trans (ends _)).trans (.updJob _ _ fun _ => rfl)

theorem Dev.stopJob_stopped {d : Dev} {k : Nat} {j : Job} (hj : d.job k = some j) (hf : j.fin.isSome = true) (hs : j.stopped = false) :
    Stopped (d.stopJob k) j.cores := by
  intro m hm
  rw [Dev.stopJob_eq hj hf hs, Dev.core_updJob]
  have keeps := Dev.core_updCores_keeps (fun c => (c.run, c.ops, c.wait)) (f := (·.endRun j)) (fun _ => rfl)
    ((j.cores.foldl Dev.budgetExpire d).stopSet j false) j.cores m
  have stops := Dev.core_updCores_of_mem (fun c => (c.run, c.ops, c.wait) = (false, [], .none)) (f := fun c => c.stop false) (fun _ => rfl)
    (j.cores.foldl Dev.budgetExpire d) hm
  simpa only [Prod.mk.injEq] using keeps.trans stops

theorem Dev.job_stopJob {d : Dev} {k : Nat} {j : Job} (hj : d.job k = some j) (hf : j.fin.isSome = true) (hs : j.stopped = false) :
    ∃ j', (d.stopJob k).job k = some j' ∧ j'.stopped = true ∧ j'.st = j.st ∧ j'.fin = j.fin := by
  have same := (Dev.SameData.stopJob hj hf hs).outcome k
  rw [hj, Option.map_some] at same
  obtain ⟨j', hj', ho⟩ := Option.map_eq_some_iff.mp same
  simp only [Job.outcome, Prod.mk.injEq] at ho
  refine ⟨j', hj', ?_, ho⟩
  rw [Dev.stopJob_eq hj hf hs, Dev.job_updJob_self] at hj'
  obtain ⟨_, -, rfl⟩ := Option.map_eq_some_iff.mp hj'
  rfl

/-! ### The statement -/

section
variable {s : State} {k : JobId} {P : Dev → Prop}

theorem gives_stokerWatchReport (h : P (s.dev.watchReport k.toNat)) : Gives (.stokerWatchReport k) s P :=
  .of_run (f := (·.watchReport k.toNat)) rfl h
theorem gives_deadlineWaitingExpire (h : P (s.dev.expireAt k.toNat .waiting)) : Gives (.deadlineWaitingExpire k) s P :=
  .of_run (f := (·.expireAt k.toNat .waiting)) rfl h
theorem gives_deadlineReadyExpire (h : P (s.dev.expireAt k.toNat .ready)) : Gives (.deadlineReadyExpire k) s P :=
  .of_run (f := (·.expireAt k.toNat .ready)) rfl h
theorem gives_comparatorFire (h : P (s.dev.comparator k.toNat)) : Gives (.comparatorFire k) s P :=
  .of_run (f := (·.comparator k.toNat)) rfl h
theorem gives_emberLateCheck (h : P (s.dev.emberCheck k.toNat)) : Gives (.emberLateCheck k) s P :=
  .of_run (f := (·.emberCheck k.toNat)) rfl h

end

/-- Settles O23. The queue deadlines come from the end code of Table 5-6; the comparator from what a quench changes; the FCLK cycle from the
fact that it evaluates every comparator and that what follows takes no firing back; the stop from what it leaves of each core. -/
theorem watchesAndDeadlines : Obligations.WatchesAndDeadlines := by
  refine ⟨?_, ?_, fun d k j => ⟨fun hj => d.fclk_fired k j hj, fun hj hf hs => ?_⟩⟩
  · intro s k j d Only hj
    refine ⟨fun hs hw hd => gives_stokerWatchReport ?_, fun hf hd => ⟨fun hs => ⟨gives_deadlineWaitingExpire ?_, fun hw =>
      gives_stokerWatchReport ?_⟩, fun hs => gives_deadlineReadyExpire ?_⟩⟩
    · rw [Dev.watchReport_of_early hj hs hw hd]
      exact ⟨rfl, (JobIs.of_job hj).updJob fun _ h => h ▸ rfl⟩
    · rw [← hs, Dev.expireAt_of_due hj hd]
      exact Dev.expireDue_ends hj hf (Dev.endCode_waiting hs hd)
    · rw [Dev.watchReport_of_due hj hs hw hd]
      exact Dev.expireDue_ends hj hf (Dev.endCode_waiting hs hd)
    · rw [← hs, Dev.expireAt_of_due hj hd]
      exact Dev.expireDue_ends hj hf (Dev.endCode_ready hs hd)
  · intro s k j d e hj
    refine ⟨fun hc hh hd => ?_, fun t0 p ht hp hs hf hd => gives_emberLateCheck (Dev.emberCheck_marks hj ht hp hs hf hd)⟩
    have fires := Dev.comparator_of_expired hj hc (Dev.expired_of_deadline hh hd)
    refine ⟨fun hf => gives_comparatorFire ?_, fun hf => gives_comparatorFire ?_⟩
    · rw [fires, hf, Option.isSome_none, if_neg Bool.false_ne_true]
      exact ⟨Dev.jobIs_quench_ends hj hf hc, Dev.quench_of_mem hj hf, Dev.quench_of_notMem hj hf, Dev.quench_mem hj hf⟩
    · rw [fires, if_pos hf]
      exact ⟨(JobIs.of_job hj).updJob fun _ h => h ▸ rfl, rfl, rfl⟩
  · have same := Dev.SameData.stopJob hj hf hs
    exact ⟨Dev.stopJob_stopped hj hf hs, Dev.job_stopJob hj hf hs, fun m => Core.sameRegs_of_data (same.data m), same.mem⟩

end Sys2Proof.Machine
end

section
/-!
SUPPORT. The mailbox handshake: what a response changes, which requests RING answers itself, and what RING, ACK and the placing of an asynchronous
response do (04).
-/
namespace Sys2Proof.Machine

/-! ### What differs after an answer -/

/-- A raised vector changes the PCIe state and what leaves the device only. -/
theorem Dev.raiseVec_eq (d : Dev) (f v : Nat) : d.raiseVec f v = { d with pcie := (d.raiseVec f v).pcie, out := (d.raiseVec f v).out } := by
  simp only [Dev.raiseVec, Dev.msixSend]
  split
  · rfl
  · split
    · rfl
    · split <;> rfl

@[simp] theorem Dev.mbox_raiseVec (d : Dev) (f v g : Nat) : (d.raiseVec f v).mbox g = d.mbox g := by rw [Dev.raiseVec_eq]; rfl

theorem onlyAnswers_iff {d t : Dev} : OnlyAnswers d t ↔ ∃ x y z, t = { d with mbx := x, pcie := y, out := z } := by
  constructor
  · exact fun h => ⟨_, _, _, h⟩
  · rintro ⟨x, y, z, rfl⟩
    rfl

theorem OnlyAnswers.trans {d t u : Dev} (h : OnlyAnswers d t) (g : OnlyAnswers t u) : OnlyAnswers d u := by
  obtain ⟨x, y, z, rfl⟩ := onlyAnswers_iff.mp h
  obtain ⟨x', y', z', rfl⟩ := onlyAnswers_iff.mp g
  rfl

theorem OnlyAnswers.kiln {d t : Dev} (h : OnlyAnswers d t) : t.kiln = d.kiln := by rw [h]

theorem OnlyAnswers.updMbox (d : Dev) (f : Nat) (g : Mbx → Mbx) : OnlyAnswers d (d.updMbox f g) := rfl
theorem OnlyAnswers.raiseVec (d : Dev) (f v : Nat) : OnlyAnswers d (d.raiseVec f v) := onlyAnswers_iff.mpr ⟨_, _, _, Dev.raiseVec_eq ..⟩

/-- Of the device only the mailbox of function `f` differs, and it is `m`. -/
def OnlyMbox (d t : Dev) (f : Nat) (m : Mbx) : Prop :=
  t = { d with mbx := t.mbx } ∧ t.mbox f = m ∧ ∀ g, g ≠ f → t.mbox g = d.mbox g

theorem Dev.onlyMbox_updMbox (d : Dev) (f : Nat) (g : Mbx → Mbx) : OnlyMbox d (d.updMbox f g) f (g (d.mbox f)) :=
  ⟨rfl, Dev.mbox_updMbox_self .., fun k hk => by rw [Dev.mbox_updMbox, if_neg hk]⟩

/-! ### A response is written (R147, R150, R160) -/

theorem toBytes_length (v n : Nat) : (toBytes v n).length = n := by
  induction n generalizing v with
  | zero => rfl
  | succ n ih => rw [toBytes, List.length_cons, ih]

theorem response_length (op st fl : Nat) (seq : W32) (pay : List Byte) (detail : Nat) (epoch : W32) :
    (response op st fl seq pay detail epoch).length = 16 + pay.length := by
  simp only [response, List.length_append, toBytes_length, List.length_cons, List.length_nil]

theorem OnlyAnswers.putResp (d : Dev) (f : Nat) (async : Bool) (bs : List Byte) : OnlyAnswers d (d.putResp f async bs) := by
  unfold Dev.putResp
  dsimp only
  split
  · exact (OnlyAnswers.updMbox ..).trans (.raiseVec ..)
  · exact .updMbox ..

/-- After a response the mailbox of its function holds it; IE and what waits there are as before. -/
theorem Dev.mbox_putResp_self (d : Dev) (f : Nat) (async : Bool) (bs : List Byte) :
    (d.putResp f async bs).mbox f =
      { d.mbox f with resp := Memory.writeL 0 (d.mbox f).resp 0 bs, busy := false, valid := true, async := async } := by
  unfold Dev.putResp
  dsimp only
  split
  · rw [Dev.mbox_raiseVec, Dev.mbox_updMbox_self]
  · rw [Dev.mbox_updMbox_self]

theorem OnlyAnswers.respond (d : Dev) (r : Req) (st detail : Nat) (pay : List Byte) : OnlyAnswers d (d.respond r st detail pay) :=
  .putResp ..

theorem Dev.answered_respond (d : Dev) (r : Req) (st detail : Nat) (pay : List Byte) :
    Answered (d.respond r st detail pay) r st (if st = stOk then pay else []) detail := by
  simp only [Answered, (OnlyAnswers.respond d r st detail pay).kiln, ← response_length r.op st (2 * b2n r.dry) r.seq _ detail d.kiln.epoch]
  simp only [Dev.respond, Dev.mbox_putResp_self, Memory.readN_writeL, and_self]

theorem Dev.answered_respond_nil (d : Dev) (r : Req) (st detail : Nat) : Answered (d.respond r st detail []) r st [] detail := by
  simpa only [ite_self] using d.answered_respond r st detail []

/-! ### A request that its checks refuse (R156) -/

theorem firstBad_of_mem {l : List (Nat × Bool)} {o : Nat} (h : (o, true) ∈ l) : ∃ x, firstBad l = some x := by
  have hm : o ∈ (l.filter Prod.snd).map Prod.fst := List.mem_map_of_mem (f := Prod.fst) (List.mem_filter.mpr ⟨h, rfl⟩)
  obtain ⟨a, as, e⟩ := List.exists_cons_of_ne_nil (List.ne_nil_of_mem hm)
  exact ⟨_, by rw [firstBad, e, lowest]⟩

/-- A request with an offending payload field is refused; what goes before the payload in the order of R156 is INVALID or DENIED too. -/
theorem Req.verdict_of_bad (r : Req) (fm : Form) {k : Check} {o : Nat} (h : (o, true) ∈ k.bad) :
    ∃ st x, (st = stInvalid ∨ st = stDenied) ∧ r.verdict fm k = some (st, x) := by
  unfold Req.verdict
  split
  · next x _ => exact ⟨stInvalid, x, .inl rfl, rfl⟩
  · split
    · exact ⟨stDenied, 0xFFFF, .inr rfl, rfl⟩
    · obtain ⟨x, hx⟩ := firstBad_of_mem (List.mem_append_right (r.zeroBad fm) h)
      exact ⟨stInvalid, 16 + x, .inl rfl, by rw [hx]⟩

theorem Dev.serve_of_verdict (d : Dev) {r : Req} {fm : Form} {k : Check} {st o : Nat} (h : r.verdict fm k = some (st, o)) (a : Act) :
    d.serve r fm k a = d.respond r st o [] := by
  simp only [Dev.serve, h]

/-! ### What RING answers itself (R145, log 50) -/

theorem Dev.reqOf_updMbox (d : Dev) (k f : Nat) {g : Mbx → Mbx} (h : ∀ m, (g m).req = m.req) : (d.updMbox k g).reqOf f = d.reqOf f := by
  have hr : ((d.updMbox k g).mbox f).req = (d.mbox f).req := by
    rw [Dev.mbox_updMbox]
    split
    · next hf => rw [h, hf]
    · rfl
  simp only [Dev.reqOf, hr]

section
variable {d : Dev} {f : Nat} {r : Req} {v : Selector}

theorem Dev.screen_of_silent (hr : d.reqOf f = r) (ha : d.answers r.op = false) : d.screen f = d := by
  simp only [Dev.screen, hr, ha, Bool.not_false, if_true]

theorem Dev.screen_of_unimplemented (hr : d.reqOf f = r) (ha : d.answers r.op = true) (hi : d.implemented r.op = false) :
    d.screen f = d.respond r stUnsupported 0xFFFF [] := by
  simp only [Dev.screen, hr, ha, hi, Bool.not_true, Bool.not_false, Bool.false_eq_true, if_true, if_false]

theorem Dev.screen_of_no_selector (hr : d.reqOf f = r) (hi : d.implemented r.op = true) (hs : d.selector r = none) : d.screen f = d := by
  simp only [Dev.screen, hr, hi, hs, Bool.not_true, Bool.false_eq_true, if_false, ite_self]

theorem Dev.screen_of_code (hr : d.reqOf f = r) (hi : d.implemented r.op = true) (hs : d.selector r = some v)
    (hc : v.codes.contains (r.get v.ofs v.size) = true) : d.screen f = d := by
  simp only [Dev.screen, hr, hi, hs, hc, Bool.not_true, Bool.false_eq_true, if_true, if_false, ite_self]

/-- A reserved selector is an offending field, so that the request is refused. -/
theorem Dev.screen_of_reserved (hr : d.reqOf f = r) (ha : d.answers r.op = true) (hi : d.implemented r.op = true)
    (hs : d.selector r = some v) (hc : v.codes.contains (r.get v.ofs v.size) = false) :
    ∃ st x, (st = stInvalid ∨ st = stDenied) ∧ d.screen f = d.respond r st x [] := by
  obtain ⟨st, x, hst, hv⟩ := r.verdict_of_bad v.form (o := v.ofs)
    (k := { denied := d.barred r || v.denied, bad := v.bad ++ [(v.ofs, true)] }) (List.mem_append_right _ (List.mem_singleton_self _))
  refine ⟨st, x, hst, ?_⟩
  simp only [Dev.screen, hr, ha, hi, hs, hc, Bool.not_true, Bool.false_eq_true, if_false]
  exact d.serve_of_verdict hv _

end

/-! ### RING, ACK and the placing of a response (R144, R145, R148, R160) -/

/-- The device after a RING is accepted: CMDBUSY is set. -/
def Dev.rung (d : Dev) (f : Nat) : Dev := d.updMbox f fun m => { m with busy := true }

theorem Dev.reqOf_rung (d : Dev) (f : Nat) : (d.rung f).reqOf f = d.reqOf f := d.reqOf_updMbox f f fun _ => rfl

theorem OnlyAnswers.rung_respond (d : Dev) (f : Nat) (r : Req) (st detail : Nat) : OnlyAnswers d ((d.rung f).respond r st detail []) :=
  (OnlyAnswers.updMbox ..).trans (.respond ..)

section
variable {d : Dev} {f : Nat}

theorem Dev.mbxRing_of_free (hr : (d.mbox f).ready = true) (hb : (d.mbox f).busy = false) (hv : (d.mbox f).valid = false) :
    d.mbxRing f = (d.rung f).screen f := by
  simp only [Dev.mbxRing, hr, hb, hv, Bool.not_false, Bool.and_self, if_true, Dev.rung]

theorem Dev.mbxRing_of_not_free (h : (d.mbox f).ready = false ∨ (d.mbox f).busy = true ∨ (d.mbox f).valid = true) :
    d.mbxRing f = d.updMbox f fun m => { m with ringRej := true } := by
  have hn : ((d.mbox f).ready && !(d.mbox f).busy && !(d.mbox f).valid) = false := by
    obtain h | h | h := h <;> simp only [h, Bool.false_and, Bool.not_true, Bool.and_false]
  simp only [Dev.mbxRing, hn, Bool.false_eq_true, if_false]

theorem Dev.mbxAck_of_valid (h : (d.mbox f).valid = true) :
    d.mbxAck f = d.updMbox f fun m => { m with valid := false, async := false } := by
  simp only [Dev.mbxAck, h, if_true]

theorem Dev.mbxAck_of_not_valid (h : (d.mbox f).valid = false) : d.mbxAck f = d := by
  simp only [Dev.mbxAck, h, Bool.false_eq_true, if_false]

theorem Dev.placeAsync_of_free {b : List Byte} {bs : List (List Byte)} (hq : (d.mbox f).queue = b :: bs) (hb : (d.mbox f).busy = false)
    (hv : (d.mbox f).valid = false) (hk : d.kiln.fw ≠ .none) :
    d.placeAsync f = (d.updMbox f fun m => { m with queue := bs }).putResp f true (b.take 12 ++ toBytes d.kiln.epoch.toNat 4 ++ b.drop 16) := by
  simp only [Dev.placeAsync, hq, hb, hv, hk, decide_false, Bool.or_self, Bool.false_eq_true, if_false]

end

section
variable {s : State} {f : Fn} {P : Dev → Prop}

theorem gives_mbxRing (h : P (s.dev.mbxRing f.val)) : Gives (.mbxRing f) s P := .of_run (f := (·.mbxRing f.val)) rfl h
theorem gives_mbxAck (h : P (s.dev.mbxAck f.val)) : Gives (.mbxAck f) s P := .of_run (f := (·.mbxAck f.val)) rfl h
theorem gives_asyncResponsePlace (h : P (s.dev.placeAsync f.val)) : Gives (.asyncResponsePlace f) s P :=
  .of_run (f := (·.placeAsync f.val)) rfl h

end

/-- Settles O29. An accepted RING sets CMDBUSY and screens the request, which is answered at once where its opcode is not implemented or its
selector reserved, and else left as it is; RING of a mailbox that is not free, ACK and the placing write one mailbox. -/
theorem mailboxHandshake : Obligations.MailboxHandshake := by
  intro s f d m r Only
  have req : (d.rung f.val).reqOf f.val = r := d.reqOf_rung f.val
  refine ⟨fun hr hb hv => ?_, fun h => gives_mbxRing ?_, fun h => gives_mbxAck ?_, fun h => ?_, fun b bs hq _ hb hv hk =>
    gives_asyncResponsePlace ?_⟩
  · have ring : d.mbxRing f.val = (d.rung f.val).screen f.val := Dev.mbxRing_of_free hr hb hv
    have waits (h : (d.rung f.val).screen f.val = d.rung f.val) : Only (.mbxRing f) { m with busy := true } := by
      refine gives_mbxRing (P := (OnlyMbox d · f.val _)) ?_
      rw [ring, h]
      exact d.onlyMbox_updMbox f.val _
    refine ⟨fun ha => waits (Dev.screen_of_silent req ha), fun ha hi => gives_mbxRing ?_, fun ha hi => ⟨fun hs =>
      waits (Dev.screen_of_no_selector req hi hs), fun v hs => ⟨fun hc => waits (Dev.screen_of_code req hi hs hc), fun hc =>
        gives_mbxRing ?_⟩⟩⟩
    · rw [ring, Dev.screen_of_unimplemented req ha hi]
      exact ⟨.rung_respond .., Dev.answered_respond_nil ..⟩
    · obtain ⟨st, x, hst, answer⟩ := Dev.screen_of_reserved req ha hi hs hc
      rw [ring, answer]
      exact ⟨.rung_respond .., st, x, hst, Dev.answered_respond_nil ..⟩
  · rw [Dev.mbxRing_of_not_free h]
    exact d.onlyMbox_updMbox f.val _
  · rw [Dev.mbxAck_of_valid h]
    exact d.onlyMbox_updMbox f.val _
  · have ack : s.dev.mbxAck f.val = s.dev := Dev.mbxAck_of_not_valid h
    exact congrArg (fun t => Host.Outcome.next { s with dev := t }) ack
  · rw [Dev.placeAsync_of_free hq hb hv hk]
    refine ⟨(OnlyAnswers.updMbox ..).trans (.putResp ..), ?_⟩
    simp only [Dev.mbox_putResp_self, Dev.mbox_updMbox_self, Memory.readN_writeL, and_self]

end Sys2Proof.Machine
end

section
/-!
SUPPORT. Operations on counters: what one command applies, what it gives and who sees it, and the host read that waited for it (06).
-/
namespace Sys2Proof.Machine

/-- A change that leaves the device as it is leaves the state as it is. -/
theorem State.run_of_same {s : State} {f : Dev → Dev} (h : f s.dev = s.dev) : s.run f = .next s := by
  rw [State.run, h]

/-! ### Operations of one source on a counter (R248, R252, R255) -/

theorem Dev.answerReads_of_none {d : Dev} (h : d.syn.reads = []) : d.answerReads = d := by
  have same : { d with syn := { d.syn with reads := [] } } = d := by rw [← h]
  rw [Dev.answerReads, h, List.foldl_nil, same]

/-- Of the sources below `n` one is served. -/
theorem foldl_range_one {α : Type} (f : α → Nat → α) (i n : Nat) (a : α) :
    (List.range n).foldl (fun a k => if decide (i = k) then f a k else a) a = if i < n then f a i else a := by
  induction n with
  | zero => rfl
  | succ n ih =>
    rw [List.range_succ, List.foldl_append, ih, List.foldl_cons, List.foldl_nil]
    by_cases hi : i = n
    · rw [hi, if_neg (Nat.lt_irrefl n), decide_eq_true rfl, if_pos rfl, if_pos (Nat.lt_succ_self n)]
    · rw [decide_eq_false hi, if_neg Bool.false_ne_true]
      have same : i < n ↔ i < n + 1 := by omega
      simp only [same]

theorem Dev.counterApply_one (d : Dev) (c : Nat) {src : Nat} (h : src < 24) : d.counterApply c (1#24 <<< src) = d.applySrc c src := by
  have bit (s : Nat) : (1#24 <<< src).getLsbD s = decide (src = s) := by
    rw [← BitVec.twoPow_eq, BitVec.getLsbD_twoPow, decide_eq_true h, Bool.true_and]
  simp only [Dev.counterApply, bit]
  rw [foldl_range_one (fun (d : Dev) s => d.applySrc c s), if_pos h]

/-- The device whose sync block has still to apply the operations `ps`. -/
def Dev.setPend (d : Dev) (ps : List SynPend) : Dev := { d with syn := { d.syn with pend := ps } }

theorem Dev.applySrc_of_ready {d : Dev} {c src : Nat} {p : SynPend} {rest : List SynPend} (ht : takePend c src d.syn.pend = some (p, rest))
    (hp : d.synReady p = true) : d.applySrc c src = (d.setPend rest).synApply p := by
  simp only [Dev.applySrc, ht, hp, if_true, Dev.setPend]

theorem Dev.applySrc_of_empty {d : Dev} {c src : Nat} (ht : takePend c src d.syn.pend = none) : d.applySrc c src = d := by
  simp only [Dev.applySrc, ht]

theorem exec_counterApply_of_idle {s : State} {c : CtrId} {src : Nat} (h : src < 24) (hr : s.dev.syn.reads = [])
    (ht : takePend c.toNat src s.dev.syn.pend = none) : exec (.counterApply c (1#24 <<< src)) s = .next s := by
  refine State.run_of_same (f := fun d => (d.counterApply c.toNat (1#24 <<< src)).answerReads) ?_
  rw [Dev.counterApply_one _ _ h, Dev.applySrc_of_empty ht, Dev.answerReads_of_none hr]

section
variable {s : State} {c : CtrId} {src : Nat} {p : SynPend} {rest : List SynPend} {t : Dev} {P : Dev → Prop}

/-- An operation that is ready is applied, and the host reads that waited for it are answered. -/
theorem gives_counterApply_answered (h : src < 24) (ht : takePend c.toNat src s.dev.syn.pend = some (p, rest)) (hp : s.dev.synReady p = true)
    (ha : (s.dev.setPend rest).synApply p = t) (hP : P t.answerReads) :
    Gives (.counterApply c (1#24 <<< src)) s P := by
  refine .of_run (f := fun d => (d.counterApply c.toNat (1#24 <<< src)).answerReads) rfl ?_
  rwa [Dev.counterApply_one _ _ h, Dev.applySrc_of_ready ht hp, ha]

/-- Where no host read waits, the operation is all that happens. -/
theorem gives_counterApply (h : src < 24) (ht : takePend c.toNat src s.dev.syn.pend = some (p, rest)) (hp : s.dev.synReady p = true)
    (ha : (s.dev.setPend rest).synApply p = t) (hr : t.syn.reads = []) (hP : P t) :
    Gives (.counterApply c (1#24 <<< src)) s P :=
  gives_counterApply_answered h ht hp ha (by rwa [Dev.answerReads_of_none hr])

end

theorem takePend_one {c src : Nat} {p : SynPend} (hc : p.ctr = c) (hs : p.src = src) : takePend c src [p] = some (p, []) := by
  simp only [takePend, hc, hs, decide_true, Bool.and_self, if_true]

/-- An operation of the host waits for no core. -/
theorem Dev.synReady_host {p : SynPend} (d : Dev) (hs : p.src = 0) : d.synReady p = true := by
  rw [Dev.synReady, hs, decide_eq_true (by decide : 0 < 6), Bool.true_or]

/-! ### What sees the new value of a counter (R254, R260, R655, R848) -/

theorem Core.seeCtr_wait {k : Core} {c v : Nat} {th : W64} {b : Bool} (hw : k.wait = .sync c th b) (hv : th.toNat ≤ v) :
    (k.seeCtr c v).wait = .sync c th true := by
  cases b with
  | false => simp only [Core.seeCtr, hw, hv, decide_true, Bool.and_self, if_true]
  | true => simp only [Core.seeCtr, hw]

theorem Core.seeCtr_eq (k : Core) (c v : Nat) : k.seeCtr c v = { k with wait := (k.seeCtr c v).wait } := by
  unfold Core.seeCtr
  split
  · split <;> rfl
  · rfl

theorem Job.seeCtr_watchSat {j : Job} {c v : Nat} (hs : j.st = .waiting) (hc : j.waitCtr = some c) (hv : j.waitVal ≤ v) :
    (j.seeCtr c v).watchSat = true := by
  have waits : (decide (j.st = .waiting) && j.waitCtr == some c && decide (j.waitVal ≤ v)) = true := by
    rw [hs, hc, decide_eq_true hv, beq_self_eq_true]
    rfl
  simp only [Job.seeCtr, waits, if_true]
  split <;> rfl

theorem Dev.core_ctrSeen (d : Dev) (c v n : Nat) : (d.ctrSeen c v).core n = (d.core n).seeCtr c v :=
  SMap.get_mapV _ (fun _ (k : Core) => k.seeCtr c v) _ _ rfl

theorem Dev.job_ctrSeen (d : Dev) (c v i : Nat) : (d.ctrSeen c v).job i = (d.job i).map (·.seeCtr c v) :=
  SMap.get_mapV none (fun _ (j : Option Job) => j.map fun (x : Job) => x.seeCtr c v) _ _ rfl

theorem Sle.seeCommit_eq (s : Sle) (c : Nat) (old v : W64) : s.seeCommit c old v =
    { s with commits := s.commits ++ if s.st = .running ∧ s.cfg.cmt = some c ∧ v ≠ old then [v] else [] } := by
  have same : (decide (s.st = .running) && s.cfg.cmt == some c && v != old) = decide (s.st = .running ∧ s.cfg.cmt = some c ∧ v ≠ old) := by
    rw [Bool.eq_iff_iff]
    simp only [Bool.and_eq_true, decide_eq_true_eq, beq_iff_eq, bne_iff_ne, and_assoc]
  rw [Sle.seeCommit, same]
  split
  · next h => rw [if_pos (of_decide_eq_true h)]
  · next h => rw [if_neg (fun g => h (decide_eq_true g)), List.append_nil]

/-- Device `t` after an operation has left the queue of `d`, which is then `rest`, and given counter `k` the value `v`. -/
def CtrApplied (d t : Dev) (k : Nat) (rest : List SynPend) (v : W64) (wrap : Bool) : Prop :=
  t.syn.pend = rest ∧ (∀ i, SMap.get 0 t.syn.ctr i = if i = k then v else SMap.get 0 d.syn.ctr i) ∧
  t.syn.wrap = (d.syn.wrap || wrap) ∧
  t = { d with syn := t.syn, cores := t.cores, stk := { d.stk with jobs := t.stk.jobs }, sle := t.sle } ∧
  t.sle = { d.sle with commits :=
    d.sle.commits ++ if d.sle.st = .running ∧ d.sle.cfg.cmt = some k ∧ v ≠ SMap.get 0 d.syn.ctr k then [v] else [] } ∧
  (∀ n th b, (d.core n).wait = .sync k th b → th.toNat ≤ v.toNat → (t.core n).wait = .sync k th true) ∧
  (∀ n, (t.core n).regs = (d.core n).regs ∧ (t.core n).sp = (d.core n).sp) ∧
  (∀ i j, d.job i = some j → j.st = .waiting → j.waitCtr = some k → j.waitVal ≤ v.toNat → ∃ j', t.job i = some j' ∧ j'.watchSat = true)

/-- The device after counter `c` has come to `v`, as everything that watches it has seen. -/
def Dev.ctrCome (d : Dev) (c : Nat) (v : W64) (wrap : Bool) : Dev :=
  ({ d with
    syn := { d.syn with ctr := SMap.set 0 d.syn.ctr c v, wrap := d.syn.wrap || wrap }
    sle := d.sle.seeCommit c (SMap.get 0 d.syn.ctr c) v } : Dev).ctrSeen c v.toNat

theorem Dev.ctrPut_of_good {d : Dev} {c : Nat} (h : SMap.get false d.syn.bad c = false) (v : W64) (wrap : Bool) :
    d.ctrPut c v wrap = d.ctrCome c v wrap := by
  simp only [Dev.ctrPut, h, Bool.false_eq_true, if_false, Dev.ctrCome]

theorem Dev.ctrPut_of_bad {d : Dev} {c : Nat} (h : SMap.get false d.syn.bad c = true) (v : W64) (wrap : Bool) :
    d.ctrPut c v wrap = d := by
  simp only [Dev.ctrPut, h, if_true]

theorem Dev.ctrApplied_ctrCome (d : Dev) (k : Nat) (rest : List SynPend) (v : W64) (wrap : Bool) :
    CtrApplied d ((d.setPend rest).ctrCome k v wrap) k rest v wrap := by
  refine ⟨rfl, fun i => SMap.get_set .., rfl, rfl, Sle.seeCommit_eq .., fun n th b hw hv => ?_, fun n => ?_, fun i j hj hs hc hv => ?_⟩
  · rw [Dev.ctrCome, Dev.core_ctrSeen]
    exact Core.seeCtr_wait hw hv
  · rw [Dev.ctrCome, Dev.core_ctrSeen, Core.seeCtr_eq]
    exact ⟨rfl, rfl⟩
  · rw [Dev.ctrCome, Dev.job_ctrSeen]
    exact ⟨j.seeCtr k v.toNat, congrArg (Option.map _) hj, Job.seeCtr_watchSat hs hc hv⟩

/-! ### One operation (R248, R260, R848) -/

section
variable {d : Dev} {p : SynPend} {k : Nat}

theorem Dev.synApply_set_of_good {v : W64} (hp : p.op = .set v) (hc : p.ctr = k) (good : SMap.get false d.syn.bad k = false) :
    d.synApply p = d.ctrCome k v false := by
  simp only [Dev.synApply, hp, hc, Dev.ctrPut_of_good good]

theorem Dev.synApply_set_of_bad {v : W64} (hp : p.op = .set v) (hc : p.ctr = k) (bad : SMap.get false d.syn.bad k = true) :
    d.synApply p = d := by
  simp only [Dev.synApply, hp, hc, Dev.ctrPut_of_bad bad]

/-- An ADD gives the sum modulo 2^64, and sets WRAP where the sum is 2^64 or more (R260). -/
theorem Dev.synApply_add_of_good {x : W32} (hp : p.op = .add x) (hc : p.ctr = k) (good : SMap.get false d.syn.bad k = false) :
    let old := SMap.get 0 d.syn.ctr k
    d.synApply p = d.ctrCome k (old + x.setWidth 64) (decide (2 ^ 64 ≤ old.toNat + x.toNat)) := by
  intro old
  have sum : BitVec.ofNat 64 (old.toNat + x.toNat) = old + x.setWidth 64 := by
    rw [BitVec.ofNat_add, BitVec.ofNat_toNat, BitVec.ofNat_toNat, BitVec.setWidth_eq]
  simp only [Dev.synApply, hp, hc, Dev.ctrPut_of_good good]
  rw [sum]

theorem Dev.synApply_read {n q : Nat} (hp : p.op = .read n q) (hc : p.ctr = k) : d.synApply p = d.ctrRead k n q := by
  simp only [Dev.synApply, hp, hc]

end

theorem Dev.ctrVal_ctrCome {d : Dev} {c : Nat} (h : SMap.get false d.syn.bad c = false) (v : W64) (wrap : Bool) :
    (d.ctrCome c v wrap).ctrVal c = v := by
  have bad : SMap.get false (d.ctrCome c v wrap).syn.bad c = false := h
  rw [Dev.ctrVal, bad, if_neg Bool.false_ne_true]
  exact SMap.get_set_self ..

/-! ### A core READ (R248) -/

theorem Dev.ctrRead_regs (d : Dev) (c n q : Nat) : ((d.ctrRead c n q).core n).regs = (d.core n).regs := by
  rw [Dev.ctrRead, Dev.core_updCore_self]

/-- The operation of a core that has asked for a counter stands ready to return its value. -/
theorem Dev.ctrRead_ops (d : Dev) (c n q : Nat) {o : Op} {r y : Nat} (ho : o ∈ (d.core n).ops) (hq : o.seq = q)
    (hk : o.kind = .syncRead r y) : { o with kind := .regs [.x r (d.ctrVal c)] } ∈ ((d.ctrRead c n q).core n).ops := by
  rw [Dev.ctrRead, Dev.core_updCore_self]
  refine List.mem_map.mpr ⟨o, ho, ?_⟩
  rw [if_pos hq, hk]

/-! ### A host read that waits for a counter (R939) -/

/-- The device with no host read waiting. -/
def Dev.noReads (d : Dev) : Dev := { d with syn := { d.syn with reads := [] } }

theorem Dev.answerReads_of_one {d : Dev} {r : HeldRead} (hr : d.syn.reads = [r]) (hp : d.syn.pend = []) :
    d.answerReads = d.noReads.answerRead r.fn r.off r.wide := by
  have free : (d.noReads.synBehind r.fn r.upto || [].any fun x : HeldRead => x.fn == r.fn) = false := by
    have pend : d.noReads.syn.pend = [] := hp
    rw [Dev.synBehind, pend]
    rfl
  rw [Dev.answerReads, hr, List.foldl_cons, List.foldl_nil]
  exact if_neg (Bool.eq_false_iff.mp free)

/-- No register of a row lies beyond the row's end. -/
theorem RegRow.has_of_beyond {r : RegRow} {o : Nat} (hs : 0 < r.stride) (ho : r.base + r.stride * r.count ≤ o) : r.has o = false := by
  have beyond : r.count ≤ (o - r.base) / r.stride := (Nat.le_div_iff_mul_le hs).mpr (by rw [Nat.mul_comm]; omega)
  rw [RegRow.has, decide_eq_false (Nat.not_lt.mpr beyond), Bool.and_false, Bool.false_and]

/-- The rows of the register map before the row of the counters, that row, and the rows after it. -/
def rowsBelowCounters : List RegRow := glbRows ++ mbxRows ++ stkRows.take 8
def ctrRow : RegRow := { base := 0x200000, stride := 8, count := 131072, width := 8, name := .synCtr }
def rowsAboveCounters : List RegRow := stkRows.drop 9 ++ corRows ++ sleRows ++ portRows ++ errRows ++ blwRows

theorem regRows_split : regRows = rowsBelowCounters ++ ctrRow :: rowsAboveCounters := rfl

theorem rowsBelowCounters_end : ∀ r ∈ rowsBelowCounters, 0 < r.stride ∧ r.base + r.stride * r.count ≤ 0x200000 := by decide

theorem regAt_synCtr {k : Nat} (hk : k < 131072) : regAt (0x200000 + 8 * k) = some (.synCtr k, 0x200000 + 8 * k, 8) := by
  have below : rowsBelowCounters.find? (·.has (0x200000 + 8 * k)) = none := by
    refine List.find?_eq_none.mpr fun r hr => Bool.eq_false_iff.mp ?_
    obtain ⟨hs, he⟩ := rowsBelowCounters_end r hr
    exact RegRow.has_of_beyond hs (Nat.le_trans he (Nat.le_add_right ..))
  have ofs : 0x200000 + 8 * k - ctrRow.base = 8 * k := Nat.add_sub_cancel_left ..
  have index : 8 * k / ctrRow.stride = k := Nat.mul_div_cancel_left k (by decide : 0 < 8)
  have start : 8 * k % ctrRow.stride < ctrRow.width := Nat.mod_lt _ (by decide : 0 < 8)
  have has : ctrRow.has (0x200000 + 8 * k) = true := by
    rw [RegRow.has, ofs, index, decide_eq_true start, decide_eq_true (show k < ctrRow.count from hk),
      decide_eq_true (show ctrRow.base ≤ 0x200000 + 8 * k from Nat.le_add_right ..)]
    rfl
  have found : (ctrRow :: rowsAboveCounters).find? (·.has (0x200000 + 8 * k)) = some ctrRow := List.find?_cons_of_pos has
  rw [regAt, regRows_split, List.find?_append, below, Option.none_or, found, Option.map_some]
  dsimp only
  rw [ofs, index, Nat.mul_comm]
  rfl

/-- A function that owns the block of a counter reads its value in one access. -/
theorem Dev.readAt_synCtr {d : Dev} {w : Viewer} {k : Nat} (hk : k < 131072) (hb : d.blockOpen w.fn (k / 256) = true) :
    d.readAt w (0x200000 + 8 * k) true = ((d.ctrVal k).toNat, d) := by
  have aligned : (0x200000 + 8 * k) / 8 * 8 = 0x200000 + 8 * k := by omega
  have reach : d.reaches w (.synCtr k) = true := by
    rw [Dev.reaches]
    split <;> rfl
  have whole : bits (d.ctrVal k).toNat 0 64 = (d.ctrVal k).toNat := Nat.mod_eq_of_lt (d.ctrVal k).isLt
  simp only [Dev.readAt, Bool.not_true, Bool.false_eq_true, if_false, aligned, regAt_synCtr hk, reach, if_true, Dev.readIn,
    Dev.synRefuses, hb, Dev.regVal, whole]

theorem Dev.answerRead_synCtr {d : Dev} {f k : Nat} (hk : k < 131072) (hb : d.blockOpen f (k / 256) = true) :
    d.answerRead f (0x200000 + 8 * k) true = d.send (.read f (d.ctrVal k).toNat) := by
  rw [Dev.answerRead, Dev.readAt_synCtr hk hb]

/-- A read that has waited for an operation on the counter which it reads is answered with the value that the operation gives. -/
theorem Dev.answerReads_ctrCome {d : Dev} {r : HeldRead} {k : Nat} (hk : k < 131072) (good : SMap.get false d.syn.bad k = false)
    (hb : d.blockOpen r.fn (k / 256) = true) (hp : d.syn.pend = []) (hr : d.syn.reads = [r]) (ho : r.off = 0x200000 + 8 * k)
    (hw : r.wide = true) (v : W64) (wrap : Bool) :
    (d.ctrCome k v wrap).answerReads = (d.ctrCome k v wrap).noReads.send (.read r.fn v.toNat) := by
  have answered : (d.ctrCome k v wrap).answerReads = _ := Dev.answerReads_of_one hr hp
  have value : (d.ctrCome k v wrap).noReads.ctrVal k = v := Dev.ctrVal_ctrCome good v wrap
  rw [answered, ho, hw, Dev.answerRead_synCtr (d := (d.ctrCome k v wrap).noReads) hk hb, value]

end Sys2Proof.Machine
end

section
/-!
SUPPORT. What the device writes by itself: the head write-back of a queue, the message of a vector, and an error record (05, 21, 24).
-/
namespace Sys2Proof.Machine

/-! ### Writes of the device, and the head write-back (R218) -/

theorem Dev.foldl_send_eq {α : Type} (g : α → OutMsg) (d : Dev) (l : List α) :
    l.foldl (fun d x => d.send (g x)) d = { d with out := (l.foldl (fun d x => d.send (g x)) d).out } := by
  induction l generalizing d with
  | nil => rfl
  | cons x l ih =>
    rw [List.foldl_cons, ih]
    rfl

theorem Dev.hostWrite_eq (d : Dev) (f : Nat) (det : Bool) (a : Nat) (bs : List Byte) :
    d.hostWrite f det a bs = { d with pcie := (d.hostWrite f det a bs).pcie, out := (d.hostWrite f det a bs).out } := by
  simp only [Dev.hostWrite]
  split
  · rfl
  · split
    · rfl
    · rw [Dev.foldl_send_eq]

/-- A write by the device changes memory, the hints of the cores and what leaves the device only. -/
theorem Dev.write_eq (d : Dev) (t : Nat) (det : Bool) (a : Nat) (bs : List Byte) : d.write t det a bs =
    { d with mem := (d.write t det a bs).mem, cores := (d.write t det a bs).cores, pcie := (d.write t det a bs).pcie,
             out := (d.write t det a bs).out } := by
  unfold Dev.write
  split
  · rfl
  · rw [Dev.hostWrite_eq]
  · rfl

theorem SMap.get_foldl_set_of_notMem {d v : Bool} {l : List Nat} {x : Nat} (h : x ∉ l) (m : SMap Bool) :
    SMap.get d (l.foldl (fun k y => SMap.set d k y v) m) x = SMap.get d m x := by
  induction l generalizing m with
  | nil => rfl
  | cons y l ih =>
    rw [List.mem_cons, not_or] at h
    obtain ⟨hy, hl⟩ := h
    rw [List.foldl_cons, ih hl, SMap.get_set_ne _ _ _ _ hy]

theorem mem_span {x lo n : Nat} : x ∈ span lo n ↔ lo ≤ x ∧ x < lo + n := by
  simp only [span, List.mem_map, List.mem_range]
  exact ⟨by rintro ⟨i, hi, rfl⟩; omega, fun h => ⟨x - lo, by omega, by omega⟩⟩

theorem Mem.byte_countFlit (m : Mem) (wr : Bool) (flit x : Nat) : (m.countFlit wr flit).byte x = m.byte x := by
  simp only [Mem.countFlit, Mem.eccAccess]
  split
  · rfl
  · split <;> rfl

theorem Mem.byte_countFlits (m : Mem) (wr : Bool) (fl : List Nat) (x : Nat) : (fl.foldl (Mem.countFlit · wr) m).byte x = m.byte x := by
  induction fl generalizing m with
  | nil => rfl
  | cons f fl ih => rw [List.foldl_cons, ih, Mem.byte_countFlit]

theorem Mem.outside_poke (m : Mem) (a : Nat) (bs : List Byte) : MemOutside m (m.poke a bs) a bs.length := by
  intro x hx
  have read : Memory.read 0 (m.poke a bs).dram x = Memory.read 0 m.dram x := by
    rw [Mem.poke, Memory.read_writeL, if_neg hx]
  have known : SMap.get false (m.poke a bs).known x = SMap.get false m.known x := by
    simp only [Mem.poke]
    split
    · rfl
    · exact SMap.get_foldl_set_of_notMem (fun h => hx (mem_span.mp h)) _
  rw [Mem.byte, read, known]
  rfl

theorem Dev.memOutside_write (d : Dev) (t : Nat) (det : Bool) (a : Nat) (bs : List Byte) :
    MemOutside d.mem (d.write t det a bs).mem a bs.length := by
  intro x hx
  unfold Dev.write
  split
  · rw [Dev.poke, Mem.byte_countFlits, Mem.outside_poke _ _ _ x hx]
  · rw [Dev.hostWrite_eq]
  · rfl

theorem Dev.queue_updQueue_of {d : Dev} {u : Nat} {q : Queue} (hq : d.queue u = some q) (f : Queue → Queue) :
    (d.updQueue u f).queue u = some (f q) := by rw [Dev.queue_updQueue_self, hq, Option.map_some]

theorem Dev.writeWb_spec {d : Dev} {u : Nat} {q : Queue} (hq : d.queue u = some q) (w : W64) (tn : Nat) (det : Bool) (a : Nat) :
    let t := (d.updQueue u fun q => { q with wb := w }).write tn det a (toBytes w.toNat 8)
    t.queue u = some { q with wb := w } ∧ t.syn = d.syn ∧ t.stk.jobs = d.stk.jobs ∧ MemOutside d.mem t.mem a 8 := by
  intro t
  have outside := Dev.memOutside_write (d.updQueue u fun q => { q with wb := w }) tn det a (toBytes w.toNat 8)
  rw [toBytes_length] at outside
  have frame : t = _ := Dev.write_eq ..
  refine ⟨?_, by rw [frame]; rfl, by rw [frame]; rfl, outside⟩
  rw [frame]
  exact Dev.queue_updQueue_of hq _

/-- The head write-back of a queue changes the word that it keeps of it, and in device memory the eight bytes of that word. -/
theorem Dev.headWb_spec {d : Dev} {u : Nat} {q : Queue} (hq : d.queue u = some q) :
    (∃ b, (d.headWb u).queue u = some { q with wb := b }) ∧ (d.headWb u).syn = d.syn ∧ (d.headWb u).stk.jobs = d.stk.jobs ∧
      MemOutside d.mem (d.headWb u).mem q.desc.headWb 8 := by
  simp only [Dev.headWb, hq]
  split
  · exact ⟨⟨q.wb, hq⟩, rfl, rfl, fun _ _ => rfl⟩
  · obtain ⟨queue, rest⟩ := Dev.writeWb_spec hq _ _ _ _
    exact ⟨⟨_, queue⟩, rest⟩

/-! ### Vectors (R801) -/

/-- A vector that is enabled and not masked sends its message where the link is up (R801). -/
theorem Dev.raiseVec_sends {d : Dev} {f v : Nat} (he : SMap.get false d.pcie.msixEn f = true) (hf : d.fnExists f = true)
    (hm : SMap.get false d.pcie.fnMask f = false) (hv : (SMap.get {} d.pcie.vecs (vecKey f v)).masked = false) (hl : d.pcie.dlup = true) :
    (d.raiseVec f v).out =
      d.out ++ [.msix f v (SMap.get {} d.pcie.vecs (vecKey f v)).addr (SMap.get {} d.pcie.vecs (vecKey f v)).data] := by
  simp only [Dev.raiseVec, he, hf, hm, hv, Bool.not_true, Bool.or_self, Bool.false_eq_true, if_false, Dev.msixSend, hl, if_true]
  rfl

/-! ### Error records (R848, R858) -/

theorem Dev.errStat_eq (d : Dev) (c : Nat) : d.errStat c =
    { d with err := { d.err with stat := d.err.stat ||| (1#7 <<< c) }, pcie := (d.errStat c).pcie, out := (d.errStat c).out } := by
  simp only [Dev.errStat]
  split
  · rw [Dev.raiseVec_eq]
  · rfl

/-- A record of a class that is always logged changes the log, the trace and what a raised vector changes. -/
theorem Dev.record_eq (d : Dev) {r : Rec} (hc : r.cls ≠ 1) : d.record r =
    { d with err := (d.record r).err, pcie := (d.record r).pcie, out := (d.record r).out, dbg := (d.record r).dbg } := by
  simp only [Dev.record, decide_eq_false hc, Bool.false_and, Bool.false_eq_true, if_false]
  rw [Dev.trace_eq, Dev.errStat_eq]

theorem Dev.recorded_record (d : Dev) {r : Rec} (hc : r.cls ≠ 1) (hr : r.cls - 1 < 7) : Recorded d (d.record r) r := by
  simp only [Recorded, Dev.record, decide_eq_false hc, Bool.false_and, Bool.false_eq_true, if_false]
  rw [Dev.trace_eq, Dev.errStat_eq]
  refine ⟨SMap.get_set_self .., rfl, ?_⟩
  simp only [BitVec.getLsbD_or, BitVec.getLsbD_shiftLeft, hr, decide_true, Nat.lt_irrefl, decide_false, Bool.not_false, Bool.true_and,
    Nat.sub_self, Bool.or_eq_true]
  exact .inr rfl

end Sys2Proof.Machine
end

section
/-!
SUPPORT. Arm slots: fires, releases and messages, a counter marked BAD, and the statement on counters and fires (06, 24).
-/
namespace Sys2Proof.Machine

/-! ### Fires (R262, R263, R267, R268) -/

theorem Dev.arm_updArm_self (d : Dev) (a : Nat) (f : Arm → Arm) : (d.updArm a f).arm a = f (d.arm a) := SMap.get_upd_self ..

theorem Arm.firedIn_iff (s : Arm) (n : Nat) : s.firedIn n = true ↔ s.firedAt = n + 1 := beq_iff_eq

/-- The slot after a fire in FCLK cycle `now`. -/
def Arm.fired (s : Arm) (now : Nat) : Arm :=
  { s with thresh := if s.rebased then s.thresh else s.thresh + s.step.setWidth 64, fires := satInc s.fires, armed := decide (s.step ≠ 0),
           due := false, rebased := false, firedAt := now + 1 }

/-- The sync block with the action of slot `a` under way: a RELEASE, or an IRQ message, in which fires of one slot merge (R268). -/
def Syn.act (y : Syn) (a : Nat) (s : Arm) : Syn :=
  if s.action = 1 then { y with rel := y.rel ++ [(a, s.target.toNat)] }
  else if y.irq.any (fun e => e.1 == a) then y
  else { y with irq := y.irq ++ [(a, SMap.get 0 y.owner (a / 16) - 1, s.target.toNat)] }

theorem Syn.act_eq (y : Syn) (a : Nat) (s : Arm) : y.act a s = { y with rel := (y.act a s).rel, irq := (y.act a s).irq } := by
  unfold Syn.act
  split
  · rfl
  · split <;> rfl

theorem Syn.act_release {y : Syn} {a : Nat} {s : Arm} (h : s.action = 1) :
    (y.act a s).rel = y.rel ++ [(a, s.target.toNat)] ∧ (y.act a s).irq = y.irq := by
  rw [Syn.act, if_pos h]
  exact ⟨rfl, rfl⟩

theorem Syn.act_irq {y : Syn} {a : Nat} {s : Arm} (h : s.action ≠ 1) : (y.act a s).rel = y.rel ∧ ∃ e ∈ (y.act a s).irq, e.1 = a := by
  rw [Syn.act, if_neg h]
  split
  · next hi =>
    obtain ⟨e, he, ha⟩ := List.any_eq_true.mp hi
    exact ⟨rfl, e, he, beq_iff_eq.mp ha⟩
  · exact ⟨rfl, _, List.mem_append_right _ (List.mem_singleton_self _), rfl⟩

theorem Dev.armFire_of_sat {d : Dev} {a : Nat} (hs : d.armSat (d.arm a) = true) (hf : (d.arm a).firedAt ≠ d.fno + 1) :
    let y := d.syn.act a (d.arm a)
    d.armFire a =
      { d with syn := { d.syn with arms := SMap.set {} d.syn.arms a ((d.arm a).fired d.fno), rel := y.rel, irq := y.irq } } := by
  intro y
  have fresh : (d.arm a).firedIn d.fno = false := Bool.eq_false_iff.mpr fun h => hf ((Arm.firedIn_iff ..).mp h)
  have fires : d.armFire a = { d with syn := { y with arms := SMap.set {} y.arms a ((d.arm a).fired d.fno) } } := by
    simp only [Dev.armFire, hs, fresh, Bool.not_true, Bool.or_self, Bool.false_eq_true, if_false]
    rfl
  have acts : y = _ := Syn.act_eq ..
  rw [fires, acts]

theorem Dev.armFire_of_not {d : Dev} {a : Nat} (h : d.armSat (d.arm a) = false ∨ (d.arm a).firedAt = d.fno + 1) : d.armFire a = d := by
  have none : (!d.armSat (d.arm a) || (d.arm a).firedIn d.fno) = true := by
    obtain h | h := h
    · rw [h, Bool.not_false, Bool.true_or]
    · rw [(Arm.firedIn_iff ..).mpr h, Bool.or_true]
  simp only [Dev.armFire, none, if_true]

/-! ### A RELEASE fire and an IRQ message (R267, R268) -/

/-- The device whose sync block has still to carry out the RELEASE fires `r`. -/
def Dev.setRel (d : Dev) (r : List (Nat × Nat)) : Dev := { d with syn := { d.syn with rel := r } }

section
variable {d : Dev} {a u : Nat} {r : List (Nat × Nat)} {q : Queue}

theorem Dev.armRelease_of_full (ht : takeSlot a d.syn.rel = some (u, r)) (hq : d.queue u = some q)
    (hn : (q.tail + 1) % q.desc.sqSize = q.head) : d.armRelease a = (d.setRel r).updArm a fun s => { s with relFull := true } := by
  have hq' : ({ d with syn := { d.syn with rel := r } } : Dev).queue u = some q := hq
  simp only [Dev.armRelease, ht, hq', hn, if_true, Dev.setRel]

theorem Dev.armRelease_of_room (ht : takeSlot a d.syn.rel = some (u, r)) (hq : d.queue u = some q)
    (hn : (q.tail + 1) % q.desc.sqSize ≠ q.head) : d.armRelease a =
      ((d.setRel r).updQueue u fun q' => { q' with tail := (q.tail + 1) % q.desc.sqSize, stopped := false }).headWb u := by
  have hq' : ({ d with syn := { d.syn with rel := r } } : Dev).queue u = some q := hq
  simp only [Dev.armRelease, ht, hq', hn, if_false, Dev.setRel]

/-- Where the ring has room, the tail of the queue moves on by one entry, and the head write-back follows. -/
theorem Dev.armRelease_moves (ht : takeSlot a d.syn.rel = some (u, r)) (hq : d.queue u = some q)
    (hn : (q.tail + 1) % q.desc.sqSize ≠ q.head) :
    let t := d.armRelease a
    (∃ b, t.queue u = some { q with tail := (q.tail + 1) % q.desc.sqSize, stopped := false, wb := b }) ∧
      t.syn = { d.syn with rel := r } ∧ t.stk.jobs = d.stk.jobs ∧ MemOutside d.mem t.mem q.desc.headWb 8 := by
  intro t
  have waits : (d.setRel r).queue u = some q := hq
  have moves := Dev.headWb_spec (Dev.queue_updQueue_of waits fun q' => { q' with tail := (q.tail + 1) % q.desc.sqSize, stopped := false })
  rwa [← Dev.armRelease_of_room ht hq hn] at moves

end

theorem Dev.armIrq_of_take {d : Dev} {a : Nat} {e : Nat × Nat} {r : List (Nat × Nat × Nat)} (ht : takeSlot a d.syn.irq = some (e, r)) :
    d.armIrq a = ({ d with syn := { d.syn with irq := r } } : Dev).raiseVec e.1 e.2 := by
  simp only [Dev.armIrq, ht]

/-! ### A counter marked BAD (R848) -/

/-- The device with counter `c` marked BAD. -/
def Dev.markBad (d : Dev) (c : Nat) : Dev := { d with syn := { d.syn with bad := SMap.set false d.syn.bad c true } }

/-- An uncorrectable error marks its counter BAD and is recorded; every counter keeps its value, every core and queue its state. -/
theorem Dev.ctrUe_spec (d : Dev) (c : Nat) :
    let t := d.ctrUe c
    (∀ i, SMap.get false t.syn.bad i = if i = c then true else SMap.get false d.syn.bad i) ∧ t.syn.ctr = d.syn.ctr ∧ t.stk = d.stk ∧
      t.cores = d.cores ∧ Recorded d t { cls := 5, source := 2, code := 0x0016, info := c } := by
  intro t
  have frame : t = _ := Dev.record_eq (d.markBad c) (by decide : (5 : Nat) ≠ 1)
  have log := Dev.recorded_record (d.markBad c) (r := { cls := 5, source := 2, code := 0x0016, info := c }) (by decide : (5 : Nat) ≠ 1)
    (by decide : (4 : Nat) < 7)
  have syn : t.syn = (d.markBad c).syn := by rw [frame]
  refine ⟨fun i => ?_, by rw [syn]; rfl, by rw [frame]; rfl, by rw [frame]; rfl, log⟩
  rw [syn]
  exact SMap.get_set ..

/-! ### The statement -/

section
variable {s : State} {c : CtrId} {a : SlotId} {P : Dev → Prop}

theorem gives_armSlotFire (h : P (s.dev.armFire a.toNat)) : Gives (.armSlotFire a) s P := .of_run (f := (·.armFire a.toNat)) rfl h
theorem gives_armReleaseTail (h : P (s.dev.armRelease a.toNat)) : Gives (.armReleaseTail a) s P :=
  .of_run (f := (·.armRelease a.toNat)) rfl h
theorem gives_armIrqMessage (h : P (s.dev.armIrq a.toNat)) : Gives (.armIrqMessage a) s P := .of_run (f := (·.armIrq a.toNat)) rfl h
theorem gives_syncCounterUe (h : P (s.dev.ctrUe c.toNat)) : Gives (.syncCounterUe c) s P := .of_run (f := (·.ctrUe c.toNat)) rfl h

end

/-- Settles O45. One source is served, so that its oldest operation is all that a command applies; what it gives depends on whether the counter is
BAD, and everything that watches the counter is told. A host read is answered from the register map at the counter's own offset. A fire, a release,
an IRQ message and a marking each change what their equation says. -/
theorem countersAndFires : Obligations.CountersAndFires := by
  intro s c a src p rest hsrc d k old sl Applied
  refine ⟨fun hr ht hp hc => ⟨fun good => ⟨fun v hv => ?_, fun x hx => ?_⟩, fun bad v hv => ?_, fun n q hop => ?_⟩,
    exec_counterApply_of_idle hsrc, fun g v r hpend hs hf hv hc good ho hr hg hoff hw _ => ?_,
    fun hs hf => gives_armSlotFire ?_, fun h => ?_, fun u r q ht hq => ⟨fun hn => gives_armReleaseTail ?_,
      fun hn => gives_armReleaseTail ?_⟩, fun e r ht => gives_armIrqMessage ?_, gives_syncCounterUe ?_⟩
  · exact gives_counterApply hsrc ht hp (Dev.synApply_set_of_good hv hc good) hr (d.ctrApplied_ctrCome ..)
  · exact gives_counterApply hsrc ht hp (Dev.synApply_add_of_good hx hc good) hr (d.ctrApplied_ctrCome ..)
  · exact gives_counterApply hsrc ht hp (Dev.synApply_set_of_bad hv hc bad) hr rfl
  · exact gives_counterApply hsrc ht hp (Dev.synApply_read hop hc) hr ⟨rfl, fun m hm => Dev.core_updCore_ne _ _ _ hm,
      Dev.ctrRead_regs .., fun o ho r y => Dev.ctrRead_ops _ _ _ _ ho⟩
  · have ht : takePend k 0 d.syn.pend = some (p, []) := by rw [hpend, takePend_one hc hs]
    refine gives_counterApply_answered (src := 0) (by decide) ht (d.synReady_host hs) (Dev.synApply_set_of_good hv hc good) ?_
    subst hg
    rw [Dev.answerReads_ctrCome (d := d.setPend []) c.isLt good ho rfl hr hoff hw]
    exact ⟨rfl, rfl, rfl⟩
  · rw [Dev.armFire_of_sat hs hf]
    exact ⟨rfl, SMap.get_set_self .., fun ha => Syn.act_release ha, fun ha => Syn.act_irq ha⟩
  · exact State.run_of_same (f := (·.armFire a.toNat)) (Dev.armFire_of_not h)
  · rw [Dev.armRelease_of_full ht hq hn]
    exact ⟨Dev.arm_updArm_self .., rfl, rfl⟩
  · exact Dev.armRelease_moves ht hq hn
  · rw [Dev.armIrq_of_take ht]
    exact ⟨Dev.raiseVec_eq .., fun he hf hm hv hl => Dev.raiseVec_sends he hf hm hv hl⟩
  · exact d.ctrUe_spec k

end Sys2Proof.Machine
end

section
/-!
SUPPORT. Instructions that nothing holds: the device after the issue of an instruction whose plan has no interlock, and what the CCLK of the issue
leaves of the core. Results at once (XResult) and after a latency (Starts) follow (07, 08).
-/
namespace Sys2Proof.Machine

/-! ### The register files -/

/-- The x, f, p and v registers are unchanged. -/
structure SameFiles (c c' : Core) : Prop where
  x : SameX c c'
  f : SameF c c'
  p : SameP c c'
  v : SameV c c'

theorem SameFiles.trans {a b c : Core} (h : SameFiles a b) (g : SameFiles b c) : SameFiles a c where
  x r := (g.x r).trans (h.x r)
  f r := (g.f r).trans (h.f r)
  p r := (g.p r).trans (h.p r)
  v r l := (g.v r l).trans (h.v r l)

theorem SameFiles.of_regs {c c' : Core} (hx : c'.regs.x = c.regs.x) (hf : c'.regs.f = c.regs.f) (hp : c'.regs.p = c.regs.p)
    (hv : c'.regs.v = c.regs.v) : SameFiles c c' where
  x r := by rw [Core.getX, hx]; rfl
  f r := by rw [Core.getF, hf]; rfl
  p r := by rw [Core.getP, hp]; rfl
  v r l := by rw [Core.getL, hv]; rfl

/-! ### The passing of a CCLK -/

@[simp] theorem Op.passed_kind (o : Op) : o.passed.kind = o.kind := by unfold Op.passed Op.endLease; split <;> rfl
@[simp] theorem Op.passed_unit (o : Op) : o.passed.unit = o.unit := by unfold Op.passed Op.endLease; split <;> rfl
@[simp] theorem Op.passed_dst (o : Op) : o.passed.dst = o.dst := by unfold Op.passed Op.endLease; split <;> rfl
@[simp] theorem Op.passed_left (o : Op) : o.passed.left = o.left - 1 := by unfold Op.passed Op.endLease; split <;> rfl

theorem Core.addOp_ops (c : Core) (o : Op) : (c.addOp o).ops = c.ops ++ [{ o with seq := c.nextSeq, dst := realRegs o.dst }] := rfl

theorem SameStore.refl (c : Core) : SameStore c c := by constructor <;> rfl

/-- What a CCLK leaves of a core that is not halted and squashes nothing. -/
structure Passed (m c : Core) : Prop where
  store : SameStore m c
  files : SameFiles m c
  ops : c.ops = m.ops.map Op.passed
  pc : c.regs.pc = m.regs.pc
  claim : c.tok.claim = m.tok.claim
  budgOn : c.regs.budgOn = m.regs.budgOn
  budget : c.regs.budget = (m.regs.budgetCycle m.run).budget

theorem Core.passed {m : Core} (h : m.dbg.halted = false) (hd : m.rows.drop = false) : Passed m m.cycle.settled := by
  obtain ⟨store, ops, x, f, p, v, pc⟩ := Core.passed_of_kept ⟨.refl m, rfl, rfl⟩ h hd
  refine ⟨store, ⟨x, f, p, v⟩, ops, pc, ?_, ?_, ?_⟩ <;> rw [Core.cycle_going m h hd] <;> rfl

theorem Core.ready_run {c : Core} {p : Prog} (h : c.ready p = true) : c.run = true := by
  simp only [Core.ready, Bool.and_eq_true] at h
  obtain ⟨⟨⟨⟨⟨⟨run, -⟩, -⟩, -⟩, -⟩, -⟩, -⟩ := h
  exact run

/-! ### A plan without interlocks -/

/-- A plan that waits for nothing, takes no range and no port, cannot fault and reports no hazard. -/
structure Plan.Free (pl : Plan) : Prop where
  presolveWait : pl.presolveWait = false
  versionedWrite : pl.versionedWrite = false
  busy : pl.busy = false
  synds : pl.synds = []
  holds : pl.holds = []
  vuPort : pl.vuPort = none
  narrowPort : pl.narrowPort = none
  haz : pl.haz = []
  delay : pl.delay = 0

theorem Core.gate_of_free (c : Core) (fno : Nat) (pres : Bool) {pl : Plan} (h : pl.Free) : c.gate fno pres 0 pl = .go := by
  simp [Core.gate, h.presolveWait, h.versionedWrite, h.busy, h.synds, h.holds, h.vuPort, h.narrowPort, h.haz, h.delay, Core.tokensOk,
    Core.rangeBlocked, lowest]

/-- A core whose instruction has been fetched and has issued, before the effect of the plan. -/
def Core.issuedFrom (c : Core) (p : Prog) : Core := ({ c with spec := c.spec.touch (p.line c.regs.pc) } : Core).issued 0 (c.regs.pc + 1)

theorem Core.kept_issuedFrom (c : Core) (p : Prog) : Kept c (c.issuedFrom p) := by
  obtain ⟨_, rfl, kept, -⟩ := Core.issued_spec c p
  exact kept

theorem Core.sameFiles_issuedFrom (c : Core) (p : Prog) : SameFiles c (c.issuedFrom p) := by
  obtain ⟨_, rfl, -, x, f, q, v, -⟩ := Core.issued_spec c p
  exact ⟨x, f, q, v⟩

/-- An effect that leaves the rows and the register files, and does not halt the core: the CCLK of the issue passes. -/
theorem Core.passed_of_issuedFrom {c m : Core} {p : Prog} (h : c.ready p = true) (hd : c.rows.drop = false)
    (hm : m.dbg.halted = (c.issuedFrom p).dbg.halted) (hr : m.rows = (c.issuedFrom p).rows) (hs : SameFiles (c.issuedFrom p) m) :
    Passed m m.cycle.settled ∧ SameFiles c m.cycle.settled := by
  have kept := c.kept_issuedFrom p
  have passed : Passed m m.cycle.settled := Core.passed (by rw [hm, kept.halted, Core.ready_going h]) (by rw [hr, kept.store.rows, hd])
  exact ⟨passed, (c.sameFiles_issuedFrom p).trans (hs.trans passed.files)⟩

/-- The device after the issue of an instruction of core `n`, before the effect of the plan. -/
def Dev.issuedFrom (d : Dev) (n : Nat) (p : Prog) : Dev :=
  ((d.fetched n p).markStart n).updCore n (·.issued 0 ((d.core n).regs.pc + 1))

theorem Dev.core_issuedFrom (d : Dev) (n : Nat) (p : Prog) : (d.issuedFrom n p).core n = (d.core n).issuedFrom p := by
  rw [Dev.issuedFrom, Dev.core_updCore_self, Dev.core_markStart, Dev.fetched, Dev.core_updCore_self]
  rfl

theorem Outside.issuedFrom (d : Dev) (n : Nat) (p : Prog) : Outside d (d.issuedFrom n p) n :=
  ((Outside.updCore d n _).trans (.markStart _ n n)).trans (.updCore ..)

section
variable {plan : Nat → Core → Job → Prog → Dev → Plan} {n : Nat} {q : Pred} {op : CoreOp} {d : Dev} {j : Job} {p : Prog} {pl : Plan}

/-- An instruction without token cost and with a plan without interlocks takes its effect, and a CCLK passes. -/
theorem issueWith_free (h : CanIssue d n q (op.srcs ++ op.dsts) j p) (hr : op.reserved = false)
    (hu : ∀ u, op.unit? = some u → (d.core n).unitFree u) (hc : op.cost = 0)
    (hp : plan n ((d.fetched n p).core n) j p (d.fetched n p) = pl) (free : pl.Free) (hn : pl.next = (d.core n).regs.pc + 1) :
    issueWith plan n q op d = ((pl.act (d.core n).tok.ilease (d.issuedFrom n p)).cycle n).peakUp := by
  subst hp
  have il : ((d.fetched n p).core n).tok.ilease = (d.core n).tok.ilease := by rw [Dev.fetched, Dev.core_updCore_self]
  rw [issueWith_commits h hr hu (by rw [hc]; exact Core.gate_of_free _ _ _ free), hc, Dev.commit_eq _ _ _ _ free.haz, il, hn]
  rfl

/-- The same for an effect on the core alone: the device outside the core, and the core. -/
theorem issueWith_free_updCore {f : Nat → Core → Core} (h : CanIssue d n q (op.srcs ++ op.dsts) j p) (hr : op.reserved = false)
    (hu : ∀ u, op.unit? = some u → (d.core n).unitFree u) (hc : op.cost = 0)
    (hp : plan n ((d.fetched n p).core n) j p (d.fetched n p) = pl) (free : pl.Free) (hn : pl.next = (d.core n).regs.pc + 1)
    (hf : ∀ il e, pl.act il e = e.updCore n (f il)) :
    Outside d (issueWith plan n q op d) n ∧
      (issueWith plan n q op d).core n = (f (d.core n).tok.ilease ((d.core n).issuedFrom p)).cycle.settled := by
  rw [issueWith_free h hr hu hc hp free hn, hf]
  refine ⟨(((Outside.issuedFrom d n p).trans (.updCore ..)).trans (.cycle ..)).trans (.peakUp ..), ?_⟩
  rw [Dev.core_peakUp, Dev.core_cycle, Dev.core_updCore_self, Dev.core_issuedFrom]

end

/-! ### Results at once, and after a latency -/

section
variable {i : Instr} {s : State} {plan : Nat → Core → Job → Prog → Dev → Plan} {n : Nat} {q : Pred} {op : CoreOp} {j : Job} {p : Prog}

theorem XResult.of_regs {r : Nat} {w : W64} (hi : exec i s = s.run (issueWith plan n q op))
    (h : CanIssue s.dev n q (op.srcs ++ op.dsts) j p) (hr : op.reserved = false) (hu : op.unit? = none) (hc : op.cost = 0)
    (hp : plan n ((s.dev.fetched n p).core n) j p (s.dev.fetched n p) = .regs n ((s.dev.fetched n p).core n) [.x r w]) :
    XResult i s n r w := by
  obtain ⟨outside, core⟩ := issueWith_regs h hr hu hc hp
  unfold XResult
  refine .of_run (f := issueWith plan n q op) hi ?_
  rw [core]
  exact ⟨outside, Core.afterRegs_x _ p r w (Core.ready_going h.ready) h.settled⟩

theorem Starts.of_long {o : Op} (hi : exec i s = s.run (issueWith plan n q op))
    (h : CanIssue s.dev n q (op.srcs ++ op.dsts) j p) (hr : op.reserved = false)
    (hu : ∀ u, op.unit? = some u → (s.dev.core n).unitFree u) (hc : op.cost = 0)
    (hp : plan n ((s.dev.fetched n p).core n) j p (s.dev.fetched n p) = .long n ((s.dev.fetched n p).core n) o) :
    Starts i s n o.kind o.unit o.dst o.left := by
  have hn : (Plan.long n ((s.dev.fetched n p).core n) o).next = (s.dev.core n).regs.pc + 1 := by
    rw [Plan.long, Dev.fetched, Dev.core_updCore_self]
  obtain ⟨outside, core⟩ := issueWith_free_updCore (f := fun il c => c.addOp { o with ilease := il }) h hr hu hc hp (by constructor <;> rfl) hn
    fun _ _ => rfl
  have kept := (s.dev.core n).kept_issuedFrom p
  obtain ⟨passed, files⟩ := Core.passed_of_issuedFrom (m := ((s.dev.core n).issuedFrom p).addOp { o with ilease := (s.dev.core n).tok.ilease })
    h.ready h.settled rfl rfl (.of_regs rfl rfl rfl rfl)
  unfold Starts
  refine .of_run (f := issueWith plan n q op) hi ?_
  rw [core]
  refine ⟨outside, ⟨files.x, files.f, files.p, files.v, passed.store.fpc.trans kept.store.fpc, passed.store.phase.trans kept.store.phase⟩,
    passed.store.sp.trans kept.store.sp, passed.store.estore.trans kept.store.estore, passed.store.ember.trans kept.store.ember,
    passed.store.wait.trans kept.store.wait, passed.store.dmaq.trans kept.store.dmaq, passed.store.rq.trans kept.store.rq, passed.pc, ?_⟩
  rw [passed.ops, Core.addOp_ops, List.map_append, kept.ops]
  exact ⟨_, rfl, Op.passed_kind _, Op.passed_unit _, Op.passed_dst _, Op.passed_left _⟩

end

end Sys2Proof.Machine
end

section
/-!
SUPPORT. Special registers, phase markers and budgets: the value that sr.write gives `fpc`, what the expiry of a budget changes, and what a phase
marker changes (01, 07, 08).
-/
namespace Sys2Proof.Machine

/-! ### sr.read (R334, R335) -/

/-- A special register other than `time` is read at once. -/
theorem XResult.srRead {s : State} {n : CoreN} {q : Pred} {d : Reg} {sr : Fin 9} {j : Job} {p : Prog}
    (h : CanIssue s.dev n.val q [.x d.toNat] j p) (hs : sr.val ≠ 4) :
    XResult (.srRead n q d sr) s n.val d.toNat ((s.dev.core n.val).special j s.dev.glb.time sr.val) := by
  refine .of_regs (op := .srRead d.toNat sr.val) (plan := fun n c j _ dv => planSrRead d.toNat sr.val n c j dv) rfl h rfl rfl rfl ?_
  rw [planSrRead, if_neg hs, Dev.fetched, Dev.core_updCore_self]
  rfl

theorem Starts.srRead_time {s : State} {n : CoreN} {q : Pred} {d : Reg} {j : Job} {p : Prog} (h : CanIssue s.dev n.val q [.x d.toNat] j p) :
    Starts (.srRead n q d 4) s n.val (.regs [.x d.toNat s.dev.glb.time]) .scalar [.x d.toNat] 4 :=
  .of_long (op := .srRead d.toNat 4) (plan := fun n c j _ dv => planSrRead d.toNat 4 n c j dv)
    (o := regsOp .scalar [.x d.toNat s.dev.glb.time] [.x d.toNat] 4 0 0 false) rfl h rfl nofun rfl rfl

/-! ### sr.write (R336, R409, R417) -/

/-- The defined bits of `fpc`: its low 6 and its high 16. -/
theorem and_fpc_bits {n : Nat} (h : n < 2 ^ 32) : n &&& 0xFFFF003F = n % 64 + n / 2 ^ 16 * 2 ^ 16 := by
  have high : (n &&& 0xFFFF003F) / 2 ^ 16 = n / 2 ^ 16 := by
    rw [Nat.and_div_two_pow, show 0xFFFF003F / 2 ^ 16 = 2 ^ 16 - 1 from rfl, Nat.and_two_pow_sub_one_eq_mod]
    omega
  have low : (n &&& 0xFFFF003F) % 2 ^ 16 = n % 64 := by
    rw [Nat.and_mod_two_pow, show 0xFFFF003F % 2 ^ 16 = 2 ^ 6 - 1 from rfl, Nat.and_two_pow_sub_one_eq_mod]
    omega
  omega

/-- A value with permitted RM and CRM is written in its defined bits. -/
theorem fpcWrite_of_permitted (image : W32) {w : W32} (hr : w.toNat % 4 < 2) (hc : w.toNat / 4 % 4 < 3) :
    fpcWrite image w = (w &&& 0xFFFF003F, false) := by
  have rm : decide (2 ≤ bits w.toNat 0 2) = false := by
    simp only [bits, Nat.shiftRight_eq_div_pow, decide_eq_false_iff_not]; omega
  have crm : (bits w.toNat 2 2 == 3) = false := by
    simp only [bits, Nat.shiftRight_eq_div_pow, beq_eq_false_iff_ne]; omega
  have value : bits w.toNat 0 2 + place (bits w.toNat 2 2) 2 2 + place (bits w.toNat 4 2) 4 2 + place (bits w.toNat 16 16) 16 16 =
      (w &&& 0xFFFF003F).toNat := by
    rw [BitVec.toNat_and, show (0xFFFF003F : W32).toNat = 0xFFFF003F from rfl, and_fpc_bits w.isLt]
    simp only [bits, place, Nat.shiftRight_eq_div_pow, Nat.shiftLeft_eq]
    omega
  simp only [fpcWrite, rm, crm, Bool.false_eq_true, if_false, Bool.or_self, value, BitVec.ofNat_toNat, BitVec.setWidth_eq]

/-- `fpc` is written, and the generators are reseeded: GD before its next transfer. -/
def Core.writeFpc (c : Core) (v : W32) : Core :=
  { c with regs := { c.regs with fpc := v }, gv := seedGv v c.idx, gdNext := some (seedGd v c.idx) }

/-- The fetch of an sr.write changes nothing that its plan looks at. -/
theorem planSrWrite_fetched (a n : Nat) (d : Dev) (j : Job) (p : Prog) :
    planSrWrite a n ((d.fetched n p).core n) j p = planSrWrite a n (d.core n) j p := by
  rw [Dev.fetched, Dev.core_updCore_self]
  rfl

theorem Plan.free_srWrite {a n : Nat} {c : Core} {j : Job} {p : Prog} (h : c.ops.any Op.fp = false) : (planSrWrite a n c j p).Free :=
  ⟨rfl, rfl, h, rfl, rfl, rfl, rfl, rfl, rfl⟩

theorem planSrWrite_act {a n : Nat} {c : Core} {j : Job} {p : Prog} (hr : ((c.getX a).setWidth 32 : W32).toNat % 4 < 2)
    (hc : ((c.getX a).setWidth 32 : W32).toNat / 4 % 4 < 3) (il : Nat) (e : Dev) :
    (planSrWrite a n c j p).act il e = e.updCore n (·.writeFpc ((c.getX a).setWidth 32 &&& 0xFFFF003F)) := by
  simp only [planSrWrite, fpcWrite_of_permitted _ hr hc, Bool.false_eq_true, if_false, Core.writeFpc]

/-- An sr.write issues, and a CCLK passes. -/
theorem Core.writeFpc_passed {c : Core} {p : Prog} (h : c.ready p = true) (hd : c.rows.drop = false) (v : W32) :
    let c' := ((c.issuedFrom p).writeFpc v).cycle.settled
    c'.regs.fpc = v ∧ c'.gv = seedGv v c.idx ∧ c'.gdNext = some (seedGd v c.idx) ∧ c'.gd = c.gd ∧ SameX c c' ∧ SameF c c' ∧ SameP c c' ∧
      SameV c c' ∧ c'.regs.pc = c.regs.pc + 1 := by
  obtain ⟨passed, files⟩ := Core.passed_of_issuedFrom (m := (c.issuedFrom p).writeFpc v) h hd rfl rfl (.of_regs rfl rfl rfl rfl)
  exact ⟨passed.store.fpc, passed.store.gv, passed.store.gdNext, passed.store.gd.trans (c.kept_issuedFrom p).store.gd, files.x, files.f,
    files.p, files.v, passed.pc⟩

/-! ### Budgets (R58-R61) -/

/-- A core whose expired budget is recorded. -/
def Core.overrun (c : Core) : Core :=
  { c.flag (fun e => { e with budgOvr := true, ovrPhase := BitVec.ofNat 6 c.regs.phase }) with
    regs := { c.regs with budgDue := false, budgOn := false } }

theorem Dev.budgetExpire_of_not_due {d : Dev} {n : Nat} (h : (d.core n).regs.budgDue = false) : d.budgetExpire n = d := by
  simp only [Dev.budgetExpire, h, Bool.not_false, if_true]

theorem Dev.budgetExpire_of_due {d : Dev} {n : Nat} (h : (d.core n).regs.budgDue = true) :
    d.budgetExpire n = ((d.core n).job.elim (d.updCore n Core.overrun) fun k =>
      (d.updCore n Core.overrun).updJob k (fun j => { j with overrun := true })).trace n 0x07 (d.core n).regs.phase := by
  simp only [Dev.budgetExpire, h, Bool.not_true, Bool.false_eq_true, if_false]
  cases (d.core n).job <;> rfl

theorem Dev.core_budgetExpire_of_due {d : Dev} {n : Nat} (h : (d.core n).regs.budgDue = true) (m : Nat) :
    (d.budgetExpire n).core m = (d.updCore n Core.overrun).core m := by
  rw [Dev.budgetExpire_of_due h, Dev.core_trace]
  cases (d.core n).job <;> rfl

theorem Dev.core_budgetExpire_ne (d : Dev) {n m : Nat} (h : m ≠ n) : (d.budgetExpire n).core m = d.core m := by
  cases hd : (d.core n).regs.budgDue with
  | false => rw [Dev.budgetExpire_of_not_due hd]
  | true => rw [Dev.core_budgetExpire_of_due hd, Dev.core_updCore_ne _ _ _ h]

/-- Whether or not a budget is recorded, only the events and the budget check of the core can change. -/
theorem Dev.core_budgetExpire_self (d : Dev) (n : Nat) : ∃ e on due,
    (d.budgetExpire n).core n = { d.core n with evt := e, regs := { (d.core n).regs with budgOn := on, budgDue := due } } := by
  cases hd : (d.core n).regs.budgDue with
  | false => exact ⟨(d.core n).evt, (d.core n).regs.budgOn, (d.core n).regs.budgDue, by rw [Dev.budgetExpire_of_not_due hd]⟩
  | true =>
    rw [Dev.core_budgetExpire_of_due hd, Dev.core_updCore_self]
    exact ⟨_, _, _, rfl⟩

theorem Dev.coreJob_spec {d : Dev} {n k : Nat} {j : Job} (h : d.coreJob n = some (k, j)) : (d.core n).job = some k ∧ d.job k = some j := by
  unfold Dev.coreJob at h
  split at h
  · next i hi =>
    obtain ⟨i', hj, he⟩ := Option.map_eq_some_iff.mp h
    cases he
    exact ⟨hi, hj⟩
  · cases h

/-- The budget that has expired sets OVERRUN of the job of the core. -/
theorem Dev.job_budgetExpire {d : Dev} {n k : Nat} {j : Job} (h : (d.core n).regs.budgDue = true) (hj : d.coreJob n = some (k, j)) :
    (d.budgetExpire n).job k = some { j with overrun := true } := by
  obtain ⟨hk, hj⟩ := Dev.coreJob_spec hj
  rw [Dev.budgetExpire_of_due h, hk, Dev.job_trace, Option.elim_some, Dev.job_updJob_self, Dev.job_updCore, hj, Option.map_some]

/-! ### Phase markers (R58, R61, R340, R511) -/

/-- The effect of a phase marker: phase `ph` with budget `b` and token claim `k`. -/
def Dev.enterPhase (d : Dev) (n ph : Nat) (b : W32) (k : Nat) : Dev :=
  (((d.budgetExpire n).updCore n (·.enterPhase ph b)).setClaim n k).trace n 0x06 ph

/-- The fetch of a phase marker changes nothing that its plan looks at. -/
theorem planPhase_fetched (ph n : Nat) (d : Dev) (j : Job) (p : Prog) :
    planPhase ph n ((d.fetched n p).core n) j p = planPhase ph n (d.core n) j p := by
  rw [Dev.fetched, Dev.core_updCore_self]
  rfl

theorem Plan.free_phase {ph n : Nat} {c : Core} {j : Job} {p : Prog} (h : ph < p.nPhase) : (planPhase ph n c j p).Free :=
  ⟨rfl, rfl, rfl, if_pos h, rfl, rfl, rfl, rfl, rfl⟩

theorem Dev.core_enterPhase_self (d : Dev) (n ph : Nat) (b : W32) (k : Nat) : ∃ e r,
    (d.enterPhase n ph b k).core n = { d.core n with
      evt := e, regs := { (d.core n).regs with phase := ph, budget := b, budgOn := decide (b ≠ 0), budgDue := false },
      tok := { (d.core n).tok with claim := k, preq := r } } := by
  obtain ⟨e, on, due, core⟩ := d.core_budgetExpire_self n
  rw [Dev.enterPhase, Dev.core_trace, Dev.setClaim, Dev.core_updCore_self, Dev.core_updCore_self, core]
  exact ⟨e, _, rfl⟩

theorem Dev.core_enterPhase_ne (d : Dev) {n m : Nat} (ph : Nat) (b : W32) (k : Nat) (h : m ≠ n) :
    (d.enterPhase n ph b k).core m = d.core m := by
  rw [Dev.enterPhase, Dev.core_trace, Dev.setClaim, Dev.core_updCore_ne _ _ _ h, Dev.core_updCore_ne _ _ _ h, Dev.core_budgetExpire_ne _ h]

theorem Dev.enterPhase_mem (d : Dev) (n ph : Nat) (b : W32) (k : Nat) : (d.enterPhase n ph b k).mem = d.mem := by
  rw [Dev.enterPhase, Dev.trace_mem, Dev.setClaim, Dev.updCore_mem, Dev.updCore_mem, (Dev.SameData.budgetExpire d n).mem]

/-- The budget counter after the CCLK in which a phase with budget `b` is entered: a budget of 0 does not count. -/
theorem CoreRegs.budgetCycle_entered {r : CoreRegs} {b : W32} (hb : r.budget = b) (hon : r.budgOn = decide (b ≠ 0)) :
    (r.budgetCycle true).budget = if b = 0 then 0 else b - 1 := by
  by_cases h : b = 0
  · simp [CoreRegs.budgetCycle, hb, hon, h]
  · have : 0 < b.toNat := Nat.pos_of_ne_zero fun e => h (BitVec.eq_of_toNat_eq e)
    simp only [CoreRegs.budgetCycle, hb, hon, ne_eq, h, not_false_eq_true, this, decide_true, Bool.and_self, if_true, if_false]

/-- A phase marker issues on core `n`, and a CCLK passes. -/
theorem Dev.enterPhase_passed {d : Dev} {n : Nat} {p : Prog} (h : (d.core n).ready p = true) (hd : (d.core n).rows.drop = false)
    (ph : Nat) (b : W32) (k : Nat) :
    let c := d.core n
    let t := (((d.issuedFrom n p).enterPhase n ph b k).cycle n).peakUp
    (t.core n).regs.phase = ph ∧ (t.core n).regs.budgOn = decide (b ≠ 0) ∧ (t.core n).regs.budget = (if b = 0 then 0 else b - 1) ∧
      (t.core n).tok.claim = k ∧ SameX c (t.core n) ∧ SameF c (t.core n) ∧ SameP c (t.core n) ∧ SameV c (t.core n) ∧
      (t.core n).regs.pc = c.regs.pc + 1 ∧ (∀ m, m ≠ n → t.core m = d.core m) ∧ t.mem = d.mem := by
  intro c t
  have outside : Outside ((d.issuedFrom n p).enterPhase n ph b k) t n := (Outside.cycle _ n).trans (.peakUp ..)
  have issued : Outside d (d.issuedFrom n p) n := .issuedFrom d n p
  have others (m : Nat) (hm : m ≠ n) : t.core m = d.core m :=
    (outside.cores m hm).trans ((Dev.core_enterPhase_ne _ ph b k hm).trans (issued.cores m hm))
  have mem : t.mem = d.mem := outside.mem.trans ((Dev.enterPhase_mem ..).trans issued.mem)
  obtain ⟨e, r, entered⟩ := (d.issuedFrom n p).core_enterPhase_self n ph b k
  have core : t.core n = (((d.issuedFrom n p).enterPhase n ph b k).core n).cycle.settled := by rw [Dev.core_peakUp, Dev.core_cycle]
  rw [entered, Dev.core_issuedFrom] at core
  obtain ⟨passed, files⟩ := Core.passed_of_issuedFrom (m := { c.issuedFrom p with
      evt := e, regs := { (c.issuedFrom p).regs with phase := ph, budget := b, budgOn := decide (b ≠ 0), budgDue := false },
      tok := { (c.issuedFrom p).tok with claim := k, preq := r } }) h hd rfl rfl (.of_regs rfl rfl rfl rfl)
  have running : (c.issuedFrom p).run = true := (c.kept_issuedFrom p).store.run.trans (Core.ready_run h)
  have budget := passed.budget
  rw [running, CoreRegs.budgetCycle_entered rfl rfl] at budget
  rw [core]
  exact ⟨passed.store.phase, passed.budgOn, budget, passed.claim, files.x, files.f, files.p, files.v, passed.pc, others, mem⟩

/-! ### The statement -/

/-- Settles O11. A special register is read at once, `time` after 4 CCLK. An sr.write without reserved codes and with no binary32 work in flight has a
plan without interlocks, and its effect is that of `Core.writeFpc`. A phase marker below N_PHASE records an expired budget and enters the phase; the
CCLK of its issue then counts once. The expiry of a budget changes the events and the budget check of its core and OVERRUN of its job. -/
theorem specialRegistersAndPhases : Obligations.SpecialRegistersAndPhases := by
  refine ⟨?_, ?_, ?_, ?_⟩
  · intro s n q d j p c h
    exact ⟨.srRead h (sr := 0) (by decide), .srRead h (sr := 1) (by decide), .srRead h (sr := 2) (by decide), .srRead h (sr := 3) (by decide),
      .srRead_time h, .srRead h (sr := 5) (by decide), .srRead h (sr := 6) (by decide), .srRead h (sr := 7) (by decide),
      .srRead h (sr := 8) (by decide)⟩
  · intro s n q a j p c w h hfp hr hc
    obtain ⟨outside, core⟩ := issueWith_free_updCore (plan := fun n c j p _ => planSrWrite a.toNat n c j p) (op := .srWrite a.toNat)
      (f := fun _ => (·.writeFpc (w &&& 0xFFFF003F))) h rfl nofun rfl (planSrWrite_fetched ..) (Plan.free_srWrite hfp) rfl
      (planSrWrite_act hr hc)
    refine .of_run (f := issueSrWrite n.val q a.toNat) rfl ⟨outside, ?_⟩
    rw [issueSrWrite, core]
    exact Core.writeFpc_passed h.ready h.settled _
  · intro s n q ph j p c b h hph
    refine .of_run (f := issuePhase n.val q ph.toNat) rfl ?_
    rw [issuePhase, issueWith_free (op := .phase ph.toNat) h rfl nofun rfl (planPhase_fetched ..) (Plan.free_phase hph) rfl]
    exact Dev.enterPhase_passed h.ready h.settled ph.toNat b _
  · intro s n k j c hd hj
    refine .of_run (f := (·.budgetExpire n.val)) rfl ?_
    have core := Dev.core_budgetExpire_of_due hd n.val
    rw [Dev.core_updCore_self] at core
    rw [core]
    exact ⟨rfl, rfl, rfl, Dev.job_budgetExpire hd hj, rfl, (Dev.SameData.budgetExpire s.dev n.val).mem, fun _ => rfl⟩

end Sys2Proof.Machine
end

section
/-!
SUPPORT. Integer, compare and predicate instructions: results that are formed at once and depend on the operands alone (08).
-/
namespace Sys2Proof.Machine

/-! ### Integer results (R315) -/

theorem AluK.eval_min (x y : W64) : AluK.min.eval x y = if x.toInt < y.toInt then x else y := by
  simp only [AluK.eval, BitVec.slt, decide_eq_true_eq]

theorem AluK.eval_max (x y : W64) : AluK.max.eval x y = if x.toInt < y.toInt then y else x := by
  simp only [AluK.eval, BitVec.slt, decide_eq_true_eq]

theorem AluK.eval_minU (x y : W64) : AluK.minU.eval x y = if x.toNat < y.toNat then x else y := by
  simp only [AluK.eval, BitVec.ult, decide_eq_true_eq]

theorem AluK.eval_maxU (x y : W64) : AluK.maxU.eval x y = if x.toNat < y.toNat then y else x := by
  simp only [AluK.eval, BitVec.ult, decide_eq_true_eq]

/-- The shift count that a 6-bit immediate gives is the immediate. -/
theorem shiftCount_of_imm (k : BitVec 6) : (k.setWidth 64).toNat % 64 = k.toNat := by
  rw [BitVec.toNat_setWidth]
  omega

theorem AluK.eval_shl_imm (x : W64) (k : BitVec 6) : AluK.shl.eval x (k.setWidth 64) = x <<< k.toNat := by
  rw [AluK.eval, shiftCount_of_imm]

theorem AluK.eval_shr_imm (x : W64) (k : BitVec 6) : AluK.shr.eval x (k.setWidth 64) = x >>> k.toNat := by
  rw [AluK.eval, shiftCount_of_imm]

theorem AluK.eval_sra_imm (x : W64) (k : BitVec 6) : AluK.sra.eval x (k.setWidth 64) = x.sshiftRight k.toNat := by
  rw [AluK.eval, shiftCount_of_imm]

/-! ### Compare results (R332, R333) -/

theorem CmpK.eval_ne (x y : W64) : CmpK.ne.eval x y = decide (x ≠ y) := (decide_not.trans rfl).symm

theorem FVal.isNan_eq_false {x : FVal} (h : x ≠ .nan) : x.isNan = false := decide_eq_false h

/-- Where an operand is a NaN, a binary32 compare is 0, but for fcmp.un. -/
theorem FcmpK.eval_of_nan (k : FcmpK) {fpc a b : W32} (h : rd32 fpc a = .nan ∨ rd32 fpc b = .nan) : k.eval fpc a b = decide (k = .un) := by
  have nan : (rd32 fpc a).isNan = true ∨ (rd32 fpc b).isNan = true := h.imp (fun e => decide_eq_true e) fun e => decide_eq_true e
  cases k <;> rcases nan with e | e <;> simp [FcmpK.eval, FVal.eqv, FVal.le, e]

section
variable {fpc a b : W32} (ha : rd32 fpc a ≠ .nan) (hb : rd32 fpc b ≠ .nan)
include ha hb

theorem FcmpK.eval_eq : FcmpK.eq.eval fpc a b = (!(rd32 fpc a).lt (rd32 fpc b) && !(rd32 fpc b).lt (rd32 fpc a)) := by
  simp only [FcmpK.eval, FVal.eqv, FVal.isNan_eq_false ha, FVal.isNan_eq_false hb, Bool.not_false, Bool.true_and]

theorem FcmpK.eval_lt : FcmpK.lt.eval fpc a b = (rd32 fpc a).lt (rd32 fpc b) := by
  simp only [FcmpK.eval, FVal.isNan_eq_false ha, FVal.isNan_eq_false hb, Bool.not_false, Bool.true_and]

theorem FcmpK.eval_le : FcmpK.le.eval fpc a b = !(rd32 fpc b).lt (rd32 fpc a) := by
  simp only [FcmpK.eval, FVal.le, FVal.isNan_eq_false ha, FVal.isNan_eq_false hb, Bool.not_false, Bool.true_and]

theorem FcmpK.eval_un : FcmpK.un.eval fpc a b = false := by
  simp only [FcmpK.eval, FVal.isNan_eq_false ha, FVal.isNan_eq_false hb, Bool.or_self]

end

/-! ### Instructions whose plan forms one result -/

section
variable {i : Instr} {s : State} {n : Nat} {q : Pred} {d a b e : Nat} {o : Opnd} {j : Job} {p : Prog}

theorem XResult.alu (k : AluK) (hi : exec i s = s.run (issueAlu k n q d a o)) (h : CanIssue s.dev n q (.x a :: o.regs ++ [.x d]) j p) {w : W64}
    (hw : k.eval ((s.dev.core n).getX a) ((s.dev.core n).opnd o) = w) : XResult i s n d w := by
  subst hw
  refine .of_regs (op := .alu k d a o) (plan := fun n c _ _ _ => planAlu k d a o n c) hi h rfl rfl rfl ?_
  rw [planAlu, Dev.fetched, Dev.core_updCore_self]
  cases o <;> rfl

theorem XResult.sel (hi : exec i s = s.run (issueSel n q d a b e)) (h : CanIssue s.dev n q [.x a, .x b, .p e, .x d] j p) :
    XResult i s n d (if (s.dev.core n).getP e then (s.dev.core n).getX a else (s.dev.core n).getX b) := by
  refine .of_regs (op := .sel d a b e) (plan := fun n c _ _ _ => planSel d a b e n c) hi h rfl rfl rfl ?_
  rw [planSel, Dev.fetched, Dev.core_updCore_self]
  rfl

theorem PResult.of_regs {plan : Nat → Core → Job → Prog → Dev → Plan} {op : CoreOp} {r : Nat} {v : Bool}
    (hi : exec i s = s.run (issueWith plan n q op)) (h : CanIssue s.dev n q (op.srcs ++ op.dsts) j p) (hr : op.reserved = false)
    (hu : op.unit? = none) (hc : op.cost = 0)
    (hp : plan n ((s.dev.fetched n p).core n) j p (s.dev.fetched n p) = .regs n ((s.dev.fetched n p).core n) [.p r v]) :
    PResult i s n r v := by
  obtain ⟨outside, core⟩ := issueWith_regs h hr hu hc hp
  unfold PResult
  refine .of_run (f := issueWith plan n q op) hi ?_
  rw [core]
  exact ⟨outside, Core.afterRegs_p _ p r v (Core.ready_going h.ready) h.settled⟩

theorem PResult.cmp (k : CmpK) (hi : exec i s = s.run (issueCmp k n q d a o)) (h : CanIssue s.dev n q (.x a :: o.regs ++ [.p d]) j p) {v : Bool}
    (hv : k.eval ((s.dev.core n).getX a) ((s.dev.core n).opnd o) = v) : PResult i s n d v := by
  subst hv
  refine .of_regs (op := .cmp k d a o) (plan := fun n c _ _ _ => planCmp k d a o n c) hi h rfl rfl rfl ?_
  rw [planCmp, Dev.fetched, Dev.core_updCore_self]
  cases o <;> rfl

theorem PResult.fcmp (k : FcmpK) (hi : exec i s = s.run (issueFcmp k n q d a b)) (h : CanIssue s.dev n q [.f a, .f b, .p d] j p) {v : Bool}
    (hv : k.eval (s.dev.core n).regs.fpc ((s.dev.core n).getF a) ((s.dev.core n).getF b) = v) : PResult i s n d v := by
  subst hv
  refine .of_regs (op := .fcmp k d a b) (plan := fun n c _ _ _ => planFcmp k d a b n c) hi h rfl rfl rfl ?_
  rw [planFcmp, Dev.fetched, Dev.core_updCore_self]
  rfl

theorem PResult.plog (k : PlogK) (hi : exec i s = s.run (issuePlog k n q d a b)) (h : CanIssue s.dev n q [.p a, .p b, .p d] j p) :
    PResult i s n d (k.eval ((s.dev.core n).getP a) ((s.dev.core n).getP b)) := by
  refine .of_regs (op := .plog k d a b) (plan := fun n c _ _ _ => planPlog k d a b n c) hi h rfl rfl rfl ?_
  rw [planPlog, Dev.fetched, Dev.core_updCore_self]
  rfl

end

/-! ### The statements -/

/-- Settles O4. Each instruction issues with the result of its operation on x[A] and its second source, or on the operand that the predicate
selects. -/
theorem integerInstructions : Obligations.IntegerInstructions := by
  refine ⟨?_, ?_⟩
  · intro s n q d a b j p c x y
    refine ⟨fun h => ?_, fun e h => .sel rfl h⟩
    exact ⟨.alu .add rfl h rfl, .alu .sub rfl h rfl, .alu .and rfl h rfl, .alu .or rfl h rfl, .alu .xor rfl h rfl, .alu .shl rfl h rfl,
      .alu .shr rfl h rfl, .alu .sra rfl h rfl, .alu .min rfl h (AluK.eval_min ..), .alu .max rfl h (AluK.eval_max ..),
      .alu .minU rfl h (AluK.eval_minU ..), .alu .maxU rfl h (AluK.eval_maxU ..)⟩
  · intro s n q d a imm k j p x h
    exact ⟨.alu .add rfl h rfl, .alu .sub rfl h rfl, .alu .and rfl h rfl, .alu .or rfl h rfl, .alu .xor rfl h rfl,
      .alu .shl (o := .imm _) rfl h (AluK.eval_shl_imm x k), .alu .shr (o := .imm _) rfl h (AluK.eval_shr_imm x k),
      .alu .sra (o := .imm _) rfl h (AluK.eval_sra_imm x k),
      .alu .min rfl h (AluK.eval_min ..), .alu .max rfl h (AluK.eval_max ..), .alu .minU rfl h (AluK.eval_minU ..),
      .alu .maxU rfl h (AluK.eval_maxU ..)⟩

/-- Settles O6. A binary32 compare is decided by whether an operand is a NaN, and otherwise by the order of the two values. -/
theorem comparesAndPredicates : Obligations.ComparesAndPredicates := by
  refine ⟨?_, ?_⟩
  · intro s n q d a b imm j p x y
    exact ⟨fun h => ⟨.cmp .eq rfl h rfl, .cmp .ne rfl h (CmpK.eval_ne ..), .cmp .lt rfl h rfl, .cmp .ge rfl h rfl, .cmp .ltu rfl h rfl,
        .cmp .geu rfl h rfl⟩,
      fun h => ⟨.cmp .eq rfl h rfl, .cmp .ne rfl h (CmpK.eval_ne ..), .cmp .lt rfl h rfl, .cmp .ge rfl h rfl, .cmp .ltu rfl h rfl,
        .cmp .geu rfl h rfl⟩⟩
  · intro s n q d a b e f j p c x y u v
    refine ⟨fun h => ⟨fun nan => ?_, fun hx hy => ?_⟩, fun h => ⟨.plog .and rfl h, .plog .or rfl h, .plog .xor rfl h, .plog .andn rfl h⟩⟩
    · exact ⟨.fcmp .eq rfl h (FcmpK.eval_of_nan _ nan), .fcmp .lt rfl h (FcmpK.eval_of_nan _ nan), .fcmp .le rfl h (FcmpK.eval_of_nan _ nan),
        .fcmp .un rfl h (FcmpK.eval_of_nan _ nan)⟩
    · exact ⟨.fcmp .eq rfl h (FcmpK.eval_eq hx hy), .fcmp .lt rfl h (FcmpK.eval_lt hx hy), .fcmp .le rfl h (FcmpK.eval_le hx hy),
        .fcmp .un rfl h (FcmpK.eval_un hx hy)⟩

end Sys2Proof.Machine
end

section
/-!
SUPPORT. Multiply and divide: results and latencies, and the end of a long operation, whose instruction leases return (R290, R291, R316-R320, R514).
-/
namespace Sys2Proof.Machine

/-! ### Results and latencies (R316-R320) -/

theorem sigBits_le {m w : Nat} (h : m < 2 ^ w) : sigBits m ≤ w := by
  unfold sigBits
  split
  · exact Nat.zero_le w
  · next hm => exact (Nat.log2_lt hm).mpr h

theorem sigBits_pos {m : Nat} (h : m ≠ 0) : 0 < sigBits m := by
  rw [sigBits, if_neg h]
  exact Nat.succ_pos _

theorem mag_lt (signed : Bool) (a : W64) : mag signed a < 2 ^ 64 := by
  have unsigned := a.isLt
  have below := a.toInt_lt
  have above := a.le_toInt
  cases signed <;> simp only [mag, if_true, Bool.false_eq_true, if_false] <;> omega

theorem mag_ne_zero (signed : Bool) {a : W64} (h : a ≠ 0) : mag signed a ≠ 0 := by
  cases signed with
  | false => exact fun e => h (BitVec.eq_of_toNat_eq e)
  | true => exact fun e => h (BitVec.eq_of_toInt_eq (Int.natAbs_eq_zero.mp e))

theorem MdK.latency_mul {k : MdK} (h : k.isMul = true) (a b : W64) :
    k.latency a b = 2 + (max 1 (sigBits (min (mag k.signed a) (mag k.signed b))) + 7) / 8 := by
  simp only [MdK.latency, h, if_true]
  rfl

theorem MdK.latency_div_zero {k : MdK} (h : k.isMul = false) (a : W64) : k.latency a 0 = 4 := by
  simp only [MdK.latency, h, Bool.false_eq_true, if_false, if_true]

theorem MdK.latency_div {k : MdK} (h : k.isMul = false) (a : W64) {b : W64} (hb : b ≠ 0) :
    k.latency a b = (max 4 (4 + ((sigBits (mag k.signed a) : Int) - sigBits (mag k.signed b) + 2) / 2)).toNat := by
  simp only [MdK.latency, h, hb, Bool.false_eq_true, if_false]
  omega

/-- A multiply takes 3 to 10 CCLK, a divide or remainder 4 to 36 (R317, R318). -/
theorem MdK.latency_bounds (k : MdK) (a b : W64) :
    if k.isMul then 3 ≤ k.latency a b ∧ k.latency a b ≤ 10 else 4 ≤ k.latency a b ∧ k.latency a b ≤ 36 := by
  have ha := sigBits_le (mag_lt k.signed a)
  split
  · next h =>
    have hm := sigBits_le (Nat.lt_of_le_of_lt (Nat.min_le_left _ (mag k.signed b)) (mag_lt k.signed a))
    rw [MdK.latency_mul h]
    omega
  · next h =>
    have h := Bool.eq_false_iff.mpr h
    by_cases hb : b = 0
    · rw [hb, MdK.latency_div_zero h]
      omega
    · have pos := sigBits_pos (mag_ne_zero k.signed hb)
      rw [MdK.latency_div h a hb]
      omega

theorem MdK.eval_mulS (a b : W64) : MdK.mulS.eval a b = BitVec.ofInt 64 (a.toInt * b.toInt) := by
  rw [MdK.eval, BitVec.ofInt_mul, BitVec.ofInt_toInt, BitVec.ofInt_toInt]

theorem MdK.eval_divU (a : W64) {b : W64} (h : b ≠ 0) : MdK.divU.eval a b = a / b := by
  rw [MdK.eval, if_neg h, BitVec.udiv_def]

theorem MdK.eval_remU (a : W64) {b : W64} (h : b ≠ 0) : MdK.remU.eval a b = a % b := by
  rw [MdK.eval, if_neg h, BitVec.umod_def]

theorem Starts.md {i : Instr} {s : State} {n : Nat} {q : Pred} {d a b : Nat} {j : Job} {p : Prog} (k : MdK)
    (hi : exec i s = s.run (issueMd k n q d a b)) (h : CanIssue s.dev n q [.x a, .x b, .x d] j p) {u : OpUnit}
    (hk : (CoreOp.md k d a b).unit? = some u) (hu : (s.dev.core n).unitFree u) {w : W64} {l : Nat}
    (hw : k.eval ((s.dev.core n).getX a) ((s.dev.core n).getX b) = w)
    (hl : k.latency ((s.dev.core n).getX a) ((s.dev.core n).getX b) = l) : Starts i s n (.regs [.x d w]) u [.x d] l := by
  subst hw hl
  refine .of_long (op := .md k d a b) (plan := fun n c _ _ _ => planMd k d a b n c) (o := regsOp u [.x d _] [.x d] _ 0 0 false) hi h rfl
    (fun v hv => ?_) rfl ?_
  · cases hk.symm.trans hv
    exact hu
  · rw [planMd, Dev.fetched, Dev.core_updCore_self]
    cases k <;> cases hk <;> rfl

/-! ### The end of an operation (R503, R514) -/

theorem Core.writeReg_eq (c : Core) (w : RegWrite) : c.writeReg w = { c with regs := (c.writeReg w).regs } := by
  cases w with
  | x i v => simp only [Core.writeReg, Core.setX]; split <;> rfl
  | p i b => simp only [Core.writeReg, Core.setP]; split <;> rfl
  | f | v => rfl

/-- Results are written to the registers only. -/
theorem Core.writeRegs_eq (c : Core) (ws : List RegWrite) : c.writeRegs ws = { c with regs := (c.writeRegs ws).regs } := by
  induction ws generalizing c with
  | nil => rfl
  | cons w ws ih =>
    change (c.writeReg w).writeRegs ws = { c with regs := ((c.writeReg w).writeRegs ws).regs }
    rw [ih, Core.writeReg_eq]

theorem Core.writeRegs_iend (c : Core) (ws : List RegWrite) : (c.writeRegs ws).tok.iend = c.tok.iend := by rw [Core.writeRegs_eq]
theorem Core.writeRegs_ops (c : Core) (ws : List RegWrite) : (c.writeRegs ws).ops = c.ops := by rw [Core.writeRegs_eq]

/-- The ended instruction leases that the core settles. -/
def Core.settleable (c : Core) : Nat := min c.endLeases.tok.iend (c.endLeases.cover - c.endLeases.demand)

theorem Dev.core_settleLeases (d : Dev) (n : Nat) : (d.settleLeases n).core n = (d.core n).settled := by
  simp only [Dev.settleLeases, Core.settled, Dev.core, Dev.updCore, SMap.get_upd_self]

theorem Dev.settleLeases_returning (d : Dev) (n : Nat) :
    (d.settleLeases n).blw.returning = d.blw.returning + (d.core n).settleable := by
  simp only [Dev.settleLeases, Core.settleable, Dev.core_updCore_self, Dev.updCore_blw]

theorem Outside.settleLeases (d : Dev) (n : Nat) : Outside d (d.settleLeases n) n :=
  (Outside.updCore d n Core.endLeases).trans
    ((Outside.updCore _ n (fun c => { c with tok := { c.tok with iend := c.tok.iend - _ } })).trans (.blw ..))

/-- Either no ended lease is kept, or D needs what is kept. -/
theorem Core.settled_needed (c : Core) : c.settled.tok.iend = 0 ∨ c.settled.cover ≤ c.settled.demand := by
  have demand : c.settled.demand = c.endLeases.demand := rfl
  have iend : c.settled.tok.iend = c.endLeases.tok.iend - c.settleable := rfl
  have cover : c.settled.cover + c.endLeases.tok.iend = c.endLeases.cover + c.settled.tok.iend := by
    simp only [Core.cover, Core.lease, Core.settled]
    omega
  rw [Core.settleable] at iend
  omega

/-- A core that forgets an operation, whose instruction lease has ended. -/
def Core.dropped (c : Core) (o : Op) : Core :=
  { c with ops := c.ops.filter (fun p => p.seq != o.seq), tok := { c.tok with iend := c.tok.iend + o.ilease } }

theorem Dev.core_dropOp (d : Dev) (n : Nat) (o : Op) : (d.dropOp n o).core n = ((d.core n).dropped o).settled := by
  rw [Dev.dropOp, Dev.core_settleLeases, Dev.core_updCore_self]
  rfl

theorem Outside.dropOp (d : Dev) (n : Nat) (o : Op) : Outside d (d.dropOp n o) n :=
  (Outside.updCore d n _).trans (.settleLeases ..)

/-- Of its core an operation that leaves changes the operations and the token state. -/
theorem Core.sameStore_dropped (c : Core) (o : Op) : SameStore c (c.dropped o).settled := by constructor <;> rfl

theorem Dev.opLeaves_dropOp (d : Dev) (n : Nat) (o : Op) : OpLeaves d (d.dropOp n o) n o := by
  have core := d.core_dropOp n o
  refine ⟨by rw [core]; rfl, ⟨((d.core n).dropped o).settleable, ?_, ?_⟩, ?_⟩
  · rw [Dev.dropOp, Dev.settleLeases_returning, Dev.core_updCore_self]
    rfl
  · have ended : ((d.core n).dropped o).settled.tok.iend + ((d.core n).dropped o).settleable =
        ((d.core n).dropped o).endLeases.tok.iend := Nat.sub_add_cancel (Nat.min_le_left ..)
    rw [core, ended]
    rfl
  · rw [core]
    exact Core.settled_needed _

/-- The leaving of an operation looks at the operations, the ended leases and the returned leases only. -/
theorem OpLeaves.of_same {d e t : Dev} {n : Nat} {o : Op} (h : OpLeaves e t n o) (ho : (e.core n).ops = (d.core n).ops)
    (hi : (e.core n).tok.iend = (d.core n).tok.iend) (hb : e.blw = d.blw) : OpLeaves d t n o := by
  simpa only [OpLeaves, ho, hi, hb] using h

/-! ### The statement -/

/-- Settles O5. The results and latencies are those of the model's functions, brought into the form of Table 8-3. The oldest finished operation
writes its results and leaves. -/
theorem multiplyAndDivide : Obligations.MultiplyAndDivide := by
  refine ⟨?_, MdK.latency_bounds, ?_⟩
  · intro s n q d a b j p c x y lu ls ld du dl ds h
    refine ⟨fun hu => ?_, fun hu => ⟨fun hy => ?_, fun hy => ?_⟩⟩
    · exact ⟨.md .mulU rfl h rfl hu rfl (MdK.latency_mul rfl ..), .md .mulS rfl h rfl hu (MdK.eval_mulS ..) (MdK.latency_mul rfl ..),
        .md .mulhU rfl h rfl hu rfl (MdK.latency_mul rfl ..), .md .mulhS rfl h rfl hu rfl (MdK.latency_mul rfl ..)⟩
    · have zero {k : MdK} (hk : k.isMul = false) : k.latency x y = 4 := by rw [hy, MdK.latency_div_zero hk]
      have result (k : MdK) : k.eval x y = k.eval x 0 := by rw [hy]
      exact ⟨.md .divU rfl h rfl hu (result _) (zero rfl), .md .divS rfl h rfl hu (result _) (zero rfl),
        .md .remU rfl h rfl hu (result _) (zero rfl), .md .remS rfl h rfl hu (result _) (zero rfl)⟩
    · exact ⟨.md .divU rfl h rfl hu (MdK.eval_divU x hy) (MdK.latency_div rfl x hy), .md .divS rfl h rfl hu (if_neg hy) (MdK.latency_div rfl x hy),
        .md .remU rfl h rfl hu (MdK.eval_remU x hy) (MdK.latency_div rfl x hy), .md .remS rfl h rfl hu (if_neg hy) (MdK.latency_div rfl x hy)⟩
  · intro s n o ws ho hw
    have done : s.dev.longDone n.val = (s.dev.updCore n.val (·.writeRegs ws)).dropOp n.val o := by
      simp only [Dev.longDone, ho, hw, Option.getD_some]
    refine .of_run (f := (·.longDone n.val)) rfl ?_
    rw [done]
    have written := Dev.core_updCore_self s.dev n.val (·.writeRegs ws)
    have core := (s.dev.updCore n.val (·.writeRegs ws)).core_dropOp n.val o
    rw [written] at core
    refine ⟨by rw [core]; rfl, (Dev.opLeaves_dropOp ..).of_same ?_ ?_ rfl, ?_, (Outside.updCore ..).trans (.dropOp ..)⟩
    · rw [written, Core.writeRegs_ops]
    · rw [written, Core.writeRegs_iend]
    · rw [core, Core.writeRegs_eq]
      constructor <;> rfl

end Sys2Proof.Machine
end

section
/-!
SUPPORT. Instructions that take ranges or ports, or fault at issue: the interlocks, one by one, and what an issue and a synchronous fault do (07, 11, 14).
-/
namespace Sys2Proof.Machine

/-! ### Interlocks -/

/-- No interlock holds an instruction without token cost: no wait, no busy queue, its ranges and its narrow port are free, and it needs neither the VU
port nor another core's detector. -/
structure Plan.Clear (pl : Plan) (c : Core) (pres : Bool) : Prop where
  presolveWait : pl.presolveWait = true → pres = false ∧ c.rows.flip = false
  versionedWrite : pl.versionedWrite = true → c.rows.flip = false
  busy : pl.busy = false
  holds : c.rangeBlocked pl.holds = false
  vuPort : pl.vuPort = none
  narrowPort : (pl.narrowPort.map c.narrowPortBusy).getD false = false
  delay : pl.delay = 0

theorem foldl_min_of_le {l : List Nat} {a : Nat} (h : ∀ x ∈ l, a ≤ x) : l.foldl min a = a := by
  induction l with
  | nil => rfl
  | cons x l ih =>
    rw [List.forall_mem_cons] at h
    rw [List.foldl_cons, Nat.min_eq_left h.1, ih h.2]

theorem lowest_cons {l : List Nat} {a : Nat} (h : ∀ x ∈ l, a ≤ x) : lowest (a :: l) = some a := congrArg some (foldl_min_of_le h)

section
variable {c : Core} {pl : Plan} {pres : Bool} (fno : Nat) (h : pl.Clear c pres)
include h

/-- What nothing holds goes, or takes the lowest of its syndromes. -/
theorem Core.gate_of_clear : c.gate fno pres 0 pl =
    (lowest (pl.synds ++ if c.haz.mode = 2 && !pl.haz.isEmpty then [0x40] else [])).elim .go .fault := by
  have wait : (pl.presolveWait && (pres || c.rows.flip)) = false := by
    cases hp : pl.presolveWait with
    | false => rfl
    | true => rw [(h.presolveWait hp).1, (h.presolveWait hp).2]; rfl
  have versioned : (pl.versionedWrite && c.rows.flip) = false := by
    cases hv : pl.versionedWrite with
    | false => rfl
    | true => rw [h.versionedWrite hv]; rfl
  have tokens : c.tokensOk 0 = true := rfl
  simp only [Core.gate, wait, versioned, h.busy, tokens, h.holds, h.vuPort, h.narrowPort, h.delay, Option.map_none, Option.getD_none, ne_eq,
    not_true_eq_false, false_and, and_false, Bool.not_true, Bool.or_self, Bool.false_eq_true, if_false]
  cases lowest (pl.synds ++ _) <;> rfl

theorem Core.gate_go (hs : pl.synds = []) (hz : c.haz.mode = 2 → pl.haz = []) : c.gate fno pres 0 pl = .go := by
  have quiet : (decide (c.haz.mode = 2) && !pl.haz.isEmpty) = false := by
    by_cases hm : c.haz.mode = 2
    · rw [hz hm]; exact Bool.and_false _
    · rw [decide_eq_false hm]; rfl
  rw [Core.gate_of_clear fno h, hs, quiet]
  rfl

theorem Core.gate_fault {synd : Nat} {l : List Nat} (hs : pl.synds = synd :: l) (hl : ∀ x ∈ l, synd ≤ x) (hz : synd ≤ 0x40) :
    c.gate fno pres 0 pl = .fault synd := by
  rw [Core.gate_of_clear fno h, hs, List.cons_append, lowest_cons]
  · rfl
  · intro x hx
    rcases List.mem_append.mp hx with hx | hx
    · exact hl x hx
    · split at hx
      · rwa [List.mem_singleton.mp hx]
      · cases hx

end

/-- The fetch of an instruction changes nothing that its interlocks look at. -/
theorem Core.gate_fetched (d : Dev) (n : Nat) (p : Prog) (fno : Nat) (pres : Bool) (w : Nat) (pl : Plan) :
    ((d.fetched n p).core n).gate fno pres w pl = (d.core n).gate fno pres w pl := by
  rw [Dev.fetched, Dev.core_updCore_self]
  rfl

/-! ### The issue of an instruction -/

/-- Instruction `op` without token cost can issue on core `n`; it has no reserved field, its unit is free, and its plan is `pl`. -/
structure Comes (plan : Nat → Core → Job → Prog → Dev → Plan) (n : Nat) (q : Pred) (op : CoreOp) (d : Dev) (j : Job) (p : Prog) (pl : Plan) : Prop where
  can : CanIssue d n q (op.srcs ++ op.dsts) j p
  fields : op.reserved = false
  unit : ∀ u, op.unit? = some u → (d.core n).unitFree u
  cost : op.cost = 0
  plan : plan n ((d.fetched n p).core n) j p (d.fetched n p) = pl

section
variable {plan : Nat → Core → Job → Prog → Dev → Plan} {n : Nat} {q : Pred} {op : CoreOp} {d : Dev} {j : Job} {p : Prog} {pl : Plan}

theorem Comes.early (h : Comes plan n q op d j p pl) : ((d.fetched n p).core n).early q op = .on := by
  have fetched : ((d.fetched n p).core n).early q op = (d.core n).early q op := by
    rw [Dev.fetched, Dev.core_updCore_self]
    rfl
  have pending : (d.core n).pendingAny (.p q.idx.toNat :: op.srcs ++ op.dsts) = false := h.can.free
  have unit : (op.unit?.map (fun u => (d.core n).ops.any (fun o => decide (o.unit = u) && decide (0 < o.occ)))).getD false = false := by
    cases ho : op.unit? with
    | none => rfl
    | some u =>
      simp only [Option.map_some, Option.getD_some, List.any_eq_false, Bool.and_eq_true, decide_eq_true_eq, not_and]
      intro o hm hou
      rw [h.unit u ho o hm hou]
      exact Nat.lt_irrefl 0
  rw [fetched, Core.early, pending, unit, h.fields, h.can.field, h.can.on]
  rfl

/-- Its CCLK tries to issue it. -/
theorem Comes.tries (h : Comes plan n q op d j p pl) : issueWith plan n q op d =
    (((d.fetched n p).tryIssue n (decide (j.st = .presolving)) 0 pl).cycle n).peakUp := by
  obtain ⟨k, hj⟩ := h.can.job
  have held : (!(d.core n).run || (d.core n).dbg.halted || d.atBreak n) = false := by
    rw [Core.ready_run h.can.ready, Core.ready_going h.can.ready, h.can.noBreak]
    rfl
  simp only [issueWith, hj, h.can.prog, held, h.can.ready, h.early, h.can.live, h.cost, h.plan, Bool.not_true, Bool.false_eq_true,
    Option.isSome_none, if_false]

theorem Core.hazards_eq (c : Core) (hs : List (Nat × Nat × Nat)) : ∃ h, c.hazards hs = { c with haz := h } := by
  induction hs generalizing c with
  | nil => exact ⟨c.haz, rfl⟩
  | cons a l ih =>
    obtain ⟨h, e⟩ := ih (c.hazard a.1 a.2.1 a.2.2)
    exact ⟨h, e⟩

/-- A core whose instruction without token cost has issued: hazards are recorded in MODE 1, the pc moves on. -/
def Core.issuedWith (c : Core) (pl : Plan) : Core :=
  let c := ((if c.haz.mode = 1 then c.hazards pl.haz else c).setPc pl.next).committed
  { c with haz := { c.haz with regAt := none } }

theorem Core.issuedWith_eq (c : Core) (pl : Plan) : ∃ h, c.issuedWith pl = { (c.setPc pl.next).committed with haz := h } := by
  unfold Core.issuedWith
  split
  · obtain ⟨h, e⟩ := c.hazards_eq pl.haz
    rw [e]
    exact ⟨_, rfl⟩
  · exact ⟨_, rfl⟩

theorem Dev.commit_free (d : Dev) (n : Nat) (pl : Plan) :
    d.commit n 0 pl = pl.act (d.core n).tok.ilease ((d.markStart n).updCore n (·.issuedWith pl)) := rfl

/-- Core `m` is core `c` after the issue of an instruction, before the effect of its plan. -/
structure Core.Issued (c m : Core) : Prop where
  kept : Kept c m
  files : SameFiles c m
  pc : m.regs.pc = c.regs.pc + 1

/-- An instruction that goes takes its effect on its core, and a CCLK passes. -/
theorem Comes.goes {f : Core → Core} (h : Comes plan n q op d j p pl)
    (hg : (d.core n).gate d.fno (decide (j.st = .presolving)) 0 pl = .go) (hn : pl.next = (d.core n).regs.pc + 1)
    (ha : ∀ il e, pl.act il e = e.updCore n f) :
    Outside d (issueWith plan n q op d) n ∧
      ∃ m, (d.core n).Issued m ∧ (issueWith plan n q op d).core n = (f m).cycle.settled := by
  let e := ((d.fetched n p).markStart n).updCore n (·.issuedWith pl)
  let c := { d.core n with spec := (d.core n).spec.touch (p.line (d.core n).regs.pc) }
  have issues : issueWith plan n q op d = ((e.updCore n f).cycle n).peakUp := by
    rw [h.tries, Dev.tryIssue, Core.gate_fetched, show (d.fetched n p).fno = d.fno from rfl, hg]
    exact congrArg (fun e : Dev => (e.cycle n).peakUp) ((Dev.commit_free ..).trans (ha ..))
  have core : e.core n = c.issuedWith pl := by
    rw [Dev.core_updCore_self, Dev.core_markStart, Dev.fetched, Dev.core_updCore_self]
  obtain ⟨hz, issued⟩ := c.issuedWith_eq pl
  have outside : Outside d e n := ((Outside.updCore d n _).trans (.markStart _ n n)).trans (.updCore ..)
  rw [issues]
  refine ⟨((outside.trans (.updCore ..)).trans (.cycle ..)).trans (.peakUp ..), e.core n, ?_, ?_⟩
  · rw [core, issued]
    exact ⟨⟨by constructor <;> rfl, rfl, rfl⟩, .of_regs rfl rfl rfl rfl, hn⟩
  · rw [Dev.core_peakUp, Dev.core_cycle, Dev.core_updCore_self]

/-- An instruction that meets a fault takes it, and a CCLK passes. -/
theorem Comes.faults {synd : Nat} (h : Comes plan n q op d j p pl)
    (hg : (d.core n).gate d.fno (decide (j.st = .presolving)) 0 pl = .fault synd) :
    issueWith plan n q op d = (((d.fetched n p).planFault n synd pl).cycle n).peakUp := by
  rw [h.tries, Dev.tryIssue, Core.gate_fetched, show (d.fetched n p).fno = d.fno from rfl, hg]

/-- An effect that leaves the registers, and a CCLK of which the core is not halted and squashes nothing. -/
theorem Core.Issued.passed {c m m' : Core} (i : c.Issued m) (h : c.ready p = true) (hd : c.rows.drop = false) (hr : m'.regs = m.regs)
    (hg : m'.dbg = m.dbg) (hw : m'.rows.drop = m.rows.drop) :
    Passed m' m'.cycle.settled ∧ SameRegs c m'.cycle.settled ∧ m'.cycle.settled.regs.pc = c.regs.pc + 1 := by
  have passed : Passed m' m'.cycle.settled := by
    refine Core.passed ?_ ?_
    · rw [hg, i.kept.halted, Core.ready_going h]
    · rw [hw, i.kept.store.rows, hd]
  have same : SameFiles m m' := .of_regs (by rw [hr]) (by rw [hr]) (by rw [hr]) (by rw [hr])
  obtain ⟨x, f, q, v⟩ := i.files.trans (same.trans passed.files)
  refine ⟨passed, ⟨x, f, q, v, ?_, ?_⟩, ?_⟩
  · rw [passed.store.fpc, hr, i.kept.store.fpc]
  · rw [passed.store.phase, hr, i.kept.store.phase]
  · rw [passed.pc, hr, i.pc]

end

/-! ### What an issue starts -/

section
variable {i : Instr} {s : State} {plan : Nat → Core → Job → Prog → Dev → Plan} {n : Nat} {q : Pred} {op : CoreOp} {j : Job} {p : Prog} {pl : Plan}

/-- An instruction that goes and adds an operation, beside a change of the SHD bits at most. -/
theorem Starts.of_goes {o : Op} {f : Core → Core} (hi : exec i s = s.run (issueWith plan n q op)) (h : Comes plan n q op s.dev j p pl)
    (hg : (s.dev.core n).gate s.dev.fno (decide (j.st = .presolving)) 0 pl = .go) (hn : pl.next = (s.dev.core n).regs.pc + 1)
    (ha : ∀ il e, pl.act il e = e.updCore n f)
    (hf : ∀ m, ∃ r, f m = ({ m with rows := r } : Core).addOp o ∧ r.drop = m.rows.drop) :
    Starts i s n o.kind o.unit o.dst o.left := by
  obtain ⟨outside, m, issued, core⟩ := h.goes hg hn ha
  obtain ⟨r, hm, hd⟩ := hf m
  obtain ⟨passed, regs, pc⟩ := issued.passed (m' := ({ m with rows := r } : Core).addOp o) h.can.ready h.can.settled rfl rfl hd
  have store := passed.store
  have kept := issued.kept.store
  unfold Starts
  refine .of_run (f := issueWith plan n q op) hi ?_
  rw [core, hm]
  refine ⟨outside, regs, store.sp.trans kept.sp, store.estore.trans kept.estore, store.ember.trans kept.ember, store.wait.trans kept.wait,
    store.dmaq.trans kept.dmaq, store.rq.trans kept.rq, pc, ?_⟩
  rw [passed.ops, Core.addOp_ops, List.map_append]
  refine ⟨_, congrArg (List.map Op.passed · ++ _) issued.kept.ops, ?_⟩
  exact ⟨Op.passed_kind _, Op.passed_unit _, Op.passed_dst _, Op.passed_left _⟩

/-- An instruction that goes and leaves the registers, the scratchpads and the rows of its core. -/
theorem Issues.of_goes {f : Core → Core} {P : Core → Prop} (hi : exec i s = s.run (issueWith plan n q op)) (h : Comes plan n q op s.dev j p pl)
    (hg : (s.dev.core n).gate s.dev.fno (decide (j.st = .presolving)) 0 pl = .go) (hn : pl.next = (s.dev.core n).regs.pc + 1)
    (ha : ∀ il e, pl.act il e = e.updCore n f)
    (hf : ∀ m, (f m).regs = m.regs ∧ (f m).sp = m.sp ∧ (f m).rows = m.rows ∧ (f m).dbg = m.dbg)
    (hP : ∀ m c, SameStore (s.dev.core n) m → SameStore (f m) c → P c) : Issues i s n P := by
  obtain ⟨outside, m, issued, core⟩ := h.goes hg hn ha
  obtain ⟨hr, hs, hw, hd⟩ := hf m
  obtain ⟨passed, regs, pc⟩ := issued.passed h.can.ready h.can.settled hr hd (congrArg CoreRows.drop hw)
  unfold Issues
  refine .of_run (f := issueWith plan n q op) hi ?_
  rw [core]
  exact ⟨outside, regs, (passed.store.sp.trans hs).trans issued.kept.store.sp, pc, hP m _ issued.kept.store passed.store⟩

end

/-! ### A synchronous fault -/

@[simp] theorem Dev.job_cycle (d : Dev) (n k : Nat) : (d.cycle n).job k = d.job k := rfl
@[simp] theorem Dev.job_peakUp (d : Dev) (k : Nat) : d.peakUp.job k = d.job k := rfl

theorem Core.recordFault_eq (c : Core) (j : Job) (synd a : Nat) :
    ∃ w, c.recordFault j synd a = { c with evt := { c.evt with fault := true }, fault := w } := by
  unfold Core.recordFault
  simp only
  split
  · exact ⟨c.fault, rfl⟩
  · exact ⟨_, rfl⟩

section
variable (c : Core) (j : Job) (synd a : Nat)

theorem Core.recordFault_evt : (c.recordFault j synd a).evt.fault = true := by
  obtain ⟨w, e⟩ := c.recordFault_eq j synd a
  rw [e]
theorem Core.recordFault_regs : (c.recordFault j synd a).regs = c.regs := by
  obtain ⟨w, e⟩ := c.recordFault_eq j synd a
  rw [e]
theorem Core.recordFault_rows : (c.recordFault j synd a).rows = c.rows := by
  obtain ⟨w, e⟩ := c.recordFault_eq j synd a
  rw [e]
theorem Core.recordFault_dbg : (c.recordFault j synd a).dbg = c.dbg := by
  obtain ⟨w, e⟩ := c.recordFault_eq j synd a
  rw [e]
theorem Core.recordFault_sp : (c.recordFault j synd a).sp = c.sp := by
  obtain ⟨w, e⟩ := c.recordFault_eq j synd a
  rw [e]

end

/-- A fault of a job that still runs, outside debug mode, is recorded on its core and ends the job (R44). -/
theorem Dev.coreFault_of_live {d : Dev} {n k : Nat} {j : Job} (hj : d.coreJob n = some (k, j)) (hf : j.fin = none) (he : d.expired j = false)
    (hd : d.dbg.on = false) (synd a : Nat) : d.coreFault n synd a =
      (d.updCore n (·.recordFault j synd a)).endJob k
        ((d.updCore n (·.recordFault j synd a)).faultEnd j (faultDetail synd a) ((d.updCore n (·.recordFault j synd a)).core n).idx) := by
  have live : (d.updCore n (·.recordFault j synd a)).expired j = false := he
  have quiet (e : Dev) (h : e.dbg.on = false) : e.faultHalt k j = e := by
    simp only [Dev.faultHalt, h, Bool.false_and, Bool.false_eq_true, if_false]
  simp only [Dev.coreFault, hj, hf, live, Bool.false_eq_true, if_false]
  exact quiet _ hd

theorem Dev.endsInFault_coreFault {d : Dev} {n k : Nat} {j : Job} (hj : d.coreJob n = some (k, j)) (hf : j.fin = none) (he : d.expired j = false)
    (hd : d.dbg.on = false) (synd a : Nat) : EndsInFault d (d.coreFault n synd a) k synd a := by
  obtain ⟨-, job⟩ := Dev.coreJob_spec hj
  rw [Dev.coreFault_of_live hj hf he hd, EndsInFault, Dev.endJob, Dev.job_updJob_self, Dev.job_updCore, job]
  simp only [Option.map_some, hf, Option.isSome_none, Bool.false_eq_true, if_false]
  refine ⟨_, _, rfl, rfl, rfl, rfl, rfl, ?_, rfl, rfl⟩
  rw [Dev.faultEnd, faultDetail, place, Nat.shiftLeft_eq, Nat.mul_comm]

theorem Dev.core_coreFault {d : Dev} {n k : Nat} {j : Job} (hj : d.coreJob n = some (k, j)) (hf : j.fin = none) (he : d.expired j = false)
    (hd : d.dbg.on = false) (synd a : Nat) : (d.coreFault n synd a).core n = (d.core n).recordFault j synd a := by
  rw [Dev.coreFault_of_live hj hf he hd, Dev.endJob, Dev.core_updJob, Dev.core_updCore_self]

theorem Outside.coreFault {d : Dev} {n k : Nat} {j : Job} (hj : d.coreJob n = some (k, j)) (hf : j.fin = none) (he : d.expired j = false)
    (hd : d.dbg.on = false) (synd a : Nat) : Outside d (d.coreFault n synd a) n := by
  rw [Dev.coreFault_of_live hj hf he hd]
  exact (Outside.updCore ..).trans (.updJob ..)

/-- The fault of an instruction is taken where at most its hazards have been recorded. -/
theorem Dev.planFault_eq (d : Dev) (n synd : Nat) (pl : Plan) : ∃ e h, d.planFault n synd pl = e.coreFault n synd (d.core n).regs.pc.toNat ∧
    Outside d e n ∧ e.stk = d.stk ∧ e.core n = { d.core n with haz := h } := by
  unfold Dev.planFault
  simp only
  split
  · obtain ⟨h, e⟩ := (d.core n).hazards_eq pl.haz
    exact ⟨_, h, rfl, .updCore .., rfl, by rw [Dev.core_updCore_self, e]⟩
  · exact ⟨d, _, rfl, .refl .., rfl, rfl⟩

section
variable {plan : Nat → Core → Job → Prog → Dev → Plan} {n : Nat} {q : Pred} {op : CoreOp} {d : Dev} {j : Job} {p : Prog} {pl : Plan} {k synd : Nat}

/-- The device in which the fault of an instruction is taken, after its fetch and with its hazards recorded. -/
theorem Comes.faults_in (h : Comes plan n q op d j p pl) (hg : (d.core n).gate d.fno (decide (j.st = .presolving)) 0 pl = .fault synd) :
    ∃ e, issueWith plan n q op d = ((e.coreFault n synd (d.core n).regs.pc.toNat).cycle n).peakUp ∧ Outside d e n ∧ (∀ i, e.job i = d.job i) ∧
      (e.core n).job = (d.core n).job ∧ (e.core n).regs = (d.core n).regs ∧ (e.core n).rows = (d.core n).rows ∧
      (e.core n).dbg = (d.core n).dbg ∧ (e.core n).sp = (d.core n).sp := by
  obtain ⟨e, hz, fault, outside, stk, core⟩ := (d.fetched n p).planFault_eq n synd pl
  rw [Dev.fetched, Dev.core_updCore_self] at core fault
  refine ⟨e, by rw [h.faults hg, Dev.fetched, fault], (Outside.updCore ..).trans outside, fun i => by rw [Dev.job, stk]; rfl, ?_⟩
  rw [core]
  exact ⟨rfl, rfl, rfl, rfl, rfl⟩

/-- An instruction that meets a fault, on a core whose job still runs, outside debug mode. -/
theorem Comes.faulted (h : Comes plan n q op d j p pl) (hg : (d.core n).gate d.fno (decide (j.st = .presolving)) 0 pl = .fault synd)
    (hj : d.coreJob n = some (k, j)) (he : d.expired j = false) (hd : d.dbg.on = false) :
    Faulted d (issueWith plan n q op d) n k synd (d.core n).regs.pc.toNat := by
  obtain ⟨e, taken, outside, jobs, job, regs, rows, dbg, sp⟩ := h.faults_in hg
  have live : e.coreJob n = some (k, j) := by
    rw [← hj]
    simp only [Dev.coreJob, job, jobs]
  have early : e.expired j = false := by
    rw [← he, Dev.expired, Dev.now, outside.glb]
    rfl
  have quiet : e.dbg.on = false := by rw [outside.dbg, hd]
  obtain ⟨m, hm⟩ : ∃ m, m = (e.core n).recordFault j synd (d.core n).regs.pc.toNat := ⟨_, rfl⟩
  have core : (issueWith plan n q op d).core n = m.cycle.settled := by
    rw [taken, Dev.core_peakUp, Dev.core_cycle, Dev.core_coreFault live h.can.live early quiet, hm]
  have mregs : m.regs = (d.core n).regs := by rw [hm, Core.recordFault_regs, regs]
  have passed : Passed m m.cycle.settled := by
    refine Core.passed ?_ ?_
    · rw [hm, Core.recordFault_dbg, dbg, Core.ready_going h.can.ready]
    · rw [hm, Core.recordFault_rows, rows, h.can.settled]
  have before : SameFiles (d.core n) m := .of_regs (by rw [mregs]) (by rw [mregs]) (by rw [mregs]) (by rw [mregs])
  have files := before.trans passed.files
  have whole : Outside d (issueWith plan n q op d) n := by
    rw [taken]
    exact ((outside.trans (.coreFault live h.can.live early quiet ..)).trans (.cycle ..)).trans (.peakUp ..)
  refine ⟨?_, ?_, ?_, ?_, ?_, whole.cores, whole.mem⟩
  · have ends := Dev.endsInFault_coreFault live h.can.live early quiet synd (d.core n).regs.pc.toNat
    rw [EndsInFault, outside.glb, outside.fno] at ends
    rwa [EndsInFault, taken, Dev.job_peakUp, Dev.job_cycle]
  · rw [core, passed.store.evt, hm, Core.recordFault_evt]
  · rw [core]
    exact ⟨files.x, files.f, files.p, files.v, by rw [passed.store.fpc, mregs], by rw [passed.store.phase, mregs]⟩
  · rw [core, passed.pc, mregs]
  · rw [core, passed.store.sp, hm, Core.recordFault_sp, sp]

end

end Sys2Proof.Machine
end

section
/-!
SUPPORT. Narrow loads and stores: what they start, their faults, and the grant of the only request at a bank (08, 11).
-/
namespace Sys2Proof.Machine

/-! ### Issue (R322, R323, R474) -/

theorem planLd_fetched (isF : Bool) (d a h : Nat) (imm : W64) (n : Nat) (dv : Dev) (p : Prog) (pres : Bool) :
    planLd isF d a h imm n ((dv.fetched n p).core n) pres = planLd isF d a h imm n (dv.core n) pres := by
  rw [Dev.fetched, Dev.core_updCore_self]
  rfl

theorem planSt_fetched (isF : Bool) (a b h : Nat) (imm : W64) (n : Nat) (dv : Dev) (p : Prog) (pres : Bool) :
    planSt isF a b h imm n ((dv.fetched n p).core n) pres = planSt isF a b h imm n (dv.core n) pres := by
  rw [Dev.fetched, Dev.core_updCore_self]
  rfl

section
variable {n : Nat} {q : Pred} {dv : Dev} {j : Job} {p : Prog} {isF : Bool} {d a b h : Nat} {imm : W64}

theorem Comes.ld (can : CanIssue dv n q [.x a, if isF then .f d else .x d] j p) :
    Comes (fun n c j _ _ => planLd isF d a h imm n c (decide (j.st = .presolving))) n q (.ld isF d a h imm) dv j p
      (planLd isF d a h imm n (dv.core n) (decide (j.st = .presolving))) :=
  ⟨can, rfl, nofun, rfl, planLd_fetched ..⟩

theorem Comes.st (can : CanIssue dv n q [.x a, if isF then .f b else .x b] j p) :
    Comes (fun n c j _ _ => planSt isF a b h imm n c (decide (j.st = .presolving))) n q (.st isF a b h imm) dv j p
      (planSt isF a b h imm n (dv.core n) (decide (j.st = .presolving))) :=
  ⟨can, rfl, nofun, rfl, planSt_fetched ..⟩

end

section
variable {isF : Bool} {d a b h : Nat} {imm : W64} {n : Nat} {c : Core} {pres : Bool}

theorem Plan.clear_ld
    (hr : c.rangeBlocked (mkHold false (c.handle h).mem [c.readRow pres (c.handle h) ((c.getX a + imm).toNat / 512)]) = false)
    (hn : c.narrowPortBusy (c.handle h).mem = false) : (planLd isF d a h imm n c pres).Clear c pres :=
  ⟨nofun, nofun, rfl, hr, rfl, hn, rfl⟩

theorem Plan.clear_st
    (hr : c.rangeBlocked (mkHold true (c.handle h).mem [c.writeRow pres (c.handle h) ((c.getX a + imm).toNat / 512)]) = false)
    (hn : c.narrowPortBusy (c.handle h).mem = false) (hw : c.writable pres (c.handle h)) : (planSt isF a b h imm n c pres).Clear c pres :=
  ⟨fun wait => ⟨hw.1 wait, hw.2⟩, fun _ => hw.2, rfl, hr, rfl, hn, rfl⟩

end

/-- Marking versioned rows changes the SHD bits only. -/
theorem Core.markShd_eq (c : Core) (pres : Bool) (h : HDesc) (is : List Nat) :
    ∃ r, c.markShd pres h is = { c with rows := r } ∧ r.drop = c.rows.drop := by
  unfold Core.markShd
  split
  · exact ⟨_, rfl, rfl⟩
  · exact ⟨c.rows, rfl, rfl⟩

theorem narrowSynds_of_good {h : HDesc} {ofs align : Nat} (ha : ofs % align = 0) (hs : handleSynd h [0, 1, 2] (ofs / 512) = []) :
    narrowSynds h ofs align = [] := by rw [narrowSynds, if_pos ha, hs]; rfl

section
variable {i : Instr} {s : State} {n : Nat} {q : Pred} {j : Job} {p : Prog} {d a b h : Nat} {imm : W64}

/-- An aligned load inside its handle, whose row and port are free, presents its read. -/
theorem Starts.ld (isF : Bool) (hi : exec i s = s.run (issueLd isF n q d a h imm))
    (can : CanIssue s.dev n q [.x a, if isF then .f d else .x d] j p) :
    let c := s.dev.core n
    let ofs := (c.getX a + imm).toNat
    let hd := c.handle h
    let row := c.readRow (decide (j.st = .presolving)) hd (ofs / 512)
    handleSynd hd [0, 1, 2] (ofs / 512) = [] → c.rangeBlocked (mkHold false hd.mem [row]) = false → c.narrowPortBusy hd.mem = false →
      c.haz.mode ≠ 2 → ofs % (if isF then 4 else 8) = 0 →
      Starts i s n (.load d hd.mem row (ofs % 512) (if isF then 4 else 8)) .narrow [if isF then .f d else .x d] 0 := by
  intro c ofs hd row hs hr hn hz ha
  have go := Core.gate_go s.dev.fno (Plan.clear_ld (isF := isF) (d := d) (n := n) hr hn) (narrowSynds_of_good ha hs) fun hm => absurd hm hz
  exact .of_goes (op := .ld isF d a h imm)
    (o := { seq := 0, unit := .narrow, kind := .load d hd.mem row (ofs % 512) (if isF then 4 else 8), dst := [if isF then .f d else .x d], left := 0,
            occ := 0, cost := 0, ilease := 0, fp := false, versioned := false, holds := mkHold false hd.mem [row] })
    hi (.ld can) go rfl (fun _ _ => rfl) fun m => ⟨m.rows, rfl, rfl⟩

/-- An aligned store inside its handle, whose row and port are free and whose rows may be written, presents its bytes. -/
theorem Starts.st (isF : Bool) (hi : exec i s = s.run (issueSt isF n q a b h imm))
    (can : CanIssue s.dev n q [.x a, if isF then .f b else .x b] j p) :
    let c := s.dev.core n
    let ofs := (c.getX a + imm).toNat
    let hd := c.handle h
    let pres := decide (j.st = .presolving)
    let row := c.writeRow pres hd (ofs / 512)
    handleSynd hd [0, 1, 2] (ofs / 512) = [] → c.rangeBlocked (mkHold true hd.mem [row]) = false → c.narrowPortBusy hd.mem = false →
      c.writable pres hd → ofs % (if isF then 4 else 8) = 0 →
      Starts i s n (.store hd.mem row (ofs % 512) (if isF then toBytes (c.getF b).toNat 4 else toBytes (c.getX b).toNat 8)) .narrow [] 0 := by
  intro c ofs hd pres row hs hr hn hw ha
  have go := Core.gate_go s.dev.fno (Plan.clear_st (isF := isF) (b := b) (n := n) hr hn hw) (narrowSynds_of_good ha hs) fun _ => rfl
  exact .of_goes (op := .st isF a b h imm)
    (o := { seq := 0, unit := .narrow,
            kind := .store hd.mem row (ofs % 512) (if isF then toBytes (c.getF b).toNat 4 else toBytes (c.getX b).toNat 8), dst := [], left := 0,
            occ := 0, cost := 0, ilease := 0, fp := false, versioned := hd.versioned, holds := mkHold true hd.mem [row] })
    hi (.st can) go rfl (fun _ _ => rfl) fun m => by
      obtain ⟨r, marked, drop⟩ := m.markShd_eq pres hd [ofs / 512]
      exact ⟨r, by rw [marked], drop⟩

end

/-! ### Faults (R323) -/

theorem handleSynd_of_unbound {h : HDesc} (hv : h.valid = false) (mems : List Nat) (r : Nat) : handleSynd h mems r = [5] := by
  rw [handleSynd, hv]
  rfl

theorem handleSynd_of_outside {h : HDesc} {r : Nat} (hv : h.valid = true) (hr : h.count ≤ r) (mems : List Nat) : handleSynd h mems r = [4] := by
  rw [handleSynd, hv, decide_eq_true hr, Bool.or_true]
  rfl

theorem le_of_mem_handleSynd {h : HDesc} {mems : List Nat} {r x : Nat} (hx : x ∈ handleSynd h mems r) : 4 ≤ x := by
  unfold handleSynd at hx
  split at hx
  · rw [List.mem_singleton.mp hx]; decide
  · split at hx
    · exact Nat.le_of_eq (List.mem_singleton.mp hx).symm
    · cases hx

/-- A narrow access that nothing holds takes the lowest of the syndromes that apply: misaligned, outside its handle's rows, unbound. -/
theorem Comes.narrow_faulted {plan : Nat → Core → Job → Prog → Dev → Plan} {n : Nat} {q : Pred} {op : CoreOp} {d : Dev} {j : Job} {p : Prog} {pl : Plan}
    {k : Nat} (h : Comes plan n q op d j p pl) (clear : pl.Clear (d.core n) (decide (j.st = .presolving))) {hd : HDesc} {ofs align : Nat}
    (hs : pl.synds = narrowSynds hd ofs align) (hj : d.coreJob n = some (k, j)) (he : d.expired j = false) (hg : d.dbg.on = false) :
    let Ends (synd : Nat) : Prop := Faulted d (issueWith plan n q op d) n k synd (d.core n).regs.pc.toNat
    (ofs % align ≠ 0 → Ends 3) ∧ (ofs % align = 0 → hd.valid = false → Ends 5) ∧
      (ofs % align = 0 → hd.valid = true → hd.count ≤ ofs / 512 → Ends 4) := by
  refine ⟨fun ha => h.faulted (Core.gate_fault _ clear (l := handleSynd hd [0, 1, 2] (ofs / 512)) ?_ ?_ (by decide)) hj he hg,
    fun ha hv => h.faulted (Core.gate_fault _ clear (l := []) ?_ nofun (by decide)) hj he hg,
    fun ha hv hr => h.faulted (Core.gate_fault _ clear (l := []) ?_ nofun (by decide)) hj he hg⟩
  · rw [hs, narrowSynds, if_neg ha]
    rfl
  · exact fun x hx => Nat.le_of_succ_le (le_of_mem_handleSynd hx)
  · rw [hs, narrowSynds, if_pos ha, handleSynd_of_unbound hv]
    rfl
  · rw [hs, narrowSynds, if_pos ha, handleSynd_of_outside hv hr]
    rfl

/-! ### The grant (R443, R446, R449) -/

theorem Bank.pick_narrow (b : Bank) {f : Nat → Bool} (wide : ∀ i < 4, f i = false) (narrow : f 4 = true) : b.pick f = some 4 := by
  have none : firstWide b.last f = none := by
    rw [firstWide, List.find?_eq_none]
    intro x hx
    obtain ⟨i, -, rfl⟩ := List.mem_map.mp hx
    rw [wide _ (Nat.mod_lt _ (by decide))]
    exact Bool.false_ne_true
  simp only [Bank.pick, narrow, none, if_true, ite_self]

/-- The core whose bank `bank` of memory `mem` has granted the narrow port. -/
def Core.grantedNarrow (c : Core) (mem bank : Nat) : Core :=
  { c with banks := SMap.set {} c.banks (mem * 8 + bank) ((SMap.get {} c.banks (mem * 8 + bank)).granted 4 true), ported := c.ported ++ [(4, mem)] }

theorem Core.grantedNarrow_used (c : Core) (mem bank : Nat) : (SMap.get {} (c.grantedNarrow mem bank).banks (mem * 8 + bank)).used = true := by
  rw [Core.grantedNarrow, SMap.get_set_self]
  rfl

/-- The only request at a bank, a narrow one, is granted. -/
theorem Dev.grant_narrow {d : Dev} {n mem bank row : Nat} {o : Op} (wide : ∀ i < 4, (d.core n).askAt i mem bank = none)
    (narrow : (d.core n).askAt 4 mem bank = some (.op o, row)) (free : (SMap.get {} (d.core n).banks (mem * 8 + bank)).used = false) :
    d.grant n mem bank none = (d.updCore n (·.grantedNarrow mem bank)).narrowGrant n o := by
  have pick : (SMap.get {} (d.core n).banks (mem * 8 + bank)).pick (fun i => ((d.core n).askAt i mem bank).isSome) = some 4 :=
    Bank.pick_narrow _ (fun i hi => by rw [wide i hi]; rfl) (by rw [narrow]; rfl)
  simp only [Dev.grant, Dev.bankCycle, free, pick, narrow, Dev.carryOut, reduceCtorEq, Bool.false_eq_true, if_false, if_true, Option.isSome_some,
    Bool.true_or]
  rfl

theorem Core.badWords_of_sound {c : Core} {mem row : Nat} {ws : List Nat} (h : c.sound mem row ws) {lvl : Nat} (hl : lvl ≠ 0) :
    c.badWords lvl mem row ws = [] := by
  rw [Core.badWords, List.filter_eq_nil_iff]
  intro w hw
  rw [h w hw, decide_eq_true_eq]
  exact hl.symm

theorem Dev.checkRead_of_sound {d : Dev} {n mem row : Nat} {ws : List Nat} (h : (d.core n).sound mem row ws) (spec : Bool) :
    d.checkRead n mem row ws spec = d := by
  rw [Dev.checkRead, Core.badWords_of_sound h (Nat.succ_ne_zero _), Core.badWords_of_sound h (Nat.succ_ne_zero _)]
  rfl

/-- A write whose merged words hold no error writes its bytes; the words take new check bits. -/
theorem Core.put_of_sound {c : Core} {mem row off : Nat} {bs : List Byte} (h : c.sound mem row (partWords off bs.length)) :
    ∃ e, c.put mem row off bs = { c.spWrite mem row off bs with ecc := e } := by
  rw [Core.put, Core.badWords_of_sound h (Nat.succ_ne_zero _)]
  exact ⟨_, rfl⟩

theorem Dev.store_of_sound {d : Dev} {n mem row off : Nat} {bs : List Byte} (h : (d.core n).sound mem row (partWords off bs.length)) :
    d.store n mem row [(off, bs)] = d.updCore n (·.put mem row off bs) := by
  rw [Dev.store, List.flatMap_singleton, Dev.checkRead_of_sound h]
  rfl

theorem Core.settled_dropped_sp (c : Core) (o : Op) : (c.dropped o).settled.sp = c.sp := rfl
theorem Core.settled_dropped_regs (c : Core) (o : Op) : (c.dropped o).settled.regs = c.regs := rfl
theorem Core.settled_dropped_banks (c : Core) (o : Op) : (c.dropped o).settled.banks = c.banks := rfl

section
variable {d : Dev} {n mem bank row off : Nat} {o : Op}

/-- A granted store writes its bytes, and leaves. -/
theorem Dev.narrowGrant_store {bs : List Byte} (hk : o.kind = .store mem row off bs) (hs : (d.core n).sound mem row (partWords off bs.length)) :
    let t := (d.updCore n (·.grantedNarrow mem bank)).narrowGrant n o
    (∀ a, Memory.read 0 (t.core n).sp a = if spAddr mem row off ≤ a ∧ a < spAddr mem row off + bs.length then bs.getD (a - spAddr mem row off) 0
      else Memory.read 0 (d.core n).sp a) ∧
    OpLeaves d t n o ∧ (t.core n).regs = (d.core n).regs ∧ Outside d t n ∧
      (SMap.get {} (t.core n).banks (mem * 8 + bank)).used = true := by
  let g := d.updCore n (·.grantedNarrow mem bank)
  have granted : g.core n = (d.core n).grantedNarrow mem bank := Dev.core_updCore_self ..
  have sound : (g.core n).sound mem row (partWords off bs.length) := by rw [granted]; exact hs
  have stored : g.narrowGrant n o = (g.updCore n (·.put mem row off bs)).dropOp n o := by
    simp only [Dev.narrowGrant, hk, Dev.store_of_sound sound]
  obtain ⟨e, put⟩ := Core.put_of_sound sound
  have written : (g.updCore n (·.put mem row off bs)).core n = { ((d.core n).grantedNarrow mem bank).spWrite mem row off bs with ecc := e } := by
    rw [Dev.core_updCore_self, put, granted]
  have core := (g.updCore n (·.put mem row off bs)).core_dropOp n o
  intro t
  rw [show t = _ from stored]
  refine ⟨fun a => ?_, (Dev.opLeaves_dropOp ..).of_same ?_ ?_ rfl, ?_, ((Outside.updCore ..).trans (.updCore ..)).trans (.dropOp ..), ?_⟩
  · rw [core, Core.settled_dropped_sp, written]
    exact Memory.read_writeL ..
  · rw [written]
    rfl
  · rw [written]
    rfl
  · rw [core, Core.settled_dropped_regs, written]
    rfl
  · rw [core, Core.settled_dropped_banks, written]
    exact Core.grantedNarrow_used ..

/-- A granted load takes the bytes of its row; its result is available 3 CCLK after the grant's own. -/
theorem Dev.narrowGrant_load {r size : Nat} (hk : o.kind = .load r mem row off size) (hs : (d.core n).sound mem row [off / 8]) :
    let t := (d.updCore n (·.grantedNarrow mem bank)).narrowGrant n o
    let v := ofBytes ((d.core n).spRead mem row off size)
    (t.core n).ops = (d.core n).ops.map (fun q => if q.seq = o.seq then
      { q with kind := .regs [if size = 4 then .f r (BitVec.ofNat 32 v) else .x r (BitVec.ofNat 64 v)], left := 2, holds := [] } else q) ∧
    (t.core n).sp = (d.core n).sp ∧ (t.core n).regs = (d.core n).regs ∧ Outside d t n ∧
      (SMap.get {} (t.core n).banks (mem * 8 + bank)).used = true := by
  let g := d.updCore n (·.grantedNarrow mem bank)
  have granted : g.core n = (d.core n).grantedNarrow mem bank := Dev.core_updCore_self ..
  have sound : (g.core n).sound mem row [off / 8] := by rw [granted]; exact hs
  have readable : (g.core n).readable mem row [off / 8] = true := by rw [Core.readable, Core.badWords_of_sound sound (Nat.succ_ne_zero _)]; rfl
  intro t v
  have read : t = g.updCore n (·.updOp o.seq (fun q =>
      { q with kind := .regs [if size = 4 then .f r (BitVec.ofNat 32 v) else .x r (BitVec.ofNat 64 v)], left := 2, holds := [] })) := by
    have bytes : (g.core n).spRead mem row off size = (d.core n).spRead mem row off size := by rw [granted]; rfl
    change g.narrowGrant n o = _
    simp only [Dev.narrowGrant, hk, readable, if_true, Dev.checkRead_of_sound sound, bytes, v]
  have core : t.core n = _ := (congrArg (Dev.core · n) read).trans (Dev.core_updCore_self ..)
  rw [granted] at core
  rw [core]
  refine ⟨rfl, rfl, rfl, ?_, Core.grantedNarrow_used ..⟩
  rw [read]
  exact (Outside.updCore ..).trans (.updCore ..)

end

/-! ### The statement -/

/-- Settles O10. A narrow access that nothing holds starts, or takes the lowest of its syndromes; the only request at a bank is granted, whichever
wide port the bank granted last. -/
theorem narrowLoadsAndStores : Obligations.NarrowLoadsAndStores := by
  refine ⟨?_, ?_, ?_, ?_⟩
  · intro s n q d a h imm j p c ofs hd row hs hr hn hz
    exact ⟨fun can ha => .ld false rfl can hs hr hn hz ha, fun can ha => .ld true rfl can hs hr hn hz ha⟩
  · intro s n q a b h imm j p c ofs hd pres row hs hr hn hw
    exact ⟨fun can ha => .st false rfl can hs hr hn hw ha, fun can ha => .st true rfl can hs hr hn hw ha⟩
  · intro s n q d a b h imm k j p c ofs hd Ends pres Free Bad hj hf he hg
    have load {i : Instr} {isF : Bool} (hi : exec i s = s.run (issueLd isF n.val q d.toNat a.toNat h.toNat imm))
        (free : Free false (c.readRow pres hd (ofs / 512)))
        (can : CanIssue s.dev n.val q [.x a.toNat, if isF then .f d.toNat else .x d.toNat] j p) : Bad i (if isF then 4 else 8) := by
      obtain ⟨misaligned, unbound, outside⟩ := (Comes.ld can).narrow_faulted (Plan.clear_ld free.1 free.2) rfl hj he hg
      exact ⟨fun ha => .of_run hi (misaligned ha), fun ha hv => .of_run hi (unbound ha hv), fun ha hv hr => .of_run hi (outside ha hv hr)⟩
    have store {i : Instr} {isF : Bool} (hi : exec i s = s.run (issueSt isF n.val q a.toNat b.toNat h.toNat imm))
        (free : Free true (c.writeRow pres hd (ofs / 512))) (hw : c.writable pres hd)
        (can : CanIssue s.dev n.val q [.x a.toNat, if isF then .f b.toNat else .x b.toNat] j p) : Bad i (if isF then 4 else 8) := by
      obtain ⟨misaligned, unbound, outside⟩ := (Comes.st can).narrow_faulted (Plan.clear_st free.1 free.2 hw) rfl hj he hg
      exact ⟨fun ha => .of_run hi (misaligned ha), fun ha hv => .of_run hi (unbound ha hv), fun ha hv hr => .of_run hi (outside ha hv hr)⟩
    exact ⟨fun free => ⟨load (isF := false) rfl free, load (isF := true) rfl free⟩,
      fun free hw => ⟨store (isF := false) rfl free hw, store (isF := true) rfl free hw⟩⟩
  · intro s n mem bank o row c Grant wide narrow free
    refine ⟨fun off bs hk hs => .of_run (f := fun d => d.grant n.val mem.val bank.val none) rfl ?_,
      fun r off size hk hs => .of_run (f := fun d => d.grant n.val mem.val bank.val none) rfl ?_⟩
    · rw [Dev.grant_narrow wide narrow free]
      exact Dev.narrowGrant_store hk hs
    · rw [Dev.grant_narrow wide narrow free]
      exact Dev.narrowGrant_load hk hs

end Sys2Proof.Machine
end

section
/-!
SUPPORT. ember.save and job.done: their issue, the replacement of the ember, and the retirement of a job (01, 08).
-/
namespace Sys2Proof.Machine

/-! ### Issue of ember.save and job.done (R341-R349) -/

theorem planEmberSave_fetched (a b h rows first n : Nat) (d : Dev) (p : Prog) :
    planEmberSave a b h rows first n ((d.fetched n p).core n) = planEmberSave a b h rows first n (d.core n) := by
  rw [Dev.fetched, Dev.core_updCore_self]
  rfl

theorem planJobDone_fetched (a b e h rows status first n : Nat) (d : Dev) (p : Prog) :
    planJobDone a b e h rows status first n ((d.fetched n p).core n) = planJobDone a b e h rows status first n (d.core n) := by
  rw [Dev.fetched, Dev.core_updCore_self]
  rfl

theorem emberSave_fields {h rows first a b : Nat} (hr : rows ≤ 8) (hz : rows = 0 → h = 0 ∧ first = 0) :
    (CoreOp.emberSave a b h rows first).reserved = false := by
  simp only [CoreOp.reserved, Bool.or_eq_false_iff, decide_eq_false_iff_not]
  refine ⟨Nat.not_lt.mpr hr, ?_⟩
  by_cases h0 : rows = 0
  · obtain ⟨rfl, rfl⟩ := hz h0
    exact Bool.and_false _
  · rw [beq_eq_false_iff_ne.mpr h0, Bool.false_and]

/-- The result rows of a job.done: none where ROWS is 0. -/
theorem logical_rows (c : Core) (pres : Bool) (h : HDesc) (first rows : Nat) :
    (if rows = 0 then [] else (c.logical pres h first rows).map Prod.snd) = (c.logical pres h first rows).map Prod.snd := by
  split
  · next h0 => rw [h0]; rfl
  · rfl

theorem statusOk_iff {st : Byte} : statusOk st.toNat = true ↔ st = 0 ∨ st = 8 ∨ 0x80 ≤ st.toNat := by
  have eq (w : Byte) : (st.toNat == w.toNat) = true ↔ st = w := by rw [beq_iff_eq]; exact BitVec.toNat_inj
  simp only [statusOk, Bool.or_eq_true, decide_eq_true_eq, or_assoc]
  rw [← eq 0, ← eq 8]
  rfl

section
variable {i : Instr} {s : State} {n : Nat} {q : Pred} {j : Job} {p : Prog} {a b e h rows first status : Nat}

/-- A job control instruction of a lead core outside PRESOLVING whose range is free. -/
theorem Plan.Clear.of_running {pl : Plan} {c : Core} {pres : Bool} (hp : pres = false) (hf : c.rows.flip = false) (hb : pl.busy = false)
    (hr : c.rangeBlocked pl.holds = false) (hv : pl.vuPort = none) (hn : pl.narrowPort = none) (hd : pl.delay = 0) : pl.Clear c pres :=
  ⟨fun _ => ⟨hp, hf⟩, fun _ => hf, hb, hr, hv, by rw [hn]; rfl, hd⟩

theorem Starts.emberSave (hi : exec i s = s.run (issueEmberSave n q a b h rows first)) (can : CanIssue s.dev n q [.x a, .f b] j p)
    (fields : (CoreOp.emberSave a b h rows first).reserved = false) :
    let c := s.dev.core n
    let rs := c.logical false (c.handle h) first rows
    c.idx = 0 → j.st ≠ .presolving → c.rows.flip = false → resultSynds (c.handle h) rows first = [] → c.haz.mode ≠ 2 →
      c.rangeBlocked (mkHold false (c.handle h).mem (rs.map Prod.snd)) = false → (∀ o ∈ c.ops, o.unit ≠ .ember) →
      Starts i s n (.ember rs [] (c.getF b) (BitVec.ofNat 64 (iterOf (c.getX a)))) .ember [] (2 * (16 + 8 * rows)) := by
  intro c rs lead hp hf hs hz hr idle
  have busy : (planEmberSave a b h rows first n c).busy = false := by
    simp only [planEmberSave, List.any_eq_false, decide_eq_true_eq]
    exact idle
  have synds : (planEmberSave a b h rows first n c).synds = [] := by
    simp only [planEmberSave, lead, if_true, hs, List.append_nil]
  have go := Core.gate_go s.dev.fno (.of_running (decide_eq_false hp) hf busy hr rfl rfl rfl) synds fun hm => absurd hm hz
  exact .of_goes (op := .emberSave a b h rows first) (plan := fun n c _ _ _ => planEmberSave a b h rows first n c)
    (o := { seq := 0, unit := .ember, kind := .ember rs [] (c.getF b) (BitVec.ofNat 64 (iterOf (c.getX a))), dst := [],
            left := 2 * (16 + 8 * rows), occ := 0, cost := 0, ilease := 0, fp := false, versioned := false,
            holds := mkHold false (c.handle h).mem (rs.map Prod.snd) })
    hi ⟨can, fields, nofun, rfl, planEmberSave_fetched ..⟩ go rfl (fun _ _ => rfl) fun m => ⟨m.rows, rfl, rfl⟩

theorem Issues.jobDone (hi : exec i s = s.run (issueJobDone n q a b e h rows status first)) (can : CanIssue s.dev n q [.x a, .f b, .x e] j p)
    (fields : (CoreOp.jobDone a b e h rows status first).reserved = false) (hst : statusOk status = true) :
    let c := s.dev.core n
    let hold := mkHold false (c.handle h).mem ((c.logical false (c.handle h) first rows).map Prod.snd)
    c.idx = 0 → j.st ≠ .presolving → c.rows.flip = false → resultSynds (c.handle h) rows first = [] → c.haz.mode ≠ 2 →
      c.rangeBlocked hold = false → Issues i s n (·.wait = .done status a b e h rows first hold) := by
  intro c hold lead hp hf hs hz hr
  have holds : (planJobDone a b e h rows status first n c).holds = hold := by rw [planJobDone, logical_rows]
  have synds : (planJobDone a b e h rows status first n c).synds = [] := by
    simp only [planJobDone, lead, if_true, hst, hs, List.append_nil]
  have go := Core.gate_go s.dev.fno (.of_running (decide_eq_false hp) hf rfl (by rw [holds]; exact hr) rfl rfl rfl) synds fun hm => absurd hm hz
  refine .of_goes (op := .jobDone a b e h rows status first) (plan := fun n c _ _ _ => planJobDone a b e h rows status first n c)
    (f := fun m => { m with wait := .done status a b e h rows first hold })
    hi ⟨can, fields, nofun, rfl, planJobDone_fetched ..⟩ go rfl (fun _ _ => ?_) (fun _ => ⟨rfl, rfl, rfl, rfl⟩) fun _ _ _ store => store.wait
  rw [← holds]
  rfl

end

/-! ### The ember and the retirement (R34, R40, R345, R349-R351) -/

/-- The ember of a save that has copied the bytes `got`. -/
def emberSaved (got : List Byte) (resid : W32) (iter time : W64) : Ember :=
  { rows := got.length / 512, resid := resid, iter := iter.toNat, time := time }

/-- A core whose ember store holds `got` and whose recorded ember is `e`. -/
def Core.recordEmber (c : Core) (got : List Byte) (e : Ember) : Core :=
  { c with estore := Memory.writeL 0 c.estore 0 got, ember := some e }

/-- A save that has copied its rows and whose replacement cycle has come. -/
def Op.copied (o : Op) : Bool :=
  match o.kind with
  | .ember todo _ _ _ => todo.isEmpty && decide (o.left = 0)
  | _ => false

theorem Dev.emberReplace_of_copied {d : Dev} {n : Nat} {o : Op} {got : List Byte} {resid : W32} {iter : W64}
    (ho : (d.core n).ops.find? Op.copied = some o) (hk : o.kind = .ember [] got resid iter) : ∃ x, d.emberReplace n =
      ((d.updCore n (·.recordEmber got (emberSaved got resid iter d.glb.time))).dropOp n o).trace n 0x02 x := by
  unfold Dev.emberReplace
  simp only
  split
  · next o' ho' =>
    obtain rfl : o' = o := Option.some.inj (ho'.symm.trans ho)
    simp only [hk]
    exact ⟨_, rfl⟩
  · next none => exact nomatch none.symm.trans ho

theorem Dev.trace_blw (d : Dev) (a e x : Nat) : (d.trace a e x).blw = d.blw := by rw [Dev.trace_eq]

theorem OpLeaves.trace {d t : Dev} {n : Nat} {o : Op} (h : OpLeaves d t n o) (a e x : Nat) : OpLeaves d (t.trace a e x) n o := by
  simpa only [OpLeaves, Dev.core_trace, Dev.trace_blw] using h

/-- job.done retires once nothing is in flight, where no comparator has fired and no end is fixed. -/
theorem Dev.retire_of_idle {d : Dev} {n k : Nat} {j : Job} {st a b x h rows first : Nat} {hs : List Hold}
    (hj : d.coreJob n = some (k, j)) (hw : (d.core n).wait = .done st a b x h rows first hs) (ho : (d.core n).ops = [])
    (hh : (d.core n).dbg.halted = false) (he : d.expired j = false) :
    let c := d.core n
    let rs := if rows = 0 then [] else c.logical false (c.handle h) first rows
    d.retire n = d.endJob k
      { final := BitVec.ofNat 8 st, detail := if st = 8 then (c.getX x).setWidth 32 else 0, time := d.glb.time, resid := c.getF b,
        iter := iterOf (c.getX a), ember := 0, rows := rs, written := rs.isEmpty, retry := false,
        emberTime := (d.emberOf j).map Ember.time, fclk := d.fno, idx := 0 } := by
  simp only [Dev.retire, hj, hw, ho, hh, he, List.isEmpty_nil, Bool.not_true, Bool.or_self, Bool.false_eq_true, if_false]

theorem logical_isEmpty (c : Core) (pres : Bool) (h : HDesc) (first rows : Nat) :
    (if rows = 0 then [] else c.logical pres h first rows).isEmpty = true ↔ rows = 0 := by
  split
  · next h0 => simp only [List.isEmpty_nil, h0]
  · next h0 => simp only [Core.logical, span, List.isEmpty_iff, List.map_eq_nil_iff, List.range_eq_nil, h0]

/-! ### The statement on job control -/

/-- Settles O13. An ember.save and a job.done that nothing holds start; the save that has copied its rows is recorded; the job.done whose core is idle
fixes the end of its job, which stops no core yet. -/
theorem emberSaveAndJobDone : Obligations.EmberSaveAndJobDone := by
  refine ⟨?_, ?_, ?_⟩
  · intro s n q a b e h rows first st j p c hd rs lead hp hf hs hz hm hr
    have zero (h0 : rows.val = 0) : h.toNat = 0 ∧ first.toNat = 0 := by
      obtain ⟨rfl, rfl⟩ := hz (Fin.ext h0)
      exact ⟨rfl, rfl⟩
    have fields {a b : Nat} : (CoreOp.emberSave a b h.toNat rows.val first.toNat).reserved = false :=
      emberSave_fields (Nat.le_of_lt_succ rows.isLt) zero
    exact ⟨fun can idle => .emberSave rfl can fields lead hp hf hs hm hr idle,
      fun can hst => .jobDone rfl can (fields (a := 0) (b := 0)) (statusOk_iff.mpr hst) lead hp hf hs hm hr⟩
  · intro s n o got resid iter c ho hk
    obtain ⟨x, replaced⟩ := Dev.emberReplace_of_copied ho hk
    let g := s.dev.updCore n.val (·.recordEmber got (emberSaved got resid iter s.dev.glb.time))
    have recorded : g.core n.val = c.recordEmber got (emberSaved got resid iter s.dev.glb.time) := Dev.core_updCore_self ..
    have outside : Outside s.dev (g.dropOp n.val o) n.val := (Outside.updCore ..).trans (.dropOp ..)
    refine .of_run (f := (·.emberReplace n.val)) rfl ?_
    rw [replaced, Dev.trace_mem]
    simp only [Dev.core_trace]
    refine ⟨?_, ?_, ?_, ?_, ((g.opLeaves_dropOp n.val o).of_same (d := s.dev) ?_ ?_ rfl).trace .., outside.mem, outside.cores⟩
    · rw [Dev.core_dropOp, (Core.sameStore_dropped ..).ember, recorded]
      rfl
    · rw [Dev.core_dropOp, (Core.sameStore_dropped ..).estore, recorded]
      exact Memory.readN_writeL ..
    · rw [Dev.core_dropOp, Core.settled_dropped_sp, recorded]
      rfl
    · rw [Dev.core_dropOp, Core.settled_dropped_regs, recorded]
      rfl
    · rw [recorded]
      rfl
    · rw [recorded]
      rfl
  · intro s n k j st a b x h rows first hs c hj hw ho hh he hf
    obtain ⟨-, job⟩ := Dev.coreJob_spec hj
    refine .of_run (f := (·.retire n.val)) rfl ?_
    rw [Dev.retire_of_idle hj hw ho hh he, Dev.endJob, Dev.job_updJob_self, job]
    simp only [Option.map_some, hf, Option.isSome_none, Bool.false_eq_true, if_false]
    exact ⟨_, _, rfl, rfl, rfl, rfl, rfl, rfl, rfl, rfl, logical_isEmpty .., rfl, rfl, fun _ => rfl, rfl⟩

end Sys2Proof.Machine
end

section
/-!
SUPPORT. spec.accept: its issue, and the commit and the squash of a pre-solving run (08, 11, 13).
-/
namespace Sys2Proof.Machine

/-! ### The issue of spec.accept (R353-R355) -/

theorem planAccept_fetched (a n : Nat) (d : Dev) (p : Prog) (j : Job) :
    planAccept a ((d.fetched n p).core n) j = planAccept a (d.core n) j := by
  rw [Dev.fetched, Dev.core_updCore_self]
  rfl

theorem Plan.free_accept {a : Nat} {c : Core} {j : Job} (h : j.st = .presolving → c.idx = 0 ∧ j.delivered = true) :
    (planAccept a c j).Free := by
  refine ⟨rfl, rfl, ?_, rfl, rfl, rfl, rfl, rfl, rfl⟩
  by_cases hp : j.st = .presolving
  · obtain ⟨lead, delivered⟩ := h hp
    simp only [planAccept, hp, lead, delivered, decide_true, Bool.not_true, Bool.or_self, Bool.and_false]
  · simp only [planAccept, decide_eq_false hp, Bool.false_and]

theorem Core.issued_issuedFrom (c : Core) (p : Prog) : c.Issued (c.issuedFrom p) := by
  obtain ⟨_, rfl, -, -, -, -, -, pc⟩ := Core.issued_spec c p
  exact ⟨c.kept_issuedFrom p, c.sameFiles_issuedFrom p, pc⟩

section
variable {i : Instr} {s : State} {n : Nat} {q : Pred} {a : Nat} {j : Job} {p : Prog} {d : Dev} {k : Nat}

theorem issueAccept_eq (can : CanIssue d n q [.p a] j p) (h : j.st = .presolving → (d.core n).idx = 0 ∧ j.delivered = true) :
    issueAccept n q a d = (((planAccept a (d.core n) j).act (d.core n).tok.ilease (d.issuedFrom n p)).cycle n).peakUp :=
  issueWith_free (op := .specAccept a) (plan := fun _ c j _ _ => planAccept a c j) can rfl nofun rfl (planAccept_fetched ..) (Plan.free_accept h) rfl

/-- Outside PRESOLVING a spec.accept only issues. -/
theorem Issues.accept (hi : exec i s = s.run (issueAccept n q a)) (can : CanIssue s.dev n q [.p a] j p) (hp : j.st ≠ .presolving) :
    Issues i s n fun c' => c'.wait = (s.dev.core n).wait ∧ c'.rows = (s.dev.core n).rows := by
  have none (il : Nat) (e : Dev) : (planAccept a (s.dev.core n) j).act il e = e := by
    simp only [planAccept, decide_eq_false hp, Bool.false_and, Bool.false_eq_true, if_false]
  have issued := (s.dev.core n).issued_issuedFrom p
  obtain ⟨passed, regs, pc⟩ := issued.passed can.ready can.settled rfl rfl rfl
  unfold Issues
  refine .of_run hi ?_
  rw [issueAccept_eq can fun h => absurd h hp, none, Dev.core_peakUp, Dev.core_cycle, Dev.core_issuedFrom]
  have kept := issued.kept.store
  exact ⟨((Outside.issuedFrom ..).trans (.cycle ..)).trans (.peakUp ..), regs, passed.store.sp.trans kept.sp, pc,
    passed.store.wait.trans kept.wait, passed.store.rows.trans kept.rows⟩

/-- The first issue of a run changes its START and the check of its first ember only. -/
theorem Dev.job_issuedFrom (hj : d.coreJob n = some (k, j)) :
    ∃ t e, (d.issuedFrom n p).job k = some { j with start := t, emberFrom := e } := by
  obtain ⟨-, job⟩ := Dev.coreJob_spec hj
  have fetched : (d.fetched n p).coreJob n = some (k, j) := by
    rw [← hj, Dev.fetched]
    simp only [Dev.coreJob, Dev.core_updCore_self, Dev.job_updCore]
  rw [Dev.issuedFrom, Dev.job_updCore]
  simp only [Dev.markStart, fetched]
  split
  · exact ⟨j.start, j.emberFrom, job⟩
  · rw [Dev.job_updJob_self, Dev.fetched, Dev.job_updCore, job]
    exact ⟨_, _, rfl⟩

/-- On the lead core of a PRESOLVING job whose measurement is delivered, the decision is taken in the issue. -/
theorem issueAccept_decides (can : CanIssue d n q [.p a] j p) (hj : d.coreJob n = some (k, j)) (hp : j.st = .presolving) (hl : (d.core n).idx = 0)
    (hd : j.delivered = true) (he : d.expired j = false) : ∃ e j', issueAccept n q a d =
      ((if (d.core n).getP a then e.commitRun k j' else e.squash k j').cycle n).peakUp ∧ Outside d e n ∧ (e.core n).ops = (d.core n).ops ∧
      e.job k = some j' ∧ j'.cores = j.cores ∧ j'.prog = j.prog ∧ j'.squashed = j.squashed := by
  obtain ⟨hk, -⟩ := Dev.coreJob_spec hj
  obtain ⟨t, f, job⟩ := Dev.job_issuedFrom (p := p) hj
  have outside := Outside.issuedFrom d n p
  refine ⟨d.issuedFrom n p, { j with start := t, emberFrom := f }, ?_, outside, ?_, job, rfl, rfl, rfl⟩
  · have early : (d.issuedFrom n p).expired { j with start := t, emberFrom := f } = false := by
      rw [← he, Dev.expired, Dev.now, outside.glb]
      rfl
    have act (il : Nat) (e : Dev) : (planAccept a (d.core n) j).act il e = e.accept k ((d.core n).getP a) := by
      simp only [planAccept, hp, hl, hk, decide_true, Bool.and_self, if_true]
    rw [issueAccept_eq can fun _ => ⟨hl, hd⟩, act]
    simp only [Dev.accept, job, early, Bool.false_eq_true, if_false]
  · rw [Dev.core_issuedFrom, ((d.core n).issued_issuedFrom p).kept.ops]

end

/-! ### The passing of a CCLK on the cores of a set -/

/-- What a CCLK keeps of every core, it keeps of the cores of a set. -/
theorem Dev.cores_cycle {P : Core → Prop} (hP : ∀ c, P c → P c.cycle.settled) {d : Dev} (n : Nat) {m : Nat} (h : P (d.core m)) :
    P (((d.cycle n).peakUp).core m) := by
  rw [Dev.core_peakUp]
  by_cases hm : m = n
  · rw [hm, Dev.core_cycle]
    exact hP _ (hm ▸ h)
  · rwa [(Outside.cycle d n).cores m hm]

theorem Core.cycle_run (c : Core) : c.cycle.settled.run = c.run := by
  change c.cycle.run = c.run
  unfold Core.cycle
  split <;> rfl

theorem Core.cycle_flip (c : Core) : c.cycle.settled.rows.flip = c.rows.flip := by
  change c.cycle.rows.flip = c.rows.flip
  unfold Core.cycle Core.rowCycle
  split <;> simp only <;> split <;> rfl

theorem Core.cycle_x (c : Core) : c.cycle.settled.regs.x = c.regs.x := by
  change c.cycle.regs.x = c.regs.x
  unfold Core.cycle
  split <;> rfl

theorem Core.cycle_shd {c : Core} (h : c.rows.shd = []) : c.cycle.settled.rows.shd = [] := by
  change c.cycle.rows.shd = []
  unfold Core.cycle Core.rowCycle
  split <;> simp only <;> split
  · rfl
  · exact h
  · rfl
  · exact h

/-- A CCLK changes latencies and leases of the operations in flight, not what they do. -/
theorem Core.cycle_ops (c : Core) : ∃ f : Op → Op, c.cycle.settled.ops = c.ops.map f ∧ ∀ o, (f o).versioned = o.versioned := by
  have same (o : Op) : o.endLease.versioned = o.versioned := by unfold Op.endLease; split <;> rfl
  by_cases h : c.dbg.halted
  · refine ⟨Op.endLease, ?_, same⟩
    change c.cycle.ops.map _ = _
    rw [Core.cycle, if_pos h]
    rfl
  · refine ⟨Op.passed, ?_, fun o => same o.ticked⟩
    change c.cycle.ops.map _ = _
    rw [Core.cycle, if_neg h]
    exact List.map_map

/-! ### The states a decision leaves -/

/-- What holds of a core that a squash has stopped (R473). -/
def Core.Squashed (c : Core) : Prop := c.run = false ∧ ∀ o ∈ c.ops, o.versioned = true

/-- What holds of a core that stands as at a start (Table 13-5). -/
structure Core.Fresh (c : Core) : Prop where
  ops : c.ops = []
  shd : c.rows.shd = []
  x : c.regs.x = []

/-- No write to a versioned row is in flight on the core. -/
def Core.Plain (c : Core) : Prop := ∀ o ∈ c.ops, o.versioned = false

theorem Core.Fresh.getX {c : Core} (h : c.Fresh) (r : Nat) : c.getX r = 0 := by
  simp only [Core.getX, h.x, SMap.get, ite_self]

theorem Core.Fresh.plain {c : Core} (h : c.Fresh) : c.Plain := by
  simp only [Core.Plain, h.ops, List.not_mem_nil, false_implies, implies_true]

theorem Core.Squashed.cycle {c : Core} (h : c.Squashed) : c.cycle.settled.Squashed := by
  obtain ⟨run, ops⟩ := h
  obtain ⟨f, cycled, same⟩ := c.cycle_ops
  refine ⟨c.cycle_run.trans run, fun o ho => ?_⟩
  rw [cycled] at ho
  obtain ⟨o', mem, rfl⟩ := List.mem_map.mp ho
  exact (same o').trans (ops o' mem)

theorem Core.Fresh.cycle {c : Core} (h : c.Fresh) : c.cycle.settled.Fresh := by
  obtain ⟨f, cycled, -⟩ := c.cycle_ops
  exact ⟨by rw [cycled, h.ops, List.map_nil], Core.cycle_shd h.shd, c.cycle_x.trans h.x⟩

theorem Core.Fresh.startRun (c : Core) (p : Prog) (t prog n : Nat) : (c.startRun p t prog n).Fresh := ⟨rfl, rfl, rfl⟩

theorem Core.Squashed.start (c : Core) (p : Prog) (j : Job) : (c.squashStop.squashStart p j).Squashed := by
  unfold Core.squashStart
  split
  · exact ⟨rfl, fun o ho => absurd ho List.not_mem_nil⟩
  · exact ⟨rfl, fun o ho => (List.mem_filter.mp ho).2⟩

theorem Core.Plain.start {c : Core} (h : c.Plain) (p : Prog) (j : Job) : (c.squashStop.squashStart p j).Fresh := by
  have none : c.squashStop.ops.any Op.versioned = false :=
    List.any_eq_false.mpr fun o ho => by simp [h o (List.mem_filter.mp ho).1]
  have drop : c.squashStop.rows.drop = true := rfl
  rw [Core.squashStart, drop, none]
  exact .startRun ..

theorem Dev.fresh_squash {ns : List Nat} {m : Nat} (hm : m ∈ ns) (p : Prog) (j : Job) {d : Dev} (h : (d.core m).Plain) :
    ((d.updCores ns fun c => c.squashStop.squashStart p j).core m).Fresh := by
  induction ns generalizing d with
  | nil => exact absurd hm List.not_mem_nil
  | cons n ns ih =>
    rw [Dev.updCores_cons]
    by_cases hns : m ∈ ns
    · refine ih hns ?_
      rw [Dev.core_updCore]
      split
      · next hn => exact ((hn ▸ h).start p j).plain
      · exact h
    · obtain rfl : m = n := (List.mem_cons.mp hm).resolve_right hns
      rw [Dev.core_updCores_of_notMem _ _ hns, Dev.core_updCore_self]
      exact h.start p j

section
variable {d : Dev} {k : Nat} {j : Job}

/-- A commit makes the run one of RUNNING, and its cores flip (R548, R472). -/
theorem Dev.commitRun_spec (hj : d.job k = some j) :
    (∃ j', (d.commitRun k j).job k = some j' ∧ j'.st = .running ∧ j'.accepted = true ∧ j'.squashed = j.squashed) ∧
    (∀ m ∈ j.cores, ((d.commitRun k j).core m).rows.flip = true) ∧ (d.commitRun k j).mem = d.mem := by
  refine ⟨?_, fun m hm => ?_, ?_⟩
  · rw [Dev.commitRun, Dev.job_trace, Dev.job_updCores, Dev.job_updJob_self, hj]
    exact ⟨_, rfl, rfl, rfl, rfl⟩
  · rw [Dev.commitRun, Dev.core_trace]
    exact Dev.core_updCores_of_mem (fun c => c.rows.flip = true) (fun _ => rfl) _ hm
  · rw [Dev.commitRun, Dev.trace_mem, Dev.updCores_mem, Dev.updJob_mem]

/-- A squash leaves a run to be done again: its cores stand, those without a write to a versioned row as at a start (R473, Table 13-5). -/
theorem Dev.squash_spec {p : Prog} (hj : d.job k = some j) (hp : d.prog j.prog = some p) :
    (∃ j', (d.squash k j).job k = some j' ∧ j'.st = .running ∧ j'.squashed = true ∧ j'.loading = true ∧ j'.predicted = false) ∧
    (∀ m ∈ j.cores, ((d.squash k j).core m).Squashed ∧ ((d.core m).Plain → ((d.squash k j).core m).Fresh)) ∧
    (d.squash k j).mem = d.mem := by
  simp only [Dev.squash, hp, Dev.job_trace, Dev.core_trace, Dev.trace_mem, Dev.updJob_mem, Dev.updCores_mem]
  refine ⟨?_, fun m hm => ⟨?_, fun plain => ?_⟩, rfl⟩
  · rw [Dev.job_updJob_self, Dev.job_updCores]
    change ∃ j', (d.job k).map _ = some j' ∧ _
    rw [hj]
    exact ⟨_, rfl, rfl, rfl, rfl, rfl⟩
  · exact Dev.core_updCores_of_mem Core.Squashed (Core.Squashed.start · p j) _ hm
  · exact Dev.fresh_squash hm p j plain

end

/-- Settles O14: outside PRESOLVING spec.accept only issues; on the lead core the issue takes the decision, and the CCLK that passes keeps
what the decision made of the cores. -/
theorem specAccept : Obligations.SpecAccept := by
  unfold Obligations.SpecAccept
  intro s n q a k j p c can hj
  refine ⟨Issues.accept rfl can, fun hp hl hd he => ?_⟩
  obtain ⟨e, j', issue, outside, ops, job, cores, prog, squashed⟩ := issueAccept_decides can hj hp hl hd he
  have mem {t : Dev} (h : t.mem = e.mem) : ((t.cycle n.val).peakUp).mem = s.dev.mem :=
    ((Outside.cycle ..).trans (.peakUp ..)).mem.trans (h.trans outside.mem)
  refine ⟨fun hP => .of_run (f := issueAccept n.val q a.toNat) rfl ?_, fun hP => .of_run (f := issueAccept n.val q a.toNat) rfl ?_⟩
  · rw [issue, if_pos hP]
    obtain ⟨⟨j'', job', st, accepted, same⟩, flip, kept⟩ := Dev.commitRun_spec job
    refine ⟨⟨j'', ?_, st, accepted, same.trans squashed⟩, fun m hm => ?_, mem kept⟩
    · rwa [Dev.job_peakUp, Dev.job_cycle]
    · exact Dev.cores_cycle (P := fun c => c.rows.flip = true) (fun c h => c.cycle_flip.trans h) _ (flip m (cores ▸ hm))
  · rw [issue, if_neg (Bool.eq_false_iff.mp hP)]
    have hprog : e.prog j'.prog = some p := by
      rw [prog, Dev.prog, outside.progs]
      exact can.prog
    obtain ⟨⟨j'', job', st⟩, stand, kept⟩ := Dev.squash_spec job hprog
    refine ⟨⟨j'', ?_, st⟩, fun m hm => ?_, mem kept⟩
    · rwa [Dev.job_peakUp, Dev.job_cycle]
    · obtain ⟨stopped, fresh⟩ := stand m (cores ▸ hm)
      obtain ⟨run, versioned⟩ := Dev.cores_cycle (fun _ => Core.Squashed.cycle) n.val stopped
      refine ⟨run, versioned, fun plain => ?_⟩
      have before : (e.core m).ops = (s.dev.core m).ops := by
        by_cases hmn : m = n.val
        · rw [hmn, ops]
        · rw [outside.cores m hmn]
      have after := Dev.cores_cycle (fun _ => Core.Fresh.cycle) n.val (fresh (by rwa [Core.Plain, before]))
      exact ⟨after.ops, after.shd, after.getX⟩

end Sys2Proof.Machine
end

section
/-!
SUPPORT. The samples of the servo loop: the input check, the outputs that an output instant presents or holds, the snapshot, and the entry into
SAFE (17).
-/
namespace Sys2Proof.Machine

/-! ### Tables and device memory -/

theorem SMap.get_filterMap_range' {α : Type} [DecidableEq α] (d : α) (f : Nat → α) (a n i : Nat) :
    SMap.get d ((List.range' a n).filterMap fun i => if f i = d then none else some (i, f i)) i =
      if a ≤ i ∧ i < a + n then f i else d := by
  induction n generalizing a with
  | zero => rw [if_neg (by omega)]; rfl
  | succ n ih =>
    rw [List.range'_succ, List.filterMap_cons]
    by_cases hi : i = a
    · subst hi
      by_cases hd : f i = d
      · rw [if_pos hd, ih, if_neg (by omega), if_pos (by omega), hd]
      · rw [if_neg hd, SMap.get_cons, if_pos rfl, if_pos (by omega)]
    · have later : (a ≤ i ∧ i < a + (n + 1)) ↔ a + 1 ≤ i ∧ i < a + 1 + n := by omega
      simp only [later]
      by_cases hd : f a = d
      · rw [if_pos hd, ih]
      · rw [if_neg hd, SMap.get_cons, if_neg (Ne.symm hi), ih]
        split
        · rw [if_neg (by omega)]
        · rfl

/-- A key of a table of the values of `f` below `n`. -/
theorem SMap.get_tabulate {α : Type} [DecidableEq α] (d : α) (n : Nat) (f : Nat → α) (i : Nat) :
    SMap.get d (tabulate d n f) i = if i < n then f i else d := by
  rw [tabulate, List.range_eq_range', SMap.get_filterMap_range']
  simp only [Nat.zero_le, true_and, Nat.zero_add]

theorem fitTo_length (n : Nat) (bs : List Byte) : (fitTo n bs).length = n := by
  rw [fitTo, List.length_take, List.length_append, List.length_replicate]
  omega

theorem SMap.get_foldl_set_of_mem {d v : Bool} {l : List Nat} {x : Nat} (h : x ∈ l) (m : SMap Bool) :
    SMap.get d (l.foldl (fun k y => SMap.set d k y v) m) x = v := by
  induction l generalizing m with
  | nil => cases h
  | cons y l ih =>
    rw [List.foldl_cons]
    by_cases hl : x ∈ l
    · exact ih hl _
    · rw [SMap.get_foldl_set_of_notMem hl, (List.mem_cons.mp h).resolve_right hl, SMap.get_set_self]

/-- Stored bytes are what device memory then holds, in every generation of its contents. -/
theorem Mem.placed_poke (m : Mem) (a : Nat) (bs : List Byte) : Placed m (m.poke a bs) a bs := by
  intro x
  split
  case isFalse hx => exact Mem.outside_poke m a bs x hx
  case isTrue hx =>
    have read : Memory.read 0 (m.poke a bs).dram x = bs.getD (x - a) 0 := by rw [Mem.poke, Memory.read_writeL, if_pos hx]
    rw [← read, Mem.byte]
    by_cases hg : m.gen = 0 ∧ m.topGen = 0
    · have gen : (m.poke a bs).gen = 0 := hg.1
      have top : (m.poke a bs).topGen = 0 := hg.2
      rw [gen, top]
      simp
    · have known : SMap.get false (m.poke a bs).known x = true := by
        have hb : (decide (m.gen = 0) && decide (m.topGen = 0)) = false := by simpa using hg
        simp only [Mem.poke, hb, Bool.false_eq_true, if_false]
        exact SMap.get_foldl_set_of_mem (mem_span.mpr hx) _
      rw [known, if_pos rfl]

theorem Dev.placed_write {d : Dev} {a : Nat} {bs : List Byte} (h : d.target a bs.length = .dram) (t : Nat) (det : Bool) :
    Placed d.mem (d.write t det a bs).mem a bs := by
  intro x
  simp only [Dev.write, h, Dev.poke, Mem.byte_countFlits]
  exact Mem.placed_poke d.mem a bs x

/-! ### The input check (R647, R650-R652, R666) -/

section
variable (d : Dev)

/-- The state elements that an input check takes. -/
def Dev.takenX : SMap W32 := tabulate 0 d.sle.cfg.nx (fun i => (d.xIn i).getD ((Config.freeWord (d.free + i)).setWidth 32))

/-- The device with the state elements of its inputs, past the input check. -/
def Dev.taken : Dev :=
  { d with sle := { d.sle with x := d.takenX, tsnNew := [], phase := .checked }, free := d.free + d.sle.cfg.nx }

/-- The sample is declared a miss: its outputs are the previous ones. -/
def Dev.missed (cause : BitVec 3) : Dev :=
  { d with sle := { d.sle with missNow := true, missCause := cause, clamp := [], u := d.sle.uprev } }

/-- The outputs of the sample are computed. -/
def Dev.computed : Dev :=
  { d with sle := { d.sle with z := d.law.1, u := d.law.2.1, clamp := d.law.2.2 } }

/-- Every output that the law gives is finite. -/
def Dev.lawFinite : Bool := (List.range d.sle.cfg.nu).all (fun i => sFinite (SMap.get 0 d.law.2.1 i))

/-- Every source of the loop is present. -/
def Dev.inputsPresent : Prop := ∀ i, i < d.sle.cfg.nx → (d.xIn i).isSome = true

/-- The input check is due: it is that of a running loop that no catch is to seed. -/
structure Dev.CheckDue : Prop where
  running : d.sle.st = .running
  latched : d.sle.phase = .latched
  due : d.sle.cfg.inwin ≤ d.lclk - d.sle.lbound
  seeded : d.sle.catching = false

/-- The inputs have been taken; what the sample computed and whether it is a miss is left free. -/
def InputsTaken (d t : Dev) : Prop :=
  t.sle.phase = .checked ∧ t.sle.tsnNew = [] ∧ t.sle.k = d.sle.k ∧ t.sle.cfg = d.sle.cfg ∧ t.sle.uprev = d.sle.uprev ∧
    (∀ i w, i < d.sle.cfg.nx → d.xIn i = some w → SMap.get 0 t.sle.x i = w) ∧ t.mio = d.mio ∧ t.stk = d.stk ∧ t.cores = d.cores ∧ t.mem = d.mem

/-- The sample is a miss of the cause `cause`: outputs and integrators are held. -/
def MissDeclared (d t : Dev) (cause : BitVec 3) : Prop :=
  t.sle.missNow = true ∧ t.sle.missCause = cause ∧ t.sle.u = d.sle.uprev ∧ t.sle.z = d.sle.z

end

section
variable {d : Dev}

theorem Dev.get_takenX {i : Nat} {w : W32} (hi : i < d.sle.cfg.nx) (hw : d.xIn i = some w) : SMap.get 0 d.takenX i = w := by
  rw [Dev.takenX, SMap.get_tabulate, if_pos hi, hw, Option.getD_some]

theorem Dev.any_absent_iff : (List.range d.sle.cfg.nx).any (fun i => (d.xIn i).isNone) = true ↔ ¬ d.inputsPresent := by
  have here (i : Nat) : (d.xIn i).isNone = true ↔ ¬ (d.xIn i).isSome = true := by
    rw [← Option.not_isSome, Bool.not_eq_true', Bool.not_eq_true]
  simp only [Dev.inputsPresent, List.any_eq_true, List.mem_range, here, Classical.not_forall, exists_prop]

/-- What an input check that is due does: a miss for an input that is not present, for a computation that comes late, or for an output that is
not finite, in this order; else the outputs. -/
theorem Dev.inputCheck_of_due (h : d.CheckDue) (late : Bool) : d.inputCheck late =
    let t := if d.sle.catching then d.taken.seedCatch else d.taken
    if (List.range d.sle.cfg.nx).any (fun i => (d.xIn i).isNone) then t.missed 1
    else if late then (t.errStat 4).missed 4
    else if t.lawFinite then t.computed else t.missed 2 := by
  obtain ⟨running, latched, due, _⟩ := h
  have early : decide (d.cycleNo < d.sle.cfg.inwin) = false := decide_eq_false (Nat.not_lt.mpr due)
  rw [Dev.inputCheck, if_neg (by simp [running, latched, early])]
  rfl

theorem Dev.inputCheck_of_absent (h : d.CheckDue) (absent : ¬ d.inputsPresent) (late : Bool) : d.inputCheck late = d.taken.missed 1 := by
  rw [Dev.inputCheck_of_due h, h.seeded]
  exact if_pos (Dev.any_absent_iff.mpr absent)

theorem Dev.inputCheck_of_present (h : d.CheckDue) (present : d.inputsPresent) (late : Bool) : d.inputCheck late =
    if late then (d.taken.errStat 4).missed 4 else if d.taken.lawFinite then d.taken.computed else d.taken.missed 2 := by
  rw [Dev.inputCheck_of_due h, h.seeded]
  exact if_neg fun a => Dev.any_absent_iff.mp a present

theorem Dev.inputsTaken_taken : InputsTaken d d.taken :=
  ⟨rfl, rfl, rfl, rfl, rfl, fun _ _ => Dev.get_takenX, rfl, rfl, rfl, rfl⟩

theorem InputsTaken.missed {t : Dev} (h : InputsTaken d t) (cause : BitVec 3) : InputsTaken d (t.missed cause) := h
theorem InputsTaken.computed {t : Dev} (h : InputsTaken d t) : InputsTaken d t.computed := h
theorem InputsTaken.errStat {t : Dev} (h : InputsTaken d t) (c : Nat) : InputsTaken d (t.errStat c) := by
  rw [Dev.errStat_eq]
  exact h

theorem Dev.missDeclared_taken (cause : BitVec 3) : MissDeclared d (d.taken.missed cause) cause := ⟨rfl, rfl, rfl, rfl⟩

theorem Dev.missDeclared_late : MissDeclared d ((d.taken.errStat 4).missed 4) 4 := by
  rw [Dev.errStat_eq]
  exact Dev.missDeclared_taken 4

theorem Dev.errStat_sets (d : Dev) {c : Nat} (hc : c < 7) : (d.errStat c).err.stat.getLsbD c = true := by
  rw [Dev.errStat_eq]
  simp [hc]

end

/-! ### The outputs of a sample (R653, R667) -/

/-- Present the new value of one output. -/
def Dev.newOut (d : Dev) (x : Nat × OutEnt) : Dev :=
  let v := x.2.rawOut (SMap.get 0 d.sle.u x.1)
  { d with sle := { d.sle with raw := SMap.set 0 d.sle.raw x.1 v } }.present x.2 v

/-- An output at its destination changes Motion I/O only. -/
theorem Dev.present_eq (d : Dev) (e : OutEnt) (v : Int) : ∃ m, d.present e v = { d with mio := m } := by
  unfold Dev.present
  split <;> exact ⟨_, rfl⟩

theorem Dev.foldl_newOut {g : Nat → Int} {l : List (Nat × OutEnt)} {d : Dev} (hg : ∀ x ∈ l, x.2.rawOut (SMap.get 0 d.sle.u x.1) = g x.1) :
    ∃ r m, l.foldl Dev.newOut d = { d with sle := { d.sle with raw := r }, mio := m } ∧
      ∀ k, SMap.get 0 r k = if k ∈ l.map Prod.fst then g k else SMap.get 0 d.sle.raw k := by
  induction l generalizing d with
  | nil => exact ⟨_, _, rfl, fun _ => rfl⟩
  | cons x l ih =>
    obtain ⟨m, first⟩ : ∃ m, d.newOut x = { d with sle := { d.sle with raw := SMap.set 0 d.sle.raw x.1 (g x.1) }, mio := m } := by
      rw [← hg x List.mem_cons_self]
      exact Dev.present_eq _ _ _
    obtain ⟨r, m', rest, hr⟩ := ih (d := d.newOut x) (by rw [first]; exact fun y hy => hg y (List.mem_cons_of_mem x hy))
    refine ⟨r, m', by rw [List.foldl_cons, rest, first], fun k => ?_⟩
    rw [hr, first, SMap.get_set]
    simp only [List.map_cons, List.mem_cons]
    by_cases hk : k = x.1
    · simp only [hk, if_true, ite_self, true_or]
    · simp only [hk, if_false, false_or]

/-- An entry of the mapped outputs is the OUTMAP entry of its number. -/
theorem Dev.eq_outmap_of_mem_mappedOuts {d : Dev} {x : Nat × OutEnt} (h : x ∈ d.mappedOuts) : x.2 = SMap.get {} d.sle.cfg.outmap x.1 := by
  obtain ⟨i, _, rfl⟩ := List.mem_map.mp (List.mem_filter.mp h).1
  rfl

/-- New outputs change the raw outputs and Motion I/O; each mapped output has its new raw value. -/
theorem Dev.newOuts_eq (d : Dev) : ∃ r m, d.newOuts = { d with sle := { d.sle with raw := r }, mio := m } ∧
    ∀ x ∈ d.mappedOuts, SMap.get 0 r x.1 = x.2.rawOut (SMap.get 0 d.sle.u x.1) := by
  obtain ⟨r, m, eq, hr⟩ := Dev.foldl_newOut (g := fun i => (SMap.get {} d.sle.cfg.outmap i).rawOut (SMap.get 0 d.sle.u i)) (l := d.mappedOuts)
    (d := d) fun x hx => by rw [Dev.eq_outmap_of_mem_mappedOuts hx]
  refine ⟨r, m, eq, fun x hx => ?_⟩
  rw [hr, if_pos (List.mem_map_of_mem hx), Dev.eq_outmap_of_mem_mappedOuts hx]

/-- A counted miss sets MISS and advances both counts, and changes what a trace entry and a raised vector change. -/
theorem Dev.countMiss_eq (d : Dev) : ∃ g p o, d.countMiss =
    { d with sle := { d.sle with miss := true, missCnt := satInc d.sle.missCnt, consec := d.sle.consec + 1 }, dbg := g, pcie := p, out := o } := by
  simp only [Dev.countMiss]
  rw [Dev.trace_eq]
  split
  · exact ⟨_, _, _, Dev.raiseVec_eq ..⟩
  · exact ⟨_, _, _, rfl⟩

/-- A cyclic frame of an output stream changes the streams, the queues of the Ethernet ports and the free values drawn. -/
theorem Dev.cyclicOut_eq (safe : Bool) (t : Nat) (d : Dev) (s : Nat) :
    ∃ n e k, d.cyclicOut safe t s = { d with net := n, eths := e, free := k } := by
  dsimp only [Dev.cyclicOut]
  split <;> exact ⟨_, _, _, rfl⟩

theorem Dev.cyclicOuts_eq (d : Dev) (safe : Bool) (t : Nat) : ∃ n e k, d.cyclicOuts safe t = { d with net := n, eths := e, free := k } := by
  refine List.foldlRecOn (motive := fun x => ∃ n e k, x = { d with net := n, eths := e, free := k }) _ _ ⟨d.net, d.eths, d.free, rfl⟩ ?_
  rintro _ ⟨n, e, k, rfl⟩ s _
  exact Dev.cyclicOut_eq ..

/-! ### The output instant up to its cyclic frames (R664, R665) -/

/-- The new outputs of a sample that is no miss. -/
def Dev.sampleOuts (d : Dev) : Dev := { d.newOuts with sle := { d.newOuts.sle with uprev := d.newOuts.sle.u, consec := 0 } }

/-- The snapshot of a sample is written. -/
def Dev.writeSnapshot (c : SleCfg) (d : Dev) : Dev :=
  if c.links then d.write ((c.cmt.bind d.ownerOf).getD 0) false (c.snapBase + d.sle.k.toNat % 16 * 512) d.sle.snapshot else d

/-- The sample ends with its snapshot; the ADD to SAMPCTR and the DAC codes are due. -/
def Dev.endSample (c : SleCfg) (d : Dev) : Dev :=
  let t := d.writeSnapshot c
  { t with sle := { t.sle with
      phase := .idle
      dacDue := some (t.sle.lbound + c.outinst + 4)
      sampDue := t.sle.sampDue ++ (if t.sle.k.toNat % c.sampDiv = 0 then c.samp.toList else []) } }

/-- The snapshot of the sample stands in device memory where the links lead there; a loop without links writes nothing. -/
def SnapshotWritten (d t : Dev) : Prop :=
  (d.sle.cfg.links = true → d.target (d.sle.cfg.snapBase + d.sle.k.toNat % 16 * 512) 512 = .dram →
    Placed d.mem t.mem (d.sle.cfg.snapBase + d.sle.k.toNat % 16 * 512) d.sle.snapshot) ∧
  (d.sle.cfg.links = false → t.mem = d.mem)

theorem Sle.snapshot_length (s : Sle) : s.snapshot.length = 512 := fitTo_length ..

theorem Dev.snapshotWritten_writeSnapshot (d : Dev) : SnapshotWritten d (d.writeSnapshot d.sle.cfg) := by
  unfold Dev.writeSnapshot
  refine ⟨fun links dram => ?_, fun links => ?_⟩
  · rw [if_pos links]
    exact Dev.placed_write (by rwa [d.sle.snapshot_length]) _ _
  · rw [if_neg (links ▸ Bool.false_ne_true)]

theorem Dev.writeSnapshot_eq (c : SleCfg) (d : Dev) : ∃ m n p o, d.writeSnapshot c = { d with mem := m, cores := n, pcie := p, out := o } := by
  unfold Dev.writeSnapshot
  split
  · exact ⟨_, _, _, _, Dev.write_eq ..⟩
  · exact ⟨_, _, _, _, rfl⟩

theorem Dev.endSample_eq (d : Dev) : ∃ m n p o, d.endSample d.sle.cfg =
      { d with
        sle := { d.sle with
          phase := .idle
          dacDue := some (d.sle.lbound + d.sle.cfg.outinst + 4)
          sampDue := d.sle.sampDue ++ (if d.sle.k.toNat % d.sle.cfg.sampDiv = 0 then d.sle.cfg.samp.toList else []) }
        mem := m
        cores := n
        pcie := p
        out := o } ∧ SnapshotWritten d { d with mem := m } := by
  have snap := d.snapshotWritten_writeSnapshot
  obtain ⟨m, n, p, o, eq⟩ := d.writeSnapshot_eq d.sle.cfg
  rw [eq] at snap
  exact ⟨m, n, p, o, by rw [Dev.endSample, eq], snap⟩

/-- The output instant is due in a running loop whose inputs have been checked. -/
structure Dev.OutputDue (d : Dev) : Prop where
  running : d.sle.st = .running
  checked : d.sle.phase = .checked
  due : d.sle.cfg.outinst ≤ d.lclk - d.sle.lbound

/-- What an output instant that is due does: new or held outputs and the end of the sample; then SAFE after MISSLIM misses, or cyclic frames. -/
theorem Dev.outputInstant_of_due {d : Dev} (h : d.OutputDue) :
    let t := (if d.sle.missNow then d.countMiss else d.sampleOuts).endSample d.sle.cfg
    ∃ n e k, d.outputInstant = if t.sle.missNow && decide (d.sle.cfg.missLim ≤ t.sle.consec) then t.enterSafe 1 4
      else { t with net := n, eths := e, free := k } := by
  obtain ⟨running, checked, due⟩ := h
  have early : decide (d.cycleNo < d.sle.cfg.outinst) = false := decide_eq_false (Nat.not_lt.mpr due)
  intro t
  obtain ⟨n, e, k, frames⟩ := t.cyclicOuts_eq false (t.now + 4 / t.fuse.grade.perTick)
  refine ⟨n, e, k, ?_⟩
  rw [← frames, Dev.outputInstant, if_neg (by simp [running, checked, early])]
  rfl

/-! ### Into SAFE (R637, R668) -/

/-- The Stoker, the state of the loop and its count of misses are unchanged. -/
structure LoopKept (d t : Dev) : Prop where
  stk : t.stk = d.stk
  st : t.sle.st = d.sle.st
  missCnt : t.sle.missCnt = d.sle.missCnt

theorem LoopKept.refl (d : Dev) : LoopKept d d := ⟨rfl, rfl, rfl⟩

theorem LoopKept.trans {d t u : Dev} (h : LoopKept d t) (g : LoopKept t u) : LoopKept d u :=
  ⟨g.stk.trans h.stk, g.st.trans h.st, g.missCnt.trans h.missCnt⟩

theorem LoopKept.foldl {α : Type} {f : Dev → α → Dev} (h : ∀ d x, LoopKept d (f d x)) (l : List α) (d : Dev) : LoopKept d (l.foldl f d) :=
  List.foldlRecOn (motive := LoopKept d) l f (.refl d) fun t kept x _ => kept.trans (h t x)

section
variable (d : Dev)

theorem LoopKept.ackLoad : LoopKept d d.ackLoad := by
  unfold Dev.ackLoad
  split
  · exact .refl _
  · dsimp only
    split <;> exact ⟨rfl, rfl, rfl⟩

theorem LoopKept.finishDef (p : DefOp → Bool) (status : Nat) (payload : List Byte) : LoopKept d (d.finishDef p status payload) := by
  unfold Dev.finishDef
  split
  · exact .refl _
  · unfold Dev.queueAsync
    split <;> exact ⟨rfl, rfl, rfl⟩

theorem LoopKept.homeEnd (a outcome : Nat) (pos : W32) : LoopKept d (d.homeEnd a outcome pos) := by
  unfold Dev.homeEnd
  refine .trans ?_ (.finishDef ..)
  exact ⟨rfl, rfl, rfl⟩

theorem LoopKept.homeAbort (outcome a : Nat) : LoopKept d (d.homeAbort outcome a) := by
  unfold Dev.homeAbort
  split
  · exact LoopKept.homeEnd ..
  · exact .refl _

theorem LoopKept.storeRecord (type : Nat) (data : Option (List Byte)) (ok : Bool) : LoopKept d (d.storeRecord type data ok).2 := by
  unfold Dev.storeRecord
  dsimp only
  split
  · exact ⟨rfl, rfl, rfl⟩
  · rw [Dev.record_eq _ (by simp)]
    exact ⟨rfl, rfl, rfl⟩

theorem LoopKept.installSet (c : SleCfg) (store : Bool) : LoopKept d (d.installSet c store) := by
  unfold Dev.installSet
  have installed : LoopKept d { d with sle := d.sle.install c } := ⟨rfl, rfl, rfl⟩
  dsimp only
  split
  · exact installed.trans (.storeRecord ..)
  · exact installed

theorem LoopKept.safeOut (x : Nat × OutEnt) : LoopKept d (d.safeOut x) := by
  unfold Dev.safeOut
  dsimp only
  split <;> exact ⟨rfl, rfl, rfl⟩

theorem LoopKept.safeOutFrames : LoopKept d d.safeOutFrames := by
  obtain ⟨n, e, k, eq⟩ := Dev.cyclicOuts_eq { d with net := { d.net with safeAt := d.glb.ticks } } true d.now
  rw [Dev.safeOutFrames, eq]
  exact ⟨rfl, rfl, rfl⟩

theorem LoopKept.safeOuts : LoopKept d d.safeOuts := .foldl LoopKept.safeOut ..

/-- The runs of the axes are aborted as the loop leaves RUNNING. -/
def Dev.runsAborted (outcome : Nat) : Dev := (List.range 8).foldl (Dev.homeAbort outcome) d.ackLoad

/-- The sample is given up, and the loop is in state `st`. -/
def Dev.sampleGivenUp (st : SleState) : Dev :=
  { d with sle := { d.sle with st := st, phase := .idle, dacDue := none, first := false, catching := false } }

theorem LoopKept.runsAborted (outcome : Nat) : LoopKept d (d.runsAborted outcome) :=
  (LoopKept.ackLoad d).trans (.foldl (fun t => LoopKept.homeAbort t outcome) ..)

theorem LoopKept.sleLeave (st : SleState) (outcome : Nat) :
    LoopKept ((d.runsAborted outcome).sampleGivenUp st) (d.sleLeave st outcome) := by
  unfold Dev.sleLeave Dev.runsAborted
  generalize (List.range 8).foldl (Dev.homeAbort outcome) d.ackLoad = t
  refine .trans (.trans ?_ (.safeOuts _)) (.safeOutFrames _)
  split
  · exact .installSet ..
  · exact .refl _

/-- The loop leaves RUNNING for `st`: its count of misses stays. -/
theorem Dev.sleLeave_spec (st : SleState) (outcome : Nat) :
    (d.sleLeave st outcome).stk = d.stk ∧ (d.sleLeave st outcome).sle.st = st ∧ (d.sleLeave st outcome).sle.missCnt = d.sle.missCnt := by
  have aborted := LoopKept.runsAborted d outcome
  have left := LoopKept.sleLeave d st outcome
  generalize d.runsAborted outcome = t at *
  exact ⟨left.stk.trans aborted.stk, left.st, left.missCnt.trans aborted.missCnt⟩

end

/-- A running loop that enters SAFE: SAFEENT rises with the cause, and what was counted stays. -/
theorem Dev.enterSafe_spec {d : Dev} (h : d.sle.st = .running) (cause outcome : Nat) :
    let t := d.enterSafe cause outcome
    t.sle.st = .safe ∧ t.sle.safeEnt = true ∧ t.sle.safeCause = BitVec.ofNat 2 cause ∧ t.sle.missCnt = d.sle.missCnt ∧ t.stk = d.stk := by
  obtain ⟨stk, st, cnt⟩ := d.sleLeave_spec .safe outcome
  rw [Dev.enterSafe, if_neg (fun leaves => leaves h)]
  generalize d.sleLeave .safe outcome = t at *
  dsimp only
  split
  · rw [Dev.raiseVec_eq]
    exact ⟨st, rfl, rfl, cnt, stk⟩
  · exact ⟨st, rfl, rfl, cnt, stk⟩

/-! ### Samples and misses -/

/-- A sample that is a miss has ended: the miss is counted and the outputs are held (R664, R667). -/
structure MissCounted (d t : Dev) : Prop where
  st : t.sle.st = .running
  phase : t.sle.phase = .idle
  miss : t.sle.miss = true
  missCnt : t.sle.missCnt = satInc d.sle.missCnt
  consec : t.sle.consec = d.sle.consec + 1
  raw : t.sle.raw = d.sle.raw
  uprev : t.sle.uprev = d.sle.uprev
  mio : t.mio = d.mio
  snap : SnapshotWritten d t
  missNow : t.sle.missNow = d.sle.missNow
  stk : t.stk = d.stk

section
variable {d : Dev} (h : d.OutputDue)
include h

/-- An output instant of a sample that is no miss presents the new outputs (R653, R664, R665, R667). -/
theorem Dev.outputInstant_of_computed (hm : d.sle.missNow = false) :
    let t := d.outputInstant
    t.sle.st = .running ∧ t.sle.phase = .idle ∧ t.sle.uprev = d.sle.u ∧ t.sle.consec = 0 ∧
      t.sle.dacDue = some (d.sle.lbound + d.sle.cfg.outinst + 4) ∧
      t.sle.sampDue = d.sle.sampDue ++ (if d.sle.k.toNat % d.sle.cfg.sampDiv = 0 then d.sle.cfg.samp.toList else []) ∧
      (∀ x ∈ d.mappedOuts, SMap.get 0 t.sle.raw x.1 = x.2.rawOut (SMap.get 0 d.sle.u x.1)) ∧
      t.sle.missCnt = d.sle.missCnt ∧ t.stk = d.stk ∧ SnapshotWritten d t := by
  obtain ⟨r, mio, outs, raw⟩ := d.newOuts_eq
  obtain ⟨m, n, p, o, ended, snap⟩ := d.sampleOuts.endSample_eq
  obtain ⟨net, e, k, eq⟩ := Dev.outputInstant_of_due h
  have presented : d.sampleOuts = { d with sle := { d.sle with raw := r, uprev := d.sle.u, consec := 0 }, mio := mio } := by
    rw [Dev.sampleOuts, outs]
  rw [presented] at ended snap
  rw [hm, if_neg Bool.false_ne_true, presented, ended] at eq
  dsimp only at eq
  rw [hm, Bool.false_and, if_neg Bool.false_ne_true] at eq
  rw [eq]
  exact ⟨h.running, rfl, rfl, rfl, rfl, rfl, raw, rfl, rfl, snap⟩

theorem Dev.missCounted_endSample : MissCounted d (d.countMiss.endSample d.sle.cfg) := by
  obtain ⟨g, p, o, counted⟩ := d.countMiss_eq
  obtain ⟨m, n, p', o', ended, snap⟩ := d.countMiss.endSample_eq
  rw [counted] at ended snap
  rw [counted, ended]
  exact ⟨h.running, rfl, rfl, rfl, rfl, rfl, rfl, rfl, snap, rfl, rfl⟩

/-- An output instant of a sample that is a miss counts it; after MISSLIM of them in a row the loop enters SAFE (R668). -/
theorem Dev.outputInstant_of_miss (hm : d.sle.missNow = true) : ∃ t n e k, MissCounted d t ∧
    d.outputInstant = if d.sle.cfg.missLim ≤ d.sle.consec + 1 then t.enterSafe 1 4 else { t with net := n, eths := e, free := k } := by
  have counted := Dev.missCounted_endSample h
  obtain ⟨n, e, k, eq⟩ := Dev.outputInstant_of_due h
  rw [if_pos hm, counted.missNow, hm, counted.consec, Bool.true_and] at eq
  simp only [decide_eq_true_eq] at eq
  exact ⟨_, n, e, k, counted, eq⟩

end

/-- Settles O51: the input check takes the inputs and computes or declares the miss; the output instant presents, or counts the miss and holds, and
enters SAFE where the count reaches MISSLIM. -/
theorem samplesAndMisses : Obligations.SamplesAndMisses := by
  unfold Obligations.SamplesAndMisses
  intro s d l present Base Miss a Snap
  refine ⟨fun running latched due seeded => ?_, fun running checked due => ?_⟩
  · have h : d.CheckDue := ⟨running, latched, due, seeded⟩
    have gives {late : Bool} {t : Dev} {P : Dev → Prop} (eq : d.inputCheck late = t) (hp : P t) : Gives (.inputCheck late) s P :=
      .of_run (f := (Dev.inputCheck · late)) rfl (eq ▸ hp)
    have taken : InputsTaken d d.taken := Dev.inputsTaken_taken
    refine ⟨fun late absent => ?_, fun present => ?_, fun present => ⟨d.takenX, fun _ _ => Dev.get_takenX, fun finite => ?_, fun finite => ?_⟩⟩
    · exact gives (Dev.inputCheck_of_absent h absent late) ⟨taken.missed 1, Dev.missDeclared_taken 1⟩
    · exact gives (Dev.inputCheck_of_present h present true)
        ⟨(taken.errStat 4).missed 4, Dev.missDeclared_late, d.taken.errStat_sets (by decide)⟩
    · have lawFinite : d.taken.lawFinite = true := finite
      exact gives (Dev.inputCheck_of_present h present false) <| by
        rw [if_neg Bool.false_ne_true, if_pos lawFinite]
        exact ⟨taken.computed, rfl, rfl, rfl, rfl, rfl⟩
    · have lawFinite : d.taken.lawFinite = false := finite
      exact gives (Dev.inputCheck_of_present h present false) <| by
        rw [if_neg Bool.false_ne_true, lawFinite, if_neg Bool.false_ne_true]
        exact ⟨taken.missed 2, Dev.missDeclared_taken 2⟩
  · have h : d.OutputDue := ⟨running, checked, due⟩
    have gives {P : Dev → Prop} (hp : P d.outputInstant) : Gives .outputInstant s P := .of_run (f := Dev.outputInstant) rfl hp
    refine ⟨fun hm => gives (Dev.outputInstant_of_computed h hm), fun hm below => gives ?_, fun hm reached => gives ?_⟩
    · obtain ⟨t, n, e, k, counted, eq⟩ := Dev.outputInstant_of_miss h hm
      rw [eq, if_neg (Nat.not_le.mpr below)]
      exact ⟨counted.st, counted.phase, counted.miss, counted.missCnt, counted.consec, counted.raw, counted.uprev, counted.mio, counted.snap⟩
    · obtain ⟨t, n, e, k, counted, eq⟩ := Dev.outputInstant_of_miss h hm
      obtain ⟨safe, entered, cause, kept, same⟩ := Dev.enterSafe_spec counted.st 1 4
      rw [eq, if_pos reached]
      exact ⟨safe, entered, cause, kept.trans counted.missCnt, same.trans counted.stk⟩

end Sys2Proof.Machine
end

section
/-!
SUPPORT. Motion I/O: what the encoders, the converters and the outputs do at their instants, what an input takes on and what its accepted level
brings about, and the SAFE frames of a loop that does not run (18).
-/
namespace Sys2Proof.Machine

/-! ### Encoders (R679-R682, R703) -/

@[simp] theorem Dev.enc_updEnc_self (d : Dev) (c : Nat) (f : Enc → Enc) : (d.updEnc c f).enc c = f (d.enc c) := SMap.get_upd_self ..

theorem Dev.enc_updEnc_ne (d : Dev) {c k : Nat} (f : Enc → Enc) (h : k ≠ c) : (d.updEnc c f).enc k = d.enc k := SMap.get_upd_ne _ _ _ _ h

@[simp] theorem Dev.home_updHome_self (d : Dev) (a : Nat) (f : Home → Home) : (d.updHome a f).home a = f (d.home a) := SMap.get_upd_self ..

theorem Dev.home_updHome_ne (d : Dev) {a k : Nat} (f : Home → Home) (h : k ≠ a) : (d.updHome a f).home k = d.home k :=
  SMap.get_upd_ne _ _ _ _ h

/-- Of the device only encoder `c` has changed, and `P` holds of it. -/
def EncIs (d t : Dev) (c : Nat) (P : Enc → Prop) : Prop :=
  t = { d with mio := { d.mio with encs := t.mio.encs } } ∧ P (t.enc c) ∧ ∀ k, k ≠ c → t.enc k = d.enc k

theorem EncIs.refl (d : Dev) (c : Nat) : EncIs d d c (· = d.enc c) := ⟨rfl, rfl, fun _ _ => rfl⟩

theorem EncIs.updEnc {d t : Dev} {c : Nat} {P Q : Enc → Prop} {f : Enc → Enc} (h : EncIs d t c P) (hq : ∀ e, P e → Q (f e)) :
    EncIs d (t.updEnc c f) c Q := by
  obtain ⟨same, hp, others⟩ := h
  refine ⟨?_, by rw [Dev.enc_updEnc_self]; exact hq _ hp, fun k hk => (Dev.enc_updEnc_ne t f hk).trans (others k hk)⟩
  rw [same]
  rfl

/-- An edge that leads to the levels `a` and `b` counts up (R680). -/
def Enc.upward (e : Enc) (a b : Bool) : Bool := ((if a ≠ e.a then a != e.b else b == e.a) == Config.countsUp) != e.dirInv

section
variable {d : Dev} {c : Nat} {a b : Bool}

theorem Dev.quadrature_of_edge (hm : (d.enc c).mode = 1) (h : xor (a != (d.enc c).a) (b != (d.enc c).b) = true) :
    d.quadrature c a b = (d.updEnc c fun e => { e with a := a, b := b }).updEnc c fun e =>
      e.setCount d.lclk (if (d.enc c).upward a b then e.count + 1 else e.count - 1) := by
  have one : (a != (d.enc c).a || b != (d.enc c).b) = true ∧ (a != (d.enc c).a && b != (d.enc c).b) = false := by
    revert h
    cases a != (d.enc c).a <;> cases b != (d.enc c).b <;> decide
  obtain ⟨some, both⟩ := one
  simp only [Dev.quadrature, hm, some, both, Enc.upward, bne_iff_ne]
  rfl

theorem Dev.quadrature_of_both (hm : (d.enc c).mode = 1) (ha : a ≠ (d.enc c).a) (hb : b ≠ (d.enc c).b) :
    d.quadrature c a b = { d.updEnc c (fun e => { e with a := a, b := b }) with
      mio := { (d.updEnc c fun e => { e with a := a, b := b }).mio with encErr := d.mio.encErr ||| (1#8 <<< c) } } := by
  simp only [Dev.quadrature, hm, bne_iff_ne.mpr ha, bne_iff_ne.mpr hb]
  rfl

theorem Dev.quadrature_of_still (ha : a = (d.enc c).a) (hb : b = (d.enc c).b) :
    d.quadrature c a b = d.updEnc c fun e => { e with a := a, b := b } := by
  subst ha hb
  simp only [Dev.quadrature, bne_self_eq_false, Bool.or_self, Bool.not_false, Bool.or_true, if_true]

/-- An edge of one signal counts by one in its direction. -/
theorem Dev.encIs_quadrature_edge (hm : (d.enc c).mode = 1) (h : xor (a != (d.enc c).a) (b != (d.enc c).b) = true) :
    EncIs d (d.quadrature c a b) c fun y => y.a = a ∧ y.b = b ∧
      y.count = if (d.enc c).upward a b then (d.enc c).count + 1 else (d.enc c).count - 1 := by
  rw [Dev.quadrature_of_edge hm h]
  have levels : EncIs d (d.updEnc c fun e => { e with a := a, b := b }) c (· = { d.enc c with a := a, b := b }) :=
    (EncIs.refl d c).updEnc fun e he => by rw [he]
  exact levels.updEnc fun e he => by rw [he]; exact ⟨rfl, rfl, rfl⟩

/-- An encoder whose levels stay is as before. -/
theorem Dev.encIs_quadrature_still (ha : a = (d.enc c).a) (hb : b = (d.enc c).b) :
    EncIs d (d.quadrature c a b) c (· = d.enc c) := by
  rw [Dev.quadrature_of_still ha hb, ha, hb]
  exact (EncIs.refl d c).updEnc fun e he => by rw [he]

/-- Bit `a` of a status byte, once set. -/
theorem getLsbD_or_bit (x : BitVec 8) {a : Nat} (ha : a < 8) : (x ||| (1#8 <<< a)).getLsbD a = true := by
  simp [ha]

/-- Two edges at once count nothing and set ENCERR. -/
theorem Dev.quadrature_both_spec (hm : (d.enc c).mode = 1) (hc : c < 8) (ha : a ≠ (d.enc c).a) (hb : b ≠ (d.enc c).b) :
    ((d.quadrature c a b).enc c).count = (d.enc c).count ∧ (d.quadrature c a b).mio.encErr.getLsbD c = true ∧
      (d.quadrature c a b).mio.ins = d.mio.ins := by
  rw [Dev.quadrature_of_both hm ha hb]
  have levels := d.enc_updEnc_self c fun e => { e with a := a, b := b }
  exact ⟨(congrArg Enc.count levels :), getLsbD_or_bit _ hc, rfl⟩

/-- An SSI frame is due in the LCLK of a boundary of a running loop, else 65,536 LCLK after the last one. -/
theorem Dev.ssiDue_of {e : Enc} (running : d.sle.st = .running → d.sle.first = false ∧ d.lclk = d.sle.lbound)
    (idle : d.sle.st ≠ .running → ∀ t0, e.ssiAt = some t0 → t0 + 65536 ≤ d.lclk) : d.ssiDue e = true := by
  unfold Dev.ssiDue
  split
  case isTrue h =>
    obtain ⟨first, now⟩ := running h
    rw [first, decide_eq_true now]
    rfl
  case isFalse h =>
    split
    next t0 last => exact decide_eq_true (idle h t0 last)
    next => rfl

theorem Dev.encIs_ssiStart (hm : (d.enc c).mode = 2) (free : (d.enc c).ssi = none) (due : d.ssiDue (d.enc c) = true) :
    EncIs d (d.ssiStart c) c (· = { d.enc c with ssi := some d.lclk, ssiAt := some d.lclk }) := by
  have starts : (decide ((d.enc c).mode = 2) && (d.enc c).ssi.isNone && d.ssiDue (d.enc c)) = true := by
    rw [hm, free, due]
    rfl
  rw [Dev.ssiStart, if_pos starts]
  exact (EncIs.refl d c).updEnc fun e he => by rw [he]

theorem Dev.encIs_ssiEnd {t0 : Nat} (w : W32) (hm : (d.enc c).mode = 2) (runs : (d.enc c).ssi = some t0) (due : t0 + (d.enc c).ssiLen ≤ d.lclk) :
    let n := w.toNat % 2 ^ ((d.enc c).ssiBits.toNat + 1)
    EncIs d (d.ssiEnd c w) c fun y => y.ssi = none ∧ y.count = BitVec.ofNat 32 (if (d.enc c).gray then grayBin n else n) := by
  intro n
  have early : ¬ ((d.enc c).mode != 2 || decide (d.lclk < t0 + (d.enc c).ssiLen)) = true := by
    rw [hm, decide_eq_false (Nat.not_lt.mpr due)]
    decide
  simp only [Dev.ssiEnd, runs, if_neg early]
  exact (EncIs.refl d c).updEnc fun e _ => ⟨rfl, rfl⟩

/-- An index edge latches COUNT for the run that waits for it. -/
theorem Dev.indexPulse_spec (active : (d.home c).active = true) (waits : (d.home c).idx = true) :
    (d.indexPulse c).home c = { d.home c with idx := false, latch := some (d.enc c).count, latchReg := (d.enc c).count } ∧
      (d.indexPulse c).sle = d.sle ∧ ∀ k, k ≠ c → (d.indexPulse c).home k = d.home k := by
  have latches : d.indexPulse c = d.updHome c fun h =>
      { h with idx := false, latch := some (d.enc c).count, latchReg := (d.enc c).count } := if_pos (by rw [active, waits]; rfl)
  rw [latches, Dev.home_updHome_self]
  exact ⟨rfl, rfl, fun k hk => Dev.home_updHome_ne d _ hk⟩

end

/-! ### Converters and outputs (R684, R686-R688) -/

theorem SMap.get_foldl_set_range {α : Type} [DecidableEq α] (d : α) (f : Nat → α) (m : SMap α) (a n k : Nat) :
    SMap.get d ((List.range n).foldl (fun m i => SMap.set d m (a + i) (f i)) m) k =
      if a ≤ k ∧ k < a + n then f (k - a) else SMap.get d m k := by
  induction n with
  | zero => rw [if_neg (by omega)]; rfl
  | succ n ih =>
    rw [List.range_succ, List.foldl_append, List.foldl_cons, List.foldl_nil, SMap.get_set, ih]
    by_cases last : k = a + n
    · rw [if_pos last, if_pos (by omega), last, Nat.add_sub_cancel_left]
    · have earlier : (a ≤ k ∧ k < a + n) ↔ (a ≤ k ∧ k < a + (n + 1)) := by omega
      simp only [if_neg last, earlier]

/-- The results of a port are those of its four lanes (R684). -/
theorem Dev.adcResult_spec {d : Dev} (running : d.sle.st = .running) (numbered : d.sle.first = false)
    (due : d.mio.convt.toNat + 68 ≤ d.lclk - d.sle.lbound) (q : Nat) (l : List W16) :
    d.adcResult q l = { d with sle := { d.sle with adc := (d.adcResult q l).sle.adc } } ∧
      ∀ k, SMap.get none (d.adcResult q l).sle.adc k = if k / 4 = q then some (l.getD (k % 4) 0) else SMap.get none d.sle.adc k := by
  have early : decide (d.cycleNo < d.mio.convt.toNat + 68) = false := decide_eq_false (Nat.not_lt.mpr due)
  rw [Dev.adcResult, if_neg (by simp [running, numbered, early])]
  refine ⟨rfl, fun k => ?_⟩
  refine (SMap.get_foldl_set_range none (fun i => some (nth 0 l i)) d.sle.adc (4 * q) 4 k).trans ?_
  have lane : (4 * q ≤ k ∧ k < 4 * q + 4) ↔ k / 4 = q := by omega
  simp only [lane]
  split
  next h => rw [show k - 4 * q = k % 4 by omega]; rfl
  next => rfl

/-- The DAC port sends the code of an output that is mapped to a DAC channel. -/
def Dev.sendCode (d : Dev) (x : Nat × OutEnt) : Dev := if x.2.dst = 3 then d.dacOut x.2.ch (SMap.get 0 d.sle.raw x.1) else d

theorem Dev.foldl_sendCode (l : List (Nat × OutEnt)) (d : Dev) :
    (l.foldl Dev.sendCode d).sle = d.sle ∧ (l.foldl Dev.sendCode d).out = d.out ++ (l.filter fun x => decide (x.2.dst = 3)).map
      fun x => .dac x.2.ch (BitVec.ofInt 16 (SMap.get 0 d.sle.raw x.1)) := by
  induction l generalizing d with
  | nil => exact ⟨rfl, (List.append_nil _).symm⟩
  | cons x l ih =>
    obtain ⟨sle, out⟩ := ih (d.sendCode x)
    rw [List.foldl_cons, sle, out]
    by_cases dac : x.2.dst = 3
    · rw [Dev.sendCode, if_pos dac, List.filter_cons_of_pos (by simpa using dac), List.map_cons, List.append_cons]
      exact ⟨rfl, rfl⟩
    · rw [Dev.sendCode, if_neg dac, List.filter_cons_of_neg (by simpa using dac)]
      exact ⟨rfl, rfl⟩

theorem Dev.dacSend_of_due {d : Dev} {t0 : Nat} (h : d.sle.dacDue = some t0) (due : t0 ≤ d.lclk) :
    d.dacSend = d.mappedOuts.foldl Dev.sendCode { d with sle := { d.sle with dacDue := none } } := by
  simp only [Dev.dacSend, h, if_neg (Nat.not_lt.mpr due)]
  rfl

/-- The periods start a whole number of periods after the last start, the latest that is not to come (R687). -/
theorem Dev.pwmStart_of_due {d : Dev} (due : d.mio.pwmPer.toNat + 1 ≤ d.lclk - d.mio.pwmAt) :
    d.pwmStart = { d with mio := { d.mio with duty := d.mio.dutyNext, pwmAt := d.pwmStart.mio.pwmAt } } ∧
      d.pwmStart.mio.pwmAt ≤ d.lclk ∧ d.lclk < d.pwmStart.mio.pwmAt + (d.mio.pwmPer.toNat + 1) ∧
      (d.pwmStart.mio.pwmAt - d.mio.pwmAt) % (d.mio.pwmPer.toNat + 1) = 0 := by
  rw [Dev.pwmStart, if_neg (Nat.not_lt.mpr due)]
  have pos : 0 < d.mio.pwmPer.toNat + 1 := Nat.succ_pos _
  generalize d.mio.pwmPer.toNat + 1 = per at pos due ⊢
  have rest : (d.lclk - d.mio.pwmAt) % per ≤ d.lclk - d.mio.pwmAt := Nat.mod_le ..
  have below : (d.lclk - d.mio.pwmAt) % per < per := Nat.mod_lt _ pos
  have whole := Nat.sub_mod_eq_zero_of_mod_eq (Nat.mod_mod (d.lclk - d.mio.pwmAt) per).symm
  refine ⟨rfl, Nat.sub_le .., ?_, ?_⟩
  · dsimp only
    omega
  · dsimp only
    rwa [show d.lclk - (d.lclk - d.mio.pwmAt) % per - d.mio.pwmAt = d.lclk - d.mio.pwmAt - (d.lclk - d.mio.pwmAt) % per by omega]

theorem Dev.get_updStep_self (d : Dev) (a : Nat) (f : Step → Step) :
    SMap.get {} (d.updStep a f).mio.steps a = f (SMap.get {} d.mio.steps a) := SMap.get_upd_self ..

/-- A carry gives one pulse, more than 64 LCLK after a sign change (R688). -/
theorem Dev.stepPulse_of_owed {d : Dev} {a : Nat} (steps : d.mio.stepMask.getLsbD a = true) (owed : (SMap.get {} d.mio.steps a).owed = true)
    (apart : ∀ t0, (SMap.get {} d.mio.steps a).turned = some t0 → t0 + 64 < d.lclk) :
    SMap.get {} (d.stepPulse a).mio.steps a =
        { SMap.get {} d.mio.steps a with owed := false, pulses := (SMap.get {} d.mio.steps a).pulses + 1 } ∧
      (d.stepPulse a).out = d.out ++ [.step a (SMap.get {} d.mio.steps a).dir] ∧ (d.stepPulse a).sle = d.sle := by
  have sent : d.stepPulse a =
      (d.updStep a fun s => { s with owed := false, pulses := s.pulses + 1 }).send (.step a (SMap.get {} d.mio.steps a).dir) := by
    rw [Dev.stepPulse, steps, owed]
    refine if_neg ?_
    split
    next t0 turned => simpa using apart t0 turned
    next => decide
  rw [sent, Dev.send_mio, Dev.get_updStep_self]
  exact ⟨rfl, rfl, rfl⟩

/-! ### Inputs: raw edges and captures (R691, R692) -/

@[simp] theorem Dev.inp_updInp_self (d : Dev) (i : Nat) (f : Inp → Inp) : (d.updInp i f).inp i = f (d.inp i) := SMap.get_upd_self ..

theorem Dev.inp_updInp_ne (d : Dev) {i k : Nat} (f : Inp → Inp) (h : k ≠ i) : (d.updInp i f).inp k = d.inp k := SMap.get_upd_ne _ _ _ _ h

/-- The level has stood for DEB µs; with DEB = 0, since an earlier LCLK. -/
theorem Dev.settled_iff {d : Dev} {x : Inp} :
    d.settled x = true ↔ (x.deb = 0 → x.edgeL < d.lclk) ∧ (x.deb ≠ 0 → x.edgeT + 100 * x.deb.toNat ≤ d.glb.ticks) := by
  unfold Dev.settled
  split
  case isTrue h => exact decide_eq_true_iff.trans ⟨fun old => ⟨fun _ => old, (absurd h ·)⟩, fun stood => stood.1 h⟩
  case isFalse h => exact decide_eq_true_iff.trans ⟨fun old => ⟨(absurd · h), fun _ => old⟩, fun stood => stood.2 h⟩

/-- A raw edge is an edge after POL. -/
theorem Inp.eff_eq_iff (x : Inp) (level : Bool) : x.eff = { x with raw := level }.eff ↔ level = x.raw :=
  Bool.bne_left_inj.trans eq_comm

/-- An input counts from a raw edge on the time that its level has stood, and keeps the position of the first one away from its accepted level. -/
theorem Dev.inp_rawEdge (d : Dev) (i : Nat) (level : Bool) :
    let x := d.inp i
    (d.rawEdge i level).inp i = { x with
      raw := level
      cap := if (level != x.pol) ≠ x.lvl ∧ x.cap = none ∧ i < 24 then some (d.enc (i % 8)).count else x.cap
      edgeT := if level = x.raw then x.edgeT else d.glb.ticks
      edgeL := if level = x.raw then x.edgeL else d.lclk } := by
  intro x
  rw [Dev.rawEdge, Dev.inp_updInp_self]
  have stands : d.stand x { x with raw := level } = { x with
      raw := level
      edgeT := if level = x.raw then x.edgeT else d.glb.ticks
      edgeL := if level = x.raw then x.edgeL else d.lclk } := by
    simp only [Dev.stand, Inp.eff_eq_iff]
    split <;> rfl
  have captures : ((level != x.pol) != x.lvl && x.cap.isNone && decide (i < 24)) = true ↔
      (level != x.pol) ≠ x.lvl ∧ x.cap = none ∧ i < 24 := by
    simp only [Bool.and_eq_true, bne_iff_ne, Option.isNone_iff_eq_none, decide_eq_true_eq, and_assoc]
  simp only [show d.inp i = x from rfl, stands, Inp.eff, axisOf, captures]
  split <;> rfl

theorem Dev.discardCap_of_settled {d : Dev} {i : Nat} (h : (d.inp i).eff = (d.inp i).lvl) (stood : d.settled (d.inp i) = true) :
    d.discardCap i = d.updInp i fun x => { x with cap := none } := by
  rw [Dev.discardCap, decide_eq_true h, stood]
  rfl

theorem Dev.discardCap_of_unsettled {d : Dev} {i : Nat} (h : ¬ d.settled (d.inp i) = true) : d.discardCap i = d := by
  rw [Dev.discardCap, (Bool.not_eq_true _).mp h, Bool.and_false]
  rfl

/-! ### The inputs over an entry into SAFE -/

section
variable (d : Dev)

@[simp] theorem Dev.raiseVec_mio (f v : Nat) : (d.raiseVec f v).mio = d.mio := by rw [Dev.raiseVec_eq]

@[simp] theorem Dev.ackLoad_mio : d.ackLoad.mio = d.mio := by
  unfold Dev.ackLoad
  split
  · rfl
  · dsimp only
    split <;> rfl

@[simp] theorem Dev.finishDef_mio (p : DefOp → Bool) (status : Nat) (payload : List Byte) : (d.finishDef p status payload).mio = d.mio := by
  unfold Dev.finishDef
  split
  · rfl
  · unfold Dev.queueAsync
    split <;> rfl

@[simp] theorem Dev.storeRecord_mio (type : Nat) (data : Option (List Byte)) (ok : Bool) : (d.storeRecord type data ok).2.mio = d.mio := by
  unfold Dev.storeRecord
  dsimp only
  split
  · rfl
  · rw [Dev.record_eq _ (by simp)]
    rfl

@[simp] theorem Dev.installSet_mio (c : SleCfg) (store : Bool) : (d.installSet c store).mio = d.mio := by
  unfold Dev.installSet
  dsimp only
  split
  · exact Dev.storeRecord_mio ..
  · rfl

@[simp] theorem Dev.safeOutFrames_mio : d.safeOutFrames.mio = d.mio := by
  obtain ⟨n, e, k, eq⟩ := Dev.cyclicOuts_eq { d with net := { d.net with safeAt := d.glb.ticks } } true d.now
  rw [Dev.safeOutFrames, eq]

theorem Dev.homeAbort_ins (outcome a : Nat) : (d.homeAbort outcome a).mio.ins = d.mio.ins := by
  unfold Dev.homeAbort
  split
  · rw [Dev.homeEnd, Dev.finishDef_mio]
    rfl
  · rfl

theorem Dev.safeOut_ins (x : Nat × OutEnt) : (d.safeOut x).mio.ins = d.mio.ins := by
  unfold Dev.safeOut
  dsimp only
  split <;> rfl

theorem Dev.foldl_ins {α : Type} {f : Dev → α → Dev} (h : ∀ d x, (f d x).mio.ins = d.mio.ins) (l : List α) :
    (l.foldl f d).mio.ins = d.mio.ins :=
  List.foldlRecOn (motive := fun t => t.mio.ins = d.mio.ins) l f rfl fun t kept x _ => (h t x).trans kept

theorem Dev.sleLeave_ins (st : SleState) (outcome : Nat) : (d.sleLeave st outcome).mio.ins = d.mio.ins := by
  have aborted : (d.runsAborted outcome).mio.ins = d.mio.ins := by
    rw [Dev.runsAborted, Dev.foldl_ins _ fun t => Dev.homeAbort_ins t outcome, Dev.ackLoad_mio]
  rw [Dev.sleLeave, Dev.safeOutFrames_mio, Dev.safeOuts, Dev.foldl_ins _ Dev.safeOut_ins, ← aborted, Dev.runsAborted]
  generalize (List.range 8).foldl (Dev.homeAbort outcome) d.ackLoad = t
  dsimp only
  split
  · rw [Dev.installSet_mio]
  · rfl

theorem Dev.enterSafe_ins (cause outcome : Nat) : (d.enterSafe cause outcome).mio.ins = d.mio.ins := by
  unfold Dev.enterSafe
  split
  · rfl
  · have left := d.sleLeave_ins .safe outcome
    generalize d.sleLeave .safe outcome = t at *
    dsimp only
    split
    · rw [Dev.raiseVec_mio]
      exact left
    · exact left

end

/-! ### Inputs: accepted levels (R691-R697) -/

/-- An input takes its level as accepted, and its capture as its latch. -/
def Dev.levelTaken (d : Dev) (i : Nat) : Dev :=
  d.updInp i fun x =>
    { x with lvl := (d.inp i).eff, latch := x.cap.getD x.latch, cap := none, trans := (d.glb.ticks :: x.trans).take 256 }

/-- An input that chatters is recorded. -/
def Dev.chatterSeen (d : Dev) (i : Nat) : Dev :=
  if (d.inp i).chatters d.glb.ticks then
    { d with mio := { d.mio with chatter := d.mio.chatter ||| (1#25 <<< i) } }.record { cls := 7, source := 6, code := 0x0030, info := i }
  else d

/-- The drive of axis `a` is tripped by a limit. -/
def Dev.limitTripped (d : Dev) (a : Nat) : Dev := { d with mio := { d.mio with limTrip := d.mio.limTrip ||| (1#8 <<< a) } }

theorem Dev.chatterSeen_eq (d : Dev) (i : Nat) : ∃ c e p o g, d.chatterSeen i =
    { d with mio := { d.mio with chatter := c }, err := e, pcie := p, out := o, dbg := g } := by
  unfold Dev.chatterSeen
  split
  · exact ⟨_, _, _, _, _, Dev.record_eq _ (by simp)⟩
  · exact ⟨_, _, _, _, _, rfl⟩

section
variable {d t u : Dev} {i : Nat}

/-- Input `i` has taken on its level, which ends its capture; the other inputs are as before. -/
def LevelAccepted (d t : Dev) (i : Nat) : Prop :=
  (t.inp i).lvl = (d.inp i).eff ∧ (t.inp i).latch = (d.inp i).cap.getD (d.inp i).latch ∧ (t.inp i).cap = none ∧
    ∀ k, k ≠ i → t.inp k = d.inp k

theorem LevelAccepted.congr (h : LevelAccepted d t i) (same : u.mio.ins = t.mio.ins) : LevelAccepted d u i := by
  have inp (k : Nat) : u.inp k = t.inp k := congrArg (SMap.get ({} : Inp) · k) same
  simpa only [LevelAccepted, inp] using h

theorem Dev.levelAccepted_levelTaken : LevelAccepted d (d.levelTaken i) i := by
  rw [LevelAccepted, Dev.levelTaken, Dev.inp_updInp_self]
  exact ⟨rfl, rfl, rfl, fun k hk => Dev.inp_updInp_ne d _ hk⟩

theorem Dev.sto_of_limTrip {a : Nat} (trip : t.mio.limTrip.getLsbD a = true) : t.sto a = false := by
  rw [Dev.sto, trip, Bool.not_true, Bool.and_false]

theorem Dev.acceptIn_of_unsettled (h : ¬ d.settled (d.inp i) = true) : d.acceptIn i = d := by
  rw [Dev.acceptIn, (Bool.not_eq_true _).mp h, Bool.not_false, Bool.or_true]
  rfl

theorem Dev.acceptIn_of_accepted (h : (d.inp i).eff = (d.inp i).lvl) : d.acceptIn i = d := by
  rw [Dev.acceptIn, decide_eq_true h]
  rfl

section
variable (h : (d.inp i).eff ≠ (d.inp i).lvl) (stood : d.settled (d.inp i) = true)
include h stood

/-- ESTOP_N: its active level stops the loop. -/
theorem Dev.acceptIn_estop (he : i = 24) : d.acceptIn i =
    if (d.inp i).eff then ((d.levelTaken i).chatterSeen i).enterSafe 2 3 else (d.levelTaken i).chatterSeen i := by
  rw [Dev.acceptIn, if_neg (by simp [h, stood])]
  exact if_pos he

/-- An input of an axis: its active level trips the drive where it is a limit with LIMSTO of an axis without a homing run, which sees it. -/
theorem Dev.acceptIn_axis (he : i ≠ 24) : ∃ f, d.acceptIn i =
    (if (d.inp i).eff && decide (i < 16) && (d.inp i).limSto && !(((d.levelTaken i).chatterSeen i).home (axisOf i)).active then
      ((d.levelTaken i).chatterSeen i).limitTripped (axisOf i) else (d.levelTaken i).chatterSeen i).updHome (axisOf i) f := by
  rw [Dev.acceptIn, if_neg (by simp [h, stood])]
  exact ⟨_, if_neg he⟩

theorem Dev.levelAccepted_acceptIn : LevelAccepted d (d.acceptIn i) i := by
  obtain ⟨_, _, _, _, _, seen⟩ := (d.levelTaken i).chatterSeen_eq i
  have taken : LevelAccepted d ((d.levelTaken i).chatterSeen i) i := Dev.levelAccepted_levelTaken.congr (by rw [seen])
  by_cases he : i = 24
  · rw [Dev.acceptIn_estop h stood he]
    split
    · exact taken.congr (Dev.enterSafe_ins ..)
    · exact taken
  · obtain ⟨f, eq⟩ := Dev.acceptIn_axis h stood he
    rw [eq]
    split <;> exact taken.congr rfl

/-- A running loop enters SAFE with the active level of ESTOP_N (R695). -/
theorem Dev.acceptIn_stops (he : i = 24) (on : (d.inp i).eff = true) (running : d.sle.st = .running) :
    (d.acceptIn i).sle.st = .safe ∧ (d.acceptIn i).sle.safeCause = 2 := by
  obtain ⟨_, _, _, _, _, seen⟩ := (d.levelTaken i).chatterSeen_eq i
  have runs : ((d.levelTaken i).chatterSeen i).sle.st = .running := by rw [seen]; exact running
  obtain ⟨safe, _, cause, _⟩ := Dev.enterSafe_spec runs 2 3
  rw [Dev.acceptIn_estop h stood he, if_pos on]
  exact ⟨safe, cause⟩

/-- The active level of a limit with LIMSTO takes the permit of its axis (R697). -/
theorem Dev.acceptIn_trips (hl : i < 16) (on : (d.inp i).eff = true) (lim : (d.inp i).limSto = true) (idle : (d.home (i % 8)).active = false) :
    (d.acceptIn i).mio.limTrip.getLsbD (i % 8) = true ∧ (d.acceptIn i).sto (i % 8) = false := by
  obtain ⟨_, _, _, _, _, seen⟩ := (d.levelTaken i).chatterSeen_eq i
  obtain ⟨f, eq⟩ := Dev.acceptIn_axis h stood (by omega)
  have noRun : (((d.levelTaken i).chatterSeen i).home (axisOf i)).active = false := by rw [seen]; exact idle
  rw [on, decide_eq_true hl, lim, noRun] at eq
  have trip : (d.acceptIn i).mio.limTrip.getLsbD (i % 8) = true := by
    rw [eq]
    exact getLsbD_or_bit _ (Nat.mod_lt i (by decide))
  exact ⟨trip, Dev.sto_of_limTrip trip⟩

end

end

/-! ### SAFE frames (R763, R764) -/

/-- Payload of the cyclic frame of output stream `k`, whose fields are latched at device time `t`. -/
def Dev.cyclicPay (d : Dev) (safe : Bool) (t k : Nat) : List Byte :=
  let o := SMap.get {} d.net.outs k
  [BitVec.ofNat 8 o.first, BitVec.ofNat 8 o.count, BitVec.ofNat 8 (b2n safe), 0, 0, 0, 0, 0] ++ toBytes (d.ptp t) 8 ++
    (span o.first o.count).flatMap fun j => toBytes (d.tsnOut safe j).toNat 4

/-- The cyclic frame of output stream `k` with a REQTAG. -/
def Dev.cyclicFrame (d : Dev) (safe : Bool) (t k tag : Nat) : List Byte :=
  let o := SMap.get {} d.net.outs k
  let pay := d.cyclicPay safe t k
  etherFrame o.mac (d.eth o.port).cfg.mac o.vid o.pcp 0x88B5 (pstHeader 0x10 k (SMap.get 0 d.net.outSeq k).toNat pay.length tag ++ pay)

/-- The frames waiting in queue `q` of Ethernet port `p`. -/
def Dev.waiting (d : Dev) (p q : Nat) : List EthFrame := SMap.get [] (d.eth p).tx q

/-- What cyclic frames depend on is unchanged, up to the sequence numbers of the streams, and no waiting frame is lost. -/
structure StreamsKept (d t : Dev) : Prop where
  sle : t.sle = d.sle
  mio : t.mio = d.mio
  net : t.net = { d.net with outSeq := t.net.outSeq }
  cfg : ∀ p, (t.eth p).cfg = (d.eth p).cfg
  waiting : ∀ p q, d.waiting p q ⊆ t.waiting p q

theorem StreamsKept.refl (d : Dev) : StreamsKept d d := ⟨rfl, rfl, rfl, fun _ => rfl, fun _ _ _ h => h⟩

theorem StreamsKept.trans {d t u : Dev} (h : StreamsKept d t) (g : StreamsKept t u) : StreamsKept d u where
  sle := g.sle.trans h.sle
  mio := g.mio.trans h.mio
  net := by rw [g.net, h.net]
  cfg p := (g.cfg p).trans (h.cfg p)
  waiting p q := List.Subset.trans (h.waiting p q) (g.waiting p q)

theorem Dev.eth_updEth (d : Dev) (p : Nat) (f : Eth → Eth) (k : Nat) : (d.updEth p f).eth k = if k = p then f (d.eth p) else d.eth k :=
  SMap.get_upd ..

theorem Dev.eth_enqueue (d : Dev) (p pcp : Nat) (f : EthFrame) (k : Nat) : (d.enqueue p pcp f).eth k =
    if k = p then { d.eth p with tx := SMap.upd [] (d.eth p).tx (nth 0 (d.eth p).cfg.qmap pcp) fun l => l ++ [f] } else d.eth k := by
  rw [Dev.enqueue, Dev.eth_updEth]

theorem Dev.mem_waiting_enqueue (d : Dev) (p pcp : Nat) (f : EthFrame) : f ∈ (d.enqueue p pcp f).waiting p (nth 0 (d.eth p).cfg.qmap pcp) := by
  rw [Dev.waiting, Dev.eth_enqueue, if_pos rfl, SMap.get_upd_self]
  exact List.mem_append_right _ List.mem_cons_self

theorem StreamsKept.enqueue (d : Dev) (p pcp : Nat) (f : EthFrame) : StreamsKept d (d.enqueue p pcp f) where
  sle := rfl
  mio := rfl
  net := rfl
  cfg k := by
    rw [Dev.eth_enqueue]
    split
    next h => rw [h]
    next => rfl
  waiting k q := by
    rw [Dev.waiting, Dev.waiting, Dev.eth_enqueue]
    split
    next h =>
      subst h
      rw [SMap.get_upd]
      split
      next hq => rw [hq]; exact List.subset_append_left ..
      next => exact List.Subset.refl _
    next => exact List.Subset.refl _

/-- Output stream `k` of `d` has queued its frame in `t`, where it is enabled. -/
structure FrameQueued (safe : Bool) (time : Nat) (d t : Dev) (k : Nat) : Prop where
  enabled : (SMap.get {} d.net.outs k).enable = true → SMap.get 0 t.net.outSeq k = SMap.get 0 d.net.outSeq k + 1 ∧
    ∃ g tag, g ∈ t.waiting (SMap.get {} d.net.outs k).port
        (nth 0 (d.eth (SMap.get {} d.net.outs k).port).cfg.qmap (SMap.get {} d.net.outs k).pcp) ∧
      g.bytes = d.cyclicFrame safe time k tag
  disabled : (SMap.get {} d.net.outs k).enable = false → SMap.get 0 t.net.outSeq k = SMap.get 0 d.net.outSeq k

section
variable {safe : Bool} {time k : Nat} {d t u : Dev}

theorem StreamsKept.outs (h : StreamsKept d t) : t.net.outs = d.net.outs := by rw [h.net]

theorem StreamsKept.cyclicFrame (h : StreamsKept d t) (seq : SMap.get 0 t.net.outSeq k = SMap.get 0 d.net.outSeq k) (tag : Nat) :
    t.cyclicFrame safe time k tag = d.cyclicFrame safe time k tag := by
  have ptp : t.ptp time = d.ptp time := by rw [Dev.ptp, h.net]; rfl
  have out (j : Nat) : t.tsnOut safe j = d.tsnOut safe j := by
    simp only [Dev.tsnOut, Dev.mappedOuts, Dev.outputs, h.sle]
  simp only [Dev.cyclicFrame, Dev.cyclicPay, h.outs, h.cfg, seq, ptp, out]

/-- A frame that was queued still waits. -/
theorem FrameQueued.later (h : FrameQueued safe time d t k) (kept : StreamsKept t u)
    (seq : SMap.get 0 u.net.outSeq k = SMap.get 0 t.net.outSeq k) : FrameQueued safe time d u k where
  enabled on := by
    obtain ⟨next, g, tag, queued, bytes⟩ := h.enabled on
    exact ⟨seq.trans next, g, tag, kept.waiting _ _ queued, bytes⟩
  disabled off := seq.trans (h.disabled off)

/-- A frame is the same where earlier streams have queued theirs. -/
theorem FrameQueued.after (kept : StreamsKept d t) (seq : SMap.get 0 t.net.outSeq k = SMap.get 0 d.net.outSeq k)
    (h : FrameQueued safe time t u k) : FrameQueued safe time d u k where
  enabled on := by
    obtain ⟨next, g, tag, queued, bytes⟩ := h.enabled (by rwa [kept.outs])
    rw [kept.outs, kept.cfg] at queued
    exact ⟨by rw [next, seq], g, tag, queued, bytes.trans (kept.cyclicFrame seq tag)⟩
  disabled off := (h.disabled (by rwa [kept.outs])).trans seq

/-- Output stream `s` takes its next sequence number; the REQTAG of the frame is drawn. -/
def Dev.streamNumbered (d : Dev) (s : Nat) : Dev :=
  { d with free := d.free + 1, net := { d.net with outSeq := SMap.set 0 d.net.outSeq s (SMap.get 0 d.net.outSeq s + 1) } }

theorem StreamsKept.streamNumbered (d : Dev) (s : Nat) : StreamsKept d (d.streamNumbered s) :=
  ⟨rfl, rfl, rfl, fun _ => rfl, fun _ _ _ h => h⟩

theorem Dev.cyclicOut_of_enabled {s : Nat} (on : (SMap.get {} d.net.outs s).enable = true) : ∃ tag, d.cyclicOut safe time s =
    (d.streamNumbered s).enqueue (SMap.get {} d.net.outs s).port (SMap.get {} d.net.outs s).pcp { bytes := d.cyclicFrame safe time s tag } := by
  rw [Dev.cyclicOut, if_neg (by simp [on])]
  exact ⟨_, rfl⟩

/-- One output stream queues its frame: the numbers of the other streams stay. -/
theorem Dev.cyclicOut_spec (safe : Bool) (time : Nat) (d : Dev) (s : Nat) :
    StreamsKept d (d.cyclicOut safe time s) ∧ FrameQueued safe time d (d.cyclicOut safe time s) s ∧
      ∀ k, k ≠ s → SMap.get 0 (d.cyclicOut safe time s).net.outSeq k = SMap.get 0 d.net.outSeq k := by
  by_cases on : (SMap.get {} d.net.outs s).enable = true
  · obtain ⟨tag, eq⟩ := Dev.cyclicOut_of_enabled (safe := safe) (time := time) on
    rw [eq]
    refine ⟨(StreamsKept.streamNumbered d s).trans (.enqueue ..), ⟨fun _ => ?_, fun off => absurd on (by simp [off])⟩, fun k hk => SMap.get_set_ne _ _ _ _ hk⟩
    exact ⟨SMap.get_set_self .., _, tag, Dev.mem_waiting_enqueue .., rfl⟩
  · rw [Dev.cyclicOut, if_pos (by simpa using on)]
    exact ⟨.refl d, ⟨fun enabled => absurd enabled on, fun _ => rfl⟩, fun _ _ => rfl⟩

/-- Every stream of a list queues its frame; the numbers of the others stay. -/
theorem Dev.foldl_cyclicOut (safe : Bool) (time : Nat) {l : List Nat} (once : l.Nodup) (d : Dev) :
    let t := l.foldl (Dev.cyclicOut safe time) d
    StreamsKept d t ∧ (∀ k ∈ l, FrameQueued safe time d t k) ∧ ∀ k, k ∉ l → SMap.get 0 t.net.outSeq k = SMap.get 0 d.net.outSeq k := by
  induction l generalizing d with
  | nil => exact ⟨.refl d, fun _ h => absurd h List.not_mem_nil, fun _ _ => rfl⟩
  | cons s l ih =>
    obtain ⟨fresh, once⟩ := List.nodup_cons.mp once
    obtain ⟨kept, first, same⟩ := d.cyclicOut_spec safe time s
    obtain ⟨keptRest, rest, sameRest⟩ := ih once (d.cyclicOut safe time s)
    refine ⟨kept.trans keptRest, fun k hk => ?_, fun k hk => ?_⟩
    · rcases List.mem_cons.mp hk with rfl | hk
      · exact first.later keptRest (sameRest k fresh)
      · exact (rest k hk).after kept (same k fun eq => fresh (eq ▸ hk))
    · exact (sameRest k (List.not_mem_of_not_mem_cons hk)).trans (same k (List.ne_of_not_mem_cons hk))

/-- SAFE frames are due 1 ms after the last ones while the loop does not run. -/
theorem Dev.safeFrames_of_due (idle : d.sle.st ≠ .running) (due : d.net.safeAt + 100000 ≤ d.glb.ticks) : d.safeFrames = d.safeOutFrames := by
  rw [Dev.safeFrames, if_neg (by simp [idle, due])]

theorem Dev.safeOutFrames_spec (d : Dev) : StreamsKept { d with net := { d.net with safeAt := d.glb.ticks } } d.safeOutFrames ∧
    ∀ k, k < 8 → FrameQueued true d.now { d with net := { d.net with safeAt := d.glb.ticks } } d.safeOutFrames k := by
  obtain ⟨kept, queued, _⟩ := Dev.foldl_cyclicOut true d.now List.nodup_range (l := List.range 8)
    { d with net := { d.net with safeAt := d.glb.ticks } }
  exact ⟨kept, fun k hk => queued k (List.mem_range.mpr hk)⟩

end

/-- Settles O52: each event of Motion I/O comes at its instant and changes what it is to change; SAFE frames are queued every 1 ms. -/
theorem motionEvents : Obligations.MotionEvents := by
  unfold Obligations.MotionEvents
  intro s c a b bits32 port l0 l1 l2 l3 i level d e x h st stood Enc up
  have enc {i : Instr} {f : Dev → Dev} {P : Machine.Enc → Prop} (run : exec i s = s.run f) (hp : EncIs d (f d) c.val P) : Enc i P := .of_run run hp
  have stands : stood ↔ d.settled x = true := Dev.settled_iff.symm
  refine ⟨fun quad => ⟨fun edge => ?_, fun ha hb => ?_, fun ha hb => ?_⟩, fun ssi => ⟨fun free running idle => ?_, fun t0 runs due => ?_⟩,
    fun active waits => ?_, fun running numbered due => ?_, fun t0 set due => ?_, ⟨fun early => ?_, fun due => ?_⟩, fun steps owed apart => ?_, ?_,
    fun early => ?_, fun differs settled => ?_, fun same settled => ?_, fun idle due => ?_⟩
  · exact enc (f := fun d => d.quadrature c.val a b) rfl (Dev.encIs_quadrature_edge quad edge)
  · exact .of_run (f := fun d => d.quadrature c.val a b) rfl (Dev.quadrature_both_spec quad c.isLt ha hb)
  · exact enc (f := fun d => d.quadrature c.val a b) rfl (Dev.encIs_quadrature_still ha hb)
  · exact enc (f := fun d => d.ssiStart c.val) rfl (Dev.encIs_ssiStart ssi free (Dev.ssiDue_of running idle))
  · exact enc (f := fun d => d.ssiEnd c.val bits32) rfl (Dev.encIs_ssiEnd bits32 ssi runs due)
  · exact .of_run (f := fun d => d.indexPulse c.val) rfl (Dev.indexPulse_spec active waits)
  · exact .of_run (f := fun d => d.adcResult port.val [l0, l1, l2, l3]) rfl (Dev.adcResult_spec running numbered due _ _)
  · refine .of_run (f := Dev.dacSend) rfl ?_
    rw [Dev.dacSend_of_due set due]
    exact Dev.foldl_sendCode ..
  · exact State.run_of_same (f := Dev.pwmStart) (if_pos early)
  · exact .of_run (f := Dev.pwmStart) rfl (Dev.pwmStart_of_due due)
  · exact .of_run (f := fun d => d.stepPulse c.val) rfl (Dev.stepPulse_of_owed steps owed apart)
  · exact .of_run (f := fun d => d.rawEdge i.val level) rfl ⟨rfl, fun k hk => Dev.inp_updInp_ne d _ hk, d.inp_rawEdge i.val level⟩
  · rw [stands] at early
    exact ⟨State.run_of_same (f := fun d => d.acceptIn i.val) (Dev.acceptIn_of_unsettled early),
      State.run_of_same (f := fun d => d.discardCap i.val) (Dev.discardCap_of_unsettled early)⟩
  · have stood := stands.mp settled
    obtain ⟨lvl, latch, cap, others⟩ := Dev.levelAccepted_acceptIn differs stood
    exact .of_run (f := fun d => d.acceptIn i.val) rfl
      ⟨lvl, latch, cap, others, Dev.acceptIn_stops differs stood, Dev.acceptIn_trips differs stood⟩
  · refine ⟨State.run_of_same (f := fun d => d.acceptIn i.val) (Dev.acceptIn_of_accepted same), .of_run (f := fun d => d.discardCap i.val) rfl ?_⟩
    rw [Dev.discardCap_of_settled same (stands.mp settled)]
    exact ⟨Dev.inp_updInp_self .., fun k hk => Dev.inp_updInp_ne _ _ hk, rfl⟩
  · refine .of_run (f := Dev.safeFrames) rfl ?_
    rw [Dev.safeFrames_of_due idle due]
    obtain ⟨kept, queued⟩ := d.safeOutFrames_spec
    exact ⟨by rw [kept.net], kept.sle, kept.mio, fun k hk => ⟨(queued k hk).enabled, (queued k hk).disabled⟩⟩

end Sys2Proof.Machine
end
